-- ==== Sys2Proof/Word.lean ====
section
/-! DEFINITION. The word types of the SKV-9032 interface: registers and mailbox words are 64 bits wide (R3),
memory is bytes. Only the plainest names stand here; field extraction and byte order are in Machine/Bits.lean. -/

namespace Sys2Proof

/-- A 64-bit register or mailbox word (R3). -/
abbrev W64 := BitVec 64

/-- A byte of memory or of a byte string. -/
abbrev Byte := BitVec 8

/-- A number as a 64-bit word, modulo 2^64. -/
abbrev w64 (n : Nat) : W64 := BitVec.ofNat 64 n

/-- A number as a byte, modulo 256. -/
abbrev byte (n : Nat) : Byte := BitVec.ofNat 8 n

end Sys2Proof
end

