-- ==== Sys2Proof/Syntax.lean ====
section
/-! DEFINITION. The commands of the block: one constructor of `Instr` per row of spec/opcode_table.json, with the
operands the row's command carries. -/

namespace Sys2Proof

/-- A mailbox command as the host sends it (R421), apart from its opcode, which the row names: SEQ, the header fields,
PARTITION, and the payload in plaintext. LENGTH is the payload's length, plus the two tag words when SEALED. `tagOk`
says whether the GCM tag of a sealed payload verifies under the channel's session key (R423). -/
structure Cmd where
  seq : Nat
  hdrVersion : Nat
  reserved : Nat
  last : Bool
  async : Bool
  sealed : Bool
  tagOk : Bool
  partition : Nat
  payload : List W64
  deriving DecidableEq, Repr

/-- The JTAG instructions (R512). -/
inductive JtagInstr where
  | bypass | idcode | extest | samplePreload | extestPulse | extestTrain
  deriving DecidableEq, Repr

/-- Where a register access goes: BAR0 of a function, the PF's BAR2 (R410, R411), or the power-management state or the Command register of
its configuration space (R406). -/
inductive RegSpace where
  | bar0 | bar2 | pm | command
  deriving DecidableEq, Repr

/-- What a RoCEv2 packet is (R365): the operations the part knows, and any other BTH opcode. -/
inductive RdmaOp where
  | writeFirst | writeMiddle | writeLast | writeLastImm | writeOnly | writeOnlyImm | flush | flushResponse | ack | cnp
  | other (opcode : Nat)
  deriving DecidableEq, Repr

/-- The RoCEv2 part of a frame: destination QPN, PSN, operation, RETH, immediate, AETH syndrome, payload, and whether the
ICRC is right. -/
structure Roce where
  destQpn : Nat
  psn : Nat
  op : RdmaOp
  va : Nat
  rkey : Nat
  len : Nat
  imm : Nat
  syndrome : Nat
  payload : List Byte
  icrcOk : Bool
  deriving DecidableEq, Repr

/-- What an Ethernet frame carries (R360, R364, R365). -/
inductive FrameBody where
  /-- A priority flow-control frame: for each named priority its pause time in nanoseconds. -/
  | pfc (times : List (Nat × Nat))
  /-- An ARP request or NDP solicitation for an address. -/
  | resolve (ipv6 : Bool) (addr : Nat)
  /-- An MKA exchange with a live peer: its key-server priority, its SCI, and the wrapped SAK it distributes where it is key server. -/
  | mkaSak (prio sci : Nat) (sak : Option (List Byte))
  /-- An MKA frame that does not verify under the CAK: a CAK mismatch. -/
  | mkaMismatch
  /-- An IP packet to a UDP port: version, destination address, whether its header is one R360 accepts and it is no
  fragment, the congestion-experienced mark, and its RoCEv2 content. -/
  | udp (ipv6 : Bool) (addr : Nat) (headerOk : Bool) (port : Nat) (ce : Bool) (r : Roce)
  /-- Anything else: discarded. -/
  | other
  deriving DecidableEq, Repr

/-- What IEEE 802.1AE adds to a received frame (R364): its source MAC, the association number, the low 32 bits of the packet number and
the SCI of its SecTAG, the encrypted data and the ICV. -/
structure SecTag where
  src : Nat
  an : Nat
  pn : Nat
  sci : Nat
  data : List Byte
  icv : List Byte
  deriving DecidableEq, Repr

/-- A frame received on an Ethernet link: FCS, its length in bytes, its protection if it has one, destination MAC, VLAN tag, body. VLAN tag
and body of a protected frame are those that its data hold when it is opened; what does not open to them fails its ICV. -/
structure Frame where
  fcsOk : Bool
  len : Nat
  macsec : Option SecTag
  mac : Nat
  vid : Option Nat
  body : FrameBody
  deriving DecidableEq, Repr

/-- A Binigal frame as its two ends see it (R393): header fields and plaintext payload. What stands on the wire for it, and what a
received string of bytes opens to, is said with the link's keys (R395). -/
structure BFrame where
  kind : Nat
  binding : Nat
  src : Nat
  dst : Nat
  hops : Nat
  seq : Nat
  txc : Nat
  arg0 : Nat
  arg1 : Nat
  payload : List Byte
  deriving DecidableEq, Repr

/-- What a boot or a reset meets that the manual leaves to the world outside (R466 to R471): whether a 100 MHz clock stands on
REFCLK, the last STEP the boot completes (6: it completes), whether it then stops with a reason (R470) or hangs (R471), the
defects its self-test finds as (pool of R27, site, element), the configuration slots that no longer hold a record, and the
milliseconds it takes. -/
structure BootEvents where
  refclk : Bool
  reaches : Nat
  fails : Bool
  reason : Nat
  defects : List (Nat × Nat × Nat)
  worn : List Nat
  ms : Nat
  deriving DecidableEq, Repr

/-- A boot that meets nothing (the model's own default). -/
def BootEvents.clean : BootEvents := ⟨false, 6, false, 0, [], [], 1500⟩


/-- The commands of the block: one constructor per row of spec/opcode_table.json, in its order. `ch` is a mailbox channel,
`p` a partition, `c` and `k` a logical cluster and a core, `l` a link, `bid` a BIND_ID; other operands are what the row's
event brings from outside. -/
inductive Instr where
  /-- GET_INFO (R432): Command that returns the device identity, firmware versions, buffer sizes and DEVICE_FP. -/
  | getInfo (ch : Fin 17) (c : Cmd)
  /-- GET_STATUS (R433): Command that returns the channel state, throttle and hold flags, lifetime seconds and UTC
  offset. -/
  | getStatus (ch : Fin 17) (c : Cmd)
  /-- RESET_DEVICE_WARM (R475): Command that destroys every partition and warm-restarts the firmware while keeping keys,
  links settings and the site map. -/
  | resetDeviceWarm (ch : Fin 17) (c : Cmd) (e : BootEvents)
  /-- RESET_DEVICE_COLD (R474): Command that cold-resets the module and reruns the power-up timeline from step 2. -/
  | resetDeviceCold (ch : Fin 17) (c : Cmd) (e : BootEvents)
  /-- RESET_DEVICE_LINK (R477): Command that retrains and re-keys one link and moves its queue pairs to ERROR. -/
  | resetDeviceLink (ch : Fin 17) (c : Cmd)
  /-- RESET_DEVICE_PARTITION (R476): Command that ends a partition's task execution and clears task state while keeping
  rounds, keys and DRAM. -/
  | resetDevicePartition (ch : Fin 17) (c : Cmd)
  /-- SET_CALENDAR (R435): Command that stores a new UTC offset, logs CALENDAR_SET and replies with the lifetime
  seconds. -/
  | setCalendar (ch : Fin 17) (c : Cmd)
  /-- CREATE_PARTITION (R350): Command that checks resources, writes the ownership map and starts zeroing the new
  partition's DRAM. -/
  | createPartition (ch : Fin 17) (c : Cmd)
  /-- PARTITION_CREATION_DONE (R350): End of the creation scrub: the partition becomes ACTIVE, its VF opens and the
  reply OK is sent. -/
  | partitionCreationDone (p : Fin 16)
  /-- DESTROY_PARTITION (R353): Command that stops a partition's work, aborts its rounds and starts scrubbing its
  resources. -/
  | destroyPartition (ch : Fin 17) (c : Cmd)
  /-- PARTITION_DESTRUCTION_DONE (R353): End of the destruction scrub: keys, log and map entries are zeroed, resources
  freed and the reply OK is sent. -/
  | partitionDestructionDone (p : Fin 16)
  /-- QUERY_PARTITION_DESCRIBE (R352): Command that returns a partition's descriptor words. -/
  | queryPartitionDescribe (ch : Fin 17) (c : Cmd)
  /-- QUERY_PARTITION_SET_FOLD_K (R351): Command that sets the partition's fold-slot count k, effective at the next task
  boundary. -/
  | queryPartitionSetFoldK (ch : Fin 17) (c : Cmd)
  /-- OPEN_SESSION (R327): Command that verifies the owner signature, derives a new session key by ECDH and resets the
  channel sequence. -/
  | openSession (ch : Fin 17) (c : Cmd)
  /-- SET_EGRESS_ALLOW_SET (R381): Command that writes a peer address and key into an egress allowlist entry. -/
  | setEgressAllowSet (ch : Fin 17) (c : Cmd)
  /-- SET_EGRESS_ALLOW_CLEAR (R381): Command that clears an egress allowlist entry. -/
  | setEgressAllowClear (ch : Fin 17) (c : Cmd)
  /-- OPEN_ROUND (R49): Command that checks a new round, writes its ledger entries and starts clearing bitmaps and
  accumulators. -/
  | openRound (ch : Fin 17) (c : Cmd)
  /-- ROUND_CLEARING_DONE (R49): End of the OPENING clearing: the windows become live and the round enters OPEN. -/
  | roundClearingDone (p : Fin 16) (tag : Nat)
  /-- CLOSE_ROUND (R56): Command that marks a chunk range closed at a close point, tears or shuts clients and starts a
  mend window. -/
  | closeRound (ch : Fin 17) (c : Cmd)
  /-- RANGE_CLOSED (R56): Once every chunk staged before the close point has committed, the counts are taken and the
  event is posted. -/
  | rangeClosed (p : Fin 16) (tag : Nat) (i : Nat)
  /-- MEND_WINDOW_END (R57): Expiry of a range's mend window, after which later chunks of the range are refused as late.
  -/
  | mendWindowEnd (p : Fin 16) (tag : Nat) (i : Nat)
  /-- RANGE_FINAL (R60): Once chunks staged before the mend window's end have committed, the range is final, the least
  survivor count is posted and recovery or tearing follows. -/
  | rangeFinal (p : Fin 16) (tag : Nat) (i : Nat)
  /-- SUPPLY_SEEDS (R111): Command that authenticates and checks seed records and holds each new secret for recovery. -/
  | supplySeeds (ch : Fin 17) (c : Cmd)
  /-- SUPPLY_SHARES (R111): Command that authenticates share bundles and has the seed units reconstruct and check each
  secret. -/
  | supplyShares (ch : Fin 17) (c : Cmd)
  /-- SEED_UNIT_JOB_DONE (R114): A seed unit finishes a reconstruction or X25519 agreement after its fixed cycles and
  the result is held. -/
  | seedUnitJobDone (p : Fin 16)
  /-- RECOVER_START (R105): Command that starts recovery for a round and takes ownership of its seed and public-key
  tables. -/
  | recoverStart (ch : Fin 17) (c : Cmd)
  /-- RECOVER_NEEDS (R118): Command that lists the needed secrets that are neither held nor derivable. -/
  | recoverNeeds (ch : Fin 17) (c : Cmd)
  /-- RECOVERY_DEADLINE (R120): Expiry of a range's recovery deadline; the round is torn if material is still missing.
  -/
  | recoveryDeadline (p : Fin 16) (tag : Nat) (i : Nat)
  /-- RELEASE_AGGREGATE (R63): Command that makes a READY round's accumulators ordinary memory, queues egress and ends
  the round as RELEASED. -/
  | releaseAggregate (ch : Fin 17) (c : Cmd)
  /-- ROUND_STATUS_SUMMARY (R68): Command that returns the round's summary counts. -/
  | roundStatusSummary (ch : Fin 17) (c : Cmd)
  /-- ROUND_STATUS_CLIENT (R67): Command that returns one client's ledger entry. -/
  | roundStatusClient (ch : Fin 17) (c : Cmd)
  /-- ROUND_STATUS_TORN_LIST (R67): Command that lists TORN clients from a cursor. -/
  | roundStatusTornList (ch : Fin 17) (c : Cmd)
  /-- ROUND_STATUS_ABSENT_LIST (R67): Command that lists ABSENT clients from a cursor. -/
  | roundStatusAbsentList (ch : Fin 17) (c : Cmd)
  /-- ABORT_ROUND (R65): Command that makes the round's windows dead at an abort close point and ends the round as
  ABORTED. -/
  | abortRound (ch : Fin 17) (c : Cmd)
  /-- ROUND_END_DRAIN_DONE (R97): Once every chunk past its ledger stage has committed or been discarded, the ending
  round's accumulators are released or zeroed and the seed table zeroed. -/
  | roundEndDrainDone (p : Fin 16) (tag : Nat)
  /-- KEY_GENERATE (R316): Command that generates a tenant key with a policy in a pannier slot and returns its public
  part. -/
  | keyGenerate (ch : Fin 17) (c : Cmd)
  /-- KEY_ATTEST_KEY (R325): Command that returns a signed KEY statement for a slot. -/
  | keyAttestKey (ch : Fin 17) (c : Cmd)
  /-- KEY_ATTEST_LOG (R325): Command that returns a signed LOG statement and attestation log records. -/
  | keyAttestLog (ch : Fin 17) (c : Cmd)
  /-- KEY_ROTATE_MEMORY (R330): Command that draws a new memory key and flips the partition's epoch to start a sweep. -/
  | keyRotateMemory (ch : Fin 17) (c : Cmd)
  /-- EPOCH_FLIP (R330): At the next stack-frame start the partition's epoch flips on all its stacks and KEY_ROTATE is
  answered. -/
  | epochFlip (p : Fin 16)
  /-- KEY_ROTATE_TENANT_KEY (R330): Command that replaces a tenant key in its slot with a new key of the same kind and
  policy. -/
  | keyRotateTenantKey (ch : Fin 17) (c : Cmd)
  /-- KEY_ROTATE_LINK_SAK (R330): Command that makes a link's MKA key server distribute a new SAK. -/
  | keyRotateLinkSak (ch : Fin 17) (c : Cmd)
  /-- KEY_ROTATE_LINK_BINIGAL (R330): Command that re-keys a Binigal link. -/
  | keyRotateLinkBinigal (ch : Fin 17) (c : Cmd)
  /-- KEY_DESTROY_SLOT (R317): Command that zeroes one tenant key slot after any use under way completes. -/
  | keyDestroySlot (ch : Fin 17) (c : Cmd)
  /-- KEY_DESTROY_ZEROISE (R317): Command that destroys every partition, zeroes the pannier and re-derives the identity
  and binding keys. -/
  | keyDestroyZeroise (ch : Fin 17) (c : Cmd)
  /-- BIND_WEIGHTS (R335): Command that encrypts weights into a bundle openable only by the listed member modules. -/
  | bindWeights (ch : Fin 17) (c : Cmd)
  /-- UNWRAP_WEIGHTS (R336): Command that unwraps a weights bundle with the binding key and writes the plaintext weights
  to partition DRAM. -/
  | unwrapWeights (ch : Fin 17) (c : Cmd)
  /-- SET_REMASK (R313): Command that sets a key slot's re-masking period. -/
  | setRemask (ch : Fin 17) (c : Cmd)
  /-- REMASK_PERIOD (R313): Expiry of a slot's re-masking period; the key shares are re-masked with a fresh value. -/
  | remaskPeriod (slot : Nat)
  /-- LOAD_PROGRAM_LOAD (R155): Command that authenticates and checks a program image and keeps its decrypted copy
  resident. -/
  | loadProgramLoad (ch : Fin 17) (c : Cmd)
  /-- LOAD_PROGRAM_UNLOAD (R157): Command that zeroes and removes a resident program. -/
  | loadProgramUnload (ch : Fin 17) (c : Cmd)
  /-- RUN_TASK (R159): Command that queues a task of a resident program with its arguments. -/
  | runTask (ch : Fin 17) (c : Cmd)
  /-- TASK_STATUS (R163): Command that returns a task's state, cycles, energy and fault. -/
  | taskStatus (ch : Fin 17) (c : Cmd)
  /-- CANCEL_TASK (R164): Command that removes a queued task or marks a running task to stop. -/
  | cancelTask (ch : Fin 17) (c : Cmd)
  /-- TASK_CANCEL_STOP (R164): A cancelled running task stops at the next program-frame start and the task boundary
  follows. -/
  | taskCancelStop (p : Fin 16)
  /-- TASK_DISPATCH (R455): The governor dispatches the first eligible cassette task, choosing its P-state and preparing
  the cores. -/
  | taskDispatch (p : Fin 16)
  /-- TASK_END (R162): The last core's ctl.end and its last outstanding move complete and the task ends. -/
  | taskEnd (p : Fin 16)
  /-- TASK_FAULT_STOP (R167): A faulting task's cores stop at the next device tick and the task ends with its fault
  status. -/
  | taskFaultStop (p : Fin 16)
  /-- TASK_CYCLE_LIMIT (R166): The task reaches MAX_CYCLES and ends with fault LIMIT. -/
  | taskCycleLimit (p : Fin 16)
  /-- SITE_DEFECT_DETECTED (R29): A defect appears in a cluster site, ending its task with DEVICE_FAULT and marking the
  site for retirement. -/
  | siteDefectDetected (site : Fin 36)
  /-- CTL_END (R129): Instruction that ends the core's part in the task with a CODE. -/
  | ctlEnd (c : Fin 32) (k : Fin 8)
  /-- CTL_LI (R129): Instruction that loads a shifted immediate into a scalar register. -/
  | ctlLi (c : Fin 32) (k : Fin 8)
  /-- CTL_ADD (R129): Instruction that adds two scalar registers modulo 2^64. -/
  | ctlAdd (c : Fin 32) (k : Fin 8)
  /-- CTL_SUB (R129): Instruction that subtracts two scalar registers modulo 2^64. -/
  | ctlSub (c : Fin 32) (k : Fin 8)
  /-- CTL_ADDI (R129): Instruction that adds a signed immediate to a scalar register. -/
  | ctlAddi (c : Fin 32) (k : Fin 8)
  /-- CTL_SHL (R129): Instruction that shifts a scalar register left. -/
  | ctlShl (c : Fin 32) (k : Fin 8)
  /-- CTL_SETL (R129): Instruction that sets a loop counter from an immediate or register. -/
  | ctlSetl (c : Fin 32) (k : Fin 8)
  /-- CTL_LOOP (R130): Instruction that decrements a loop counter and branches while it is non-zero. -/
  | ctlLoop (c : Fin 32) (k : Fin 8)
  /-- CTL_IDLE (R129): Instruction that delays the next bundle by N cycles. -/
  | ctlIdle (c : Fin 32) (k : Fin 8)
  /-- CTL_MODE (R15): Instruction that switches the ring engine between ring and tensor mode at a 16-cycle cost. -/
  | ctlMode (c : Fin 32) (k : Fin 8)
  /-- MV_LD (R142): Instruction that moves a run of DRAM pages into the local store in a scheduled slot. -/
  | mvLd (c : Fin 32) (k : Fin 8)
  /-- MV_ST (R142): Instruction that moves local-store data to a run of DRAM pages in a scheduled slot. -/
  | mvSt (c : Fin 32) (k : Fin 8)
  /-- MV_LDSH (R142): Instruction that moves DRAM pages into the shared store. -/
  | mvLdsh (c : Fin 32) (k : Fin 8)
  /-- MV_STSH (R142): Instruction that moves shared-store data to DRAM pages. -/
  | mvStsh (c : Fin 32) (k : Fin 8)
  /-- MV_LSH (R132): Instruction that copies shared-store bytes to the local store. -/
  | mvLsh (c : Fin 32) (k : Fin 8)
  /-- MV_SSH (R132): Instruction that copies local-store bytes to the shared store. -/
  | mvSsh (c : Fin 32) (k : Fin 8)
  /-- MOVE_COMPLETE (R142): A DRAM move completes at its landing tick and, with SIG set, signals its counter. -/
  | moveComplete (c : Fin 32) (k : Fin 8)
  /-- RING_NTT (R177): Instruction that writes the forward negacyclic NTT of a limb. -/
  | ringNtt (c : Fin 32) (k : Fin 8)
  /-- RING_INTT (R177): Instruction that writes the inverse NTT of a limb. -/
  | ringIntt (c : Fin 32) (k : Fin 8)
  /-- RING_ADD (R176): Instruction that adds two limbs modulo the slot prime. -/
  | ringAdd (c : Fin 32) (k : Fin 8)
  /-- RING_SUB (R176): Instruction that subtracts two limbs modulo the slot prime. -/
  | ringSub (c : Fin 32) (k : Fin 8)
  /-- RING_MUL (R176): Instruction that multiplies two limbs pointwise modulo the slot prime. -/
  | ringMul (c : Fin 32) (k : Fin 8)
  /-- RING_MAC (R176): Instruction that accumulates a pointwise product into the destination limb. -/
  | ringMac (c : Fin 32) (k : Fin 8)
  /-- RING_MULC (R176): Instruction that multiplies a limb by a scalar modulo the slot prime. -/
  | ringMulc (c : Fin 32) (k : Fin 8)
  /-- RING_BCE (R176): Instruction that adds fixed-point base-conversion estimates into 64-bit words. -/
  | ringBce (c : Fin 32) (k : Fin 8)
  /-- RING_AUTO (R178): Instruction that permutes a limb by a Galois element. -/
  | ringAuto (c : Fin 32) (k : Fin 8)
  /-- RING_LDB (R172): Instruction that checks and loads basis entries into slots and writes status words. -/
  | ringLdb (c : Fin 32) (k : Fin 8)
  /-- RING_KCHK (R176): Instruction that compares two 32-byte strings and writes 1 or 0. -/
  | ringKchk (c : Fin 32) (k : Fin 8)
  /-- TN_CFG (R247): Instruction that loads and validates a tensor configuration block. -/
  | tnCfg (c : Fin 32) (k : Fin 8)
  /-- TN_MMA (R250): Instruction that performs REP tensor product steps into the accumulators. -/
  | tnMma (c : Fin 32) (k : Fin 8)
  /-- TN_MMAC (R253): Instruction that performs compensated product steps at half rate. -/
  | tnMmac (c : Fin 32) (k : Fin 8)
  /-- TN_PRE (R254): Instruction that preloads or adds a tile or bias vector into the accumulators. -/
  | tnPre (c : Fin 32) (k : Fin 8)
  /-- TN_ZERO (R243): Instruction that zeroes every accumulator and the step pointer. -/
  | tnZero (c : Fin 32) (k : Fin 8)
  /-- TN_DRAIN (R256): Instruction that sums, scales, activates and converts the accumulators into outputs. -/
  | tnDrain (c : Fin 32) (k : Fin 8)
  /-- FOLD_ADD (R136): Instruction that adds a local-store range into a destination in exact modular arithmetic. -/
  | foldAdd (c : Fin 32) (k : Fin 8)
  /-- FOLD_SUB (R136): Instruction that subtracts a local-store range from a destination in exact modular arithmetic. -/
  | foldSub (c : Fin 32) (k : Fin 8)
  /-- KS_KEY (R137): Instruction that expands a seed into the keystream engine's key. -/
  | ksKey (c : Fin 32) (k : Fin 8)
  /-- KS_GEN (R137): Instruction that generates keystream at a byte position. -/
  | ksGen (c : Fin 32) (k : Fin 8)
  /-- DR_JOB (R138): Instruction that queues a derailleur job named by a descriptor. -/
  | drJob (c : Fin 32) (k : Fin 8)
  /-- DR_JOB_LOOKUP (R229): A LOOKUP job runs its fixed frames and adds table results into a LEVEL 0 destination,
  writing its outcome. -/
  | drJobLookup (c : Fin 32)
  /-- DR_JOB_BLIND (R236): A BLIND job masks a ciphertext, writes the sealed message and arms a refresh ticket, then
  sending starts. -/
  | drJobBlind (c : Fin 32)
  /-- DR_JOB_UNBLIND (R239): An UNBLIND job opens the committee's return, removes the mask and frees the ticket. -/
  | drJobUnblind (c : Fin 32)
  /-- REFRESH_FLUSH_COMPLETE (R237): The FLUSH of a refresh message completes; the ticket becomes WAITING and SENT_CTR
  rises. -/
  | refreshFlushComplete (p : Fin 16) (i : Nat)
  /-- REFRESH_TICKET_EXPIRY (R240): A ticket's deadline passes; its seed is zeroed and it becomes FREE. -/
  | refreshTicketExpiry (c : Fin 32) (t : Fin 128)
  /-- SYN_ADDI (R269): Instruction that adds an immediate amount to a counter of the core's cluster. -/
  | synAddi (c : Fin 32) (k : Fin 8)
  /-- SYN_ADD (R269): Instruction that adds a register amount to a counter of a partition cluster. -/
  | synAdd (c : Fin 32) (k : Fin 8)
  /-- SYN_WAIT (R272): Instruction that suspends the core until a counter's view reaches a value. -/
  | synWait (c : Fin 32) (k : Fin 8)
  /-- WAIT_RELEASE (R270): Signals make a counter's view reach a waiter's value and the waiter is released. -/
  | waitRelease (c : Fin 32) (k : Fin 8)
  /-- SYN_FENCE (R274): Instruction that holds the next bundle until the core's earlier writes complete. -/
  | synFence (c : Fin 32) (k : Fin 8)
  /-- SYN_BAR (R279): Instruction that enters the partition's peloton barrier. -/
  | synBar (c : Fin 32) (k : Fin 8)
  /-- BARRIER_COMPLETE (R280): A barrier round completes, releasing participants and rebasing every task counter. -/
  | barrierComplete (p : Fin 16)
  /-- SYNC_INSPECT_READ (R288): Command that returns one counter's value, base, last signaller and waiters. -/
  | syncInspectRead (ch : Fin 17) (c : Cmd)
  /-- SYNC_INSPECT_SCAN (R288): Command that returns the values of a range of counters taken at one tick. -/
  | syncInspectScan (ch : Fin 17) (c : Cmd)
  /-- SYNC_INSPECT_MIRROR_ON (R290): Command that exposes the partition's counters in the host mirror. -/
  | syncInspectMirrorOn (ch : Fin 17) (c : Cmd)
  /-- SYNC_INSPECT_MIRROR_OFF (R290): Command that hides the partition's counters from the host mirror. -/
  | syncInspectMirrorOff (ch : Fin 17) (c : Cmd)
  /-- MIRROR_SIGNAL (R291): Host write that adds an amount to a counter of a mirror-enabled partition. -/
  | mirrorSignal (w : W64)
  /-- TRACE_READ (R439): Command that returns trace records under a debug scope. -/
  | traceRead (ch : Fin 17) (c : Cmd)
  /-- PORT_CONFIG_SET_LINK (R361): Command that sets a link's mode, addresses, VLAN, PFC and MACsec and retrains it. -/
  | portConfigSetLink (ch : Fin 17) (c : Cmd)
  /-- PORT_CONFIG_SET_CAK (R361): Command that installs a MACsec CAK and restarts MKA on a link. -/
  | portConfigSetCak (ch : Fin 17) (c : Cmd)
  /-- PORT_CONFIG_STATUS (R363): Command that returns a link's mode, state and frame counts. -/
  | portConfigStatus (ch : Fin 17) (c : Cmd)
  /-- PORT_CONFIG_SET_CC (R386): Command that sets the partition's congestion-control parameters. -/
  | portConfigSetCc (ch : Fin 17) (c : Cmd)
  /-- CREATE_QP_STORE (R371): Command that sets the partition's queue-pair context backing store. -/
  | createQpStore (ch : Fin 17) (c : Cmd)
  /-- CREATE_QP_CREATE (R371): Command that creates a queue pair in INIT on a link. -/
  | createQpCreate (ch : Fin 17) (c : Cmd)
  /-- MODIFY_QP_STATE (R372): Command that moves a queue pair to a new state. -/
  | modifyQpState (ch : Fin 17) (c : Cmd)
  /-- MODIFY_QP_POST_EGRESS (R372): Command that queues an egress descriptor on a queue pair. -/
  | modifyQpPostEgress (ch : Fin 17) (c : Cmd)
  /-- DESTROY_QP (R372): Command that moves a queue pair to ERROR and frees it. -/
  | destroyQp (ch : Fin 17) (c : Cmd)
  /-- REGISTER_REGION (R375): Command that registers an ordinary or counter-mapped region and returns its rkey. -/
  | registerRegion (ch : Fin 17) (c : Cmd)
  /-- REVOKE_REGION (R379): Command that starts revoking a region. -/
  | revokeRegion (ch : Fin 17) (c : Cmd)
  /-- REVOCATION_DRAINED (R380): Every message accepted before revocation is placed or abandoned; the registration ends.
  -/
  | revocationDrained (p : Fin 16) (i : Nat)
  /-- REVOCATION_TIMEOUT (R380): 100 ms after revocation starts, messages still in flight are abandoned. -/
  | revocationTimeout (p : Fin 16) (i : Nat)
  /-- CREATE_FOLD_WINDOW (R72): Command that creates a fold window and its registration and returns the rkey. -/
  | createFoldWindow (ch : Fin 17) (c : Cmd)
  /-- DESTROY_FOLD_WINDOW (R75): Command that ends an idle fold window's registration. -/
  | destroyFoldWindow (ch : Fin 17) (c : Cmd)
  /-- FRAME_RECEIVED (R366): A network frame is checked through MAC, MACsec, IP, queue pair, ICRC, PSN and opcode and
  passed on or answered. -/
  | frameReceived (l : Fin 24) (f : Frame)
  /-- LEDGER_STAGE (R52): A queued chunk is checked against its ledger entry for shut, closed and mend conditions. -/
  | ledgerStage (p : Fin 16)
  /-- BITMAP_STAGE (R88): A chunk's bitmap line is read in a fold slot; a duplicate ends here, otherwise its bit is set.
  -/
  | bitmapStage (p : Fin 16) (i : Nat)
  /-- FOLD_STAGE (R77): A chunk is added into its accumulator chunk in exact modular arithmetic and written back. -/
  | foldStage (p : Fin 16) (i : Nat)
  /-- COMMIT (R86): A chunk's ledger entry and counts are updated, and for a WRITE with Immediate its arrival record is
  written and the arrival counter signalled. -/
  | commit (p : Fin 16) (i : Nat)
  /-- REGION_PLACEMENT (R376): A queued region packet is written into DRAM through fold slots, with a counter signal for
  an immediate. -/
  | regionPlacement (p : Fin 16)
  /-- CONTEXT_FETCH_DONE (R373): A queue-pair context fetch from the backing store completes and its waiting packet or
  send proceeds. -/
  | contextFetchDone (p : Fin 16) (i : Nat)
  /-- EGRESS_SEND_START (R384): A queue pair checks its next egress descriptor and sends the sealed message as WRITEs
  followed by a FLUSH. -/
  | egressSendStart (p : Fin 16) (i : Nat)
  /-- QP_ACK_TIMEOUT (R371): A queue pair's local ACK timeout expires and it retransmits or, with retries exhausted,
  enters ERROR. -/
  | qpAckTimeout (p : Fin 16) (i : Nat)
  /-- ALPHA_TIMER (R385): Expiry of the congestion alpha timer without a CNP decays alpha. -/
  | alphaTimer (p : Fin 16) (i : Nat)
  /-- RATE_TIMER (R385): Expiry of the congestion rate timer advances the recovery stage and raises the rate. -/
  | rateTimer (p : Fin 16) (i : Nat)
  /-- LINK_SIGNAL_LOSS (R362): A link loses its partner's signal, leaves UP for TRAINING and errors its queue pairs. -/
  | linkSignalLoss (l : Fin 24)
  /-- LINK_SIGNAL_DETECT (R362): A partner's signal appears and the link starts training. -/
  | linkSignalDetect (l : Fin 24)
  /-- LINK_TRAINING_COMPLETE (R362): Training completes and the link enters UP or SECURING. -/
  | linkTrainingComplete (l : Fin 24) (lane : Option (Fin 2))
  /-- LINK_TRAINING_TIMEOUT (R362): Training does not complete within 50 ms and the link enters FAILED. -/
  | linkTrainingTimeout (l : Fin 24)
  /-- MKA_PEER_LOST (R364): MKA loses its peer or meets a CAK mismatch; the SAKs are deleted and the link goes to
  SECURING. -/
  | mkaPeerLost (l : Fin 24) (mismatch : Bool)
  /-- SAK_PN_EXHAUSTED (R332): The current SAK's packet number reaches 2^62 and the next SAK is installed. -/
  | sakPnExhausted (l : Fin 24)
  /-- DATA (R399): Binigal frame carrying port data that is written into the destination partition, signalling ARRIVE
  after a block. -/
  | data (l : Fin 24) (f : BFrame)
  /-- SIGNAL (R283): Binigal frame that adds an amount to a counter of the bound partition or is refused. -/
  | signal (l : Fin 24) (f : BFrame)
  /-- BAR_ENTER (R401): Binigal frame by which a member enters a tandem barrier round; the root compares digests when
  all have entered. -/
  | barEnter (l : Fin 24) (f : BFrame)
  /-- BAR_RELEASE (R401): Binigal frame carrying the root's release time for a barrier round. -/
  | barRelease (l : Fin 24) (f : BFrame)
  /-- TANDEM_RELEASE_TIME (R401): Group time reaches T_rel; the member completes the round and restarts its tick
  dividers. -/
  | tandemReleaseTime (bid : Fin 16)
  /-- BAR_FAIL (R402): Binigal frame failing a round; the member stops its task with CONFIG_SKEW and marks the binding
  SKEWED. -/
  | barFail (l : Fin 24) (f : BFrame)
  /-- CALIBRATE (R400): Binigal frame used to measure a link's delay and align group time. -/
  | calibrate (l : Fin 24) (f : BFrame)
  /-- CALIBRATION_TIMER (R400): Each second, the ends of every UP Binigal link exchange CALIBRATE frames. -/
  | calibrationTimer
  /-- ACK (R396): Binigal frame acknowledging frames up to a sequence number. -/
  | ack (l : Fin 24) (f : BFrame)
  /-- NAK (R396): Binigal frame asking the sender to resend from a sequence number. -/
  | nak (l : Fin 24) (f : BFrame)
  /-- BINIGAL_RESEND_TIMEOUT (R396): 20 µs without an ACK makes the sender resend from the oldest unacknowledged frame.
  -/
  | binigalResendTimeout (l : Fin 24)
  /-- REFUSE (R283): Binigal frame reporting that a SIGNAL or DATA frame was refused. -/
  | refuse (l : Fin 24) (f : BFrame)
  /-- COUNTER_READ (R394): Binigal frame requesting a counter word of the bound partition. -/
  | counterRead (l : Fin 24) (f : BFrame)
  /-- COUNTER_VALUE (R394): Binigal frame returning a counter word. -/
  | counterValue (l : Fin 24) (f : BFrame)
  /-- HANDSHAKE (R333): Binigal keying frame exchanging signed ephemeral keys and deriving link keys. -/
  | handshake (l : Fin 24) (f : BFrame)
  /-- DIGEST (R402): Binigal frame carrying a member's configuration digest, re-evaluating the binding state. -/
  | digest (l : Fin 24) (f : BFrame)
  /-- BINIGAL_TXC_EXHAUSTED (R395): A link's transmit count reaches 2^40 and the link re-keys. -/
  | binigalTxcExhausted (l : Fin 24)
  /-- PORT_BLOCK_SEND (R399): A port's trigger counter exceeds blocks sent, and the next block is read and sent as DATA
  frames. -/
  | portBlockSend (bid : Fin 16) (port : Fin 32)
  /-- BARRIER_HELD_LONG (R405): A tandem barrier held over 1 ms makes the root read participants' counters and log who
  has not entered. -/
  | barrierHeldLong (bid : Fin 16)
  /-- SET_BUDGET_MODULE (R437): Command that sets the module power budget, effective at the end of the cadence period.
  -/
  | setBudgetModule (ch : Fin 17) (c : Cmd)
  /-- SET_BUDGET_PARTITION (R437): Command that sets a partition's energy share, effective at the end of the cadence
  period. -/
  | setBudgetPartition (ch : Fin 17) (c : Cmd)
  /-- SET_BUDGET_PSTATE (R457): Command that sets the partition's requested P-state. -/
  | setBudgetPstate (ch : Fin 17) (c : Cmd)
  /-- GET_ENERGY (R437): Command that returns energy charged, balance, share and P-states. -/
  | getEnergy (ch : Fin 17) (c : Cmd)
  /-- CADENCE_PERIOD_END (R451): Every 100 µs the accounts are charged and refilled, pending budget changes apply and
  waiting dispatches are re-examined. -/
  | cadencePeriodEnd
  /-- SENSOR_SAMPLE (R460): Temperature sensors are sampled and the emergency throttle begins or ends. -/
  | sensorSample (logic : List Nat) (stack : List Nat) (e : BootEvents)
  /-- THERMAL_TRIP (R461): A sensor reaches 110 °C; clocks stop, rails turn off and the trip is logged. -/
  | thermalTrip (stack : Bool) (site : Fin 36) (reading : Nat)
  /-- SUPPLY_SAMPLE (R462): The 12 V input is sampled; the hold begins or ends, or a cold reset occurs. -/
  | supplySample (mv : Nat) (e : BootEvents)
  /-- HOLD_TIMEOUT (R462): The hold lasts 20 ms without recovery; BROWNOUT_RESET is logged and the part cold-resets. -/
  | holdTimeout (e : BootEvents)
  /-- RESIDUAL_EVENT_DELAY_END (R357): At the end of a one-second delay, a deferred throttle or hold begin is posted if
  the condition still holds. -/
  | residualEventDelayEnd (hold : Bool)
  /-- RNG_BLOCK_TESTED (R294): A source completes a 4,096-bit block that is health-tested and released or discarded,
  with restart, retirement or replacement on failure. -/
  | rngBlockTested (b : Fin 18) (i : Bool) (raw : List Bool)
  /-- RNG_SOURCE_SETTLED (R300): A restarted source finishes its 64 µs settling and begins its startup test. -/
  | rngSourceSettled (b : Fin 18) (i : Bool)
  /-- RNG_WORD_DELIVERY (R296): Every 128 cycles a bank delivers one word to the device pool or the owner's DRBGs. -/
  | rngWordDelivery (b : Fin 18)
  /-- RNG_DATA_READ (R297): Read of RNG_DATA that returns and removes the oldest buffered word. -/
  | rngDataRead (b : Fin 18)
  /-- RNG_STATUS_READ (R298): Read of RNG_STATUS that clears its EMPTY bit. -/
  | rngStatusRead (b : Fin 18)
  /-- ENTROPY_WAIT_TIMEOUT (R301): A command held for entropy reaches 50 ms and fails with RNG_NOT_READY. -/
  | entropyWaitTimeout (ch : Fin 17)
  /-- MEMORY_SWEEP_SLOT (R331): In a spare slot the sweep re-encrypts up to 4 old-epoch pages of a stack. -/
  | memorySweepSlot (p : Fin 16) (rank : Nat)
  /-- MEMORY_SWEEP_DONE (R331): At the frame start after no old-epoch page remains, the old memory key is zeroed. -/
  | memorySweepDone (p : Fin 16)
  /-- DEBUG_UNLOCK_CHALLENGE (R340): Command that returns a fresh debug nonce and DEVICE_FP. -/
  | debugUnlockChallenge (ch : Fin 17) (c : Cmd)
  /-- DEBUG_UNLOCK_RESPONSE (R340): Command that checks the debug authority's signature and unlocks the device scope. -/
  | debugUnlockResponse (ch : Fin 17) (c : Cmd)
  /-- DEBUG_UNLOCK_PARTITION_ON (R340): Command that opens the partition debug scope. -/
  | debugUnlockPartitionOn (ch : Fin 17) (c : Cmd)
  /-- DEBUG_UNLOCK_PARTITION_OFF (R340): Command that closes the partition debug scope. -/
  | debugUnlockPartitionOff (ch : Fin 17) (c : Cmd)
  /-- DEBUG_NONCE_EXPIRY (R340): A debug nonce becomes invalid 60 s after issue. -/
  | debugNonceExpiry
  /-- CONFIG_WRITE (R481): Command chain that writes and signs a new configuration record in the inactive slot and
  activates it. -/
  | configWrite (ch : Fin 17) (c : Cmd)
  /-- CONFIG_DIGEST (R438): Command that returns the active record's sequence number and digest. -/
  | configDigest (ch : Fin 17) (c : Cmd)
  /-- FW_STAGE (R484): Command chain that writes a firmware image into the slot not running and checks it. -/
  | fwStage (ch : Fin 17) (c : Cmd)
  /-- FW_COMMIT (R485): Command that commits a firmware slot, raises the anti-rollback counter and blows revoke fuses.
  -/
  | fwCommit (ch : Fin 17) (c : Cmd)
  /-- LOG_READ (R497): Command that returns present kickstand log records from a cursor. -/
  | logRead (ch : Fin 17) (c : Cmd)
  /-- LIFETIME_READ (R496): Command that returns a lifetime section. -/
  | lifetimeRead (ch : Fin 17) (c : Cmd)
  /-- COUNTER_STORE_WRITE (R487): Every 60 s the lifetime counter store is written to NVM. -/
  | counterStoreWrite
  /-- LIFETIME_SECOND (R495): The lifetime seconds counter advances by one while 12 V is valid. -/
  | lifetimeSecond
  /-- MBX_CMD_DATA_WRITE (R418): Host write of a command word that takes a credit, is lost, or completes a whole
  command. -/
  | mbxCmdDataWrite (ch : Fin 17) (width : Nat) (w : W64)
  /-- FLUSH (R419): Write of MBX_STATUS.FLUSH that discards the partial command and clears CMD_LOST. -/
  | flush (ch : Fin 17)
  /-- MBX_RPL_DATA_READ (R415): Read that returns and removes the oldest reply word. -/
  | mbxRplDataRead (ch : Fin 17) (width : Nat)
  /-- MBX_EVT_DATA_READ (R415): Read that returns and removes the oldest event word. -/
  | mbxEvtDataRead (ch : Fin 17) (width : Nat)
  /-- MBX_RPL_STATUS_READ (R415): Read of MBX_RPL_STATUS that clears its EMPTY bit. -/
  | mbxRplStatusRead (ch : Fin 17) (width : Nat)
  /-- MBX_EVT_STATUS_READ (R415): Read of MBX_EVT_STATUS that clears DROPPED and EMPTY. -/
  | mbxEvtStatusRead (ch : Fin 17) (width : Nat)
  /-- MBX_IRQ_MASK_WRITE (R416): Write of the interrupt mask that may send a pending MSI-X message. -/
  | mbxIrqMaskWrite (ch : Fin 17) (width : Nat) (w : W64)
  /-- MBX_IRQ_CAUSE_WRITE (R416): Write-1-to-clear of interrupt cause bits. -/
  | mbxIrqCauseWrite (ch : Fin 17) (width : Nat) (w : W64)
  /-- REGISTER_WRITE (R5): Write to a register with no row of its own, applied by its access type. -/
  | registerWrite (ch : Fin 17) (sp : RegSpace) (off : Nat) (width : Nat) (w : W64)
  /-- SERVICE_TURN (R518): A service core's 8 µs turn for a channel begins and waiting or held commands are taken or
  resumed. -/
  | serviceTurn (ch : Fin 17)
  /-- RTP_TURN (R344): The RTP's 10 µs turn for a channel or housekeeping begins and its key operations proceed. -/
  | rtpTurn (turn : Fin 18)
  /-- PENDING_REPLY_APPENDED (R420): A finished reply waiting for room is appended once the reply buffer has space. -/
  | pendingReplyAppended (ch : Fin 17)
  /-- ASYNC_COMMAND_FINISH (R431): An ASYNC command finishes and its final reply is appended. -/
  | asyncCommandFinish (ch : Fin 17)
  /-- FUNCTION_LEVEL_RESET (R409): A PCIe function-level reset discards the channel's pending commands, replies and
  events. -/
  | functionLevelReset (ch : Fin 17)
  /-- PERST_ASSERT (R467): PERST# asserted after power-up resets only the PCIe endpoint and acts on every channel as an
  FLR. -/
  | perstAssert
  /-- POWER_UP (R466): 12 V becomes valid and the power-up timeline runs to a ready mailbox. -/
  | powerUp (e : BootEvents)
  /-- BOOT_TIMEOUT (R471): A boot fails to reach STEP 6 within 1.5 s and restarts, switching slot after three timeouts.
  -/
  | bootTimeout (e : BootEvents)
  /-- RESET_N_ASSERT (R510): RESET_N held low for 1 µs causes a cold reset and holds the part at step 2. -/
  | resetNAssert (width : Nat)
  /-- RESET_N_RELEASE (R474): Release of RESET_N starts the power-up timeline from step 2. -/
  | resetNRelease (e : BootEvents)
  /-- POWER_LOSS (R501): The 12 V feed is removed and every state except the NVM is lost. -/
  | powerLoss
  /-- SPDM_GET_VERSION (R320): SPDM request answered with version 1.3. -/
  | spdmGetVersion (ep : Fin 18) (req : List Byte)
  /-- SPDM_GET_CAPABILITIES (R320): SPDM request answered with the supported capabilities. -/
  | spdmGetCapabilities (ep : Fin 18) (req : List Byte)
  /-- SPDM_NEGOTIATE_ALGORITHMS (R320): SPDM request that selects P-384 and SHA-384. -/
  | spdmNegotiateAlgorithms (ep : Fin 18) (req : List Byte)
  /-- SPDM_GET_DIGESTS (R320): SPDM request answered with the certificate chain digest of slot 0. -/
  | spdmGetDigests (ep : Fin 18) (req : List Byte)
  /-- SPDM_GET_CERTIFICATE (R319): SPDM request that returns part of the certificate chain. -/
  | spdmGetCertificate (ep : Fin 18) (req : List Byte)
  /-- SPDM_CHALLENGE (R320): SPDM request answered with a signed challenge response. -/
  | spdmChallenge (ep : Fin 18) (req : List Byte)
  /-- SPDM_GET_MEASUREMENTS (R321): SPDM request answered with freshly taken signed measurements. -/
  | spdmGetMeasurements (ep : Fin 18) (req : List Byte)
  /-- SPDM_UNSUPPORTED_REQUEST (R320): Any other SPDM request answered with ERROR UnsupportedRequest. -/
  | spdmUnsupportedRequest (ep : Fin 18) (code : Nat)
  /-- MCTP_LOG_READ (R498): Management-port request that serves LOG_READ over MCTP. -/
  | mctpLogRead (payload : List W64)
  /-- MCTP_LIFETIME_READ (R498): Management-port request that serves LIFETIME_READ over MCTP. -/
  | mctpLifetimeRead (payload : List W64)
  /-- ENTDAA (R508): I3C common command assigning a dynamic address. -/
  | entdaa (addr : Nat)
  /-- SETDASA (R508): I3C common command setting the dynamic address from the static one. -/
  | setdasa (static : Nat) (addr : Nat)
  /-- RSTDAA (R508): I3C common command resetting the dynamic address. -/
  | rstdaa
  /-- GETPID (R508): I3C common command returning the provisioned ID. -/
  | getpid (addr : Nat)
  /-- GETBCR (R508): I3C common command returning the bus characteristics register. -/
  | getbcr (addr : Nat)
  /-- GETDCR (R508): I3C common command returning the device characteristics register. -/
  | getdcr (addr : Nat)
  /-- GETSTATUS (R508): I3C common command returning target status. -/
  | getstatus (addr : Nat)
  /-- GETMWL (R508): I3C common command returning the maximum write length. -/
  | getmwl (addr : Nat)
  /-- GETMRL (R508): I3C common command returning the maximum read length. -/
  | getmrl (addr : Nat)
  /-- ENEC (R508): I3C common command enabling target events. -/
  | enec (addr : Nat) (mask : Nat)
  /-- DISEC (R508): I3C common command disabling target events. -/
  | disec (addr : Nat) (mask : Nat)
  /-- BYPASS (R512): JTAG instruction selecting the bypass register. -/
  | bypass (tdi : List Bool)
  /-- IDCODE (R512): JTAG instruction returning the IDCODE 0x1903_286B. -/
  | idcode (tdi : List Bool)
  /-- EXTEST_PULSE (R512): IEEE 1149.6 boundary-scan instruction on AC-coupled pins, available after the device unlock.
  -/
  | extestPulse (pins : List Bool) (tdi : List Bool)
  /-- EXTEST_TRAIN (R512): IEEE 1149.6 boundary-scan instruction on AC-coupled pins, available after the device unlock.
  -/
  | extestTrain (pins : List Bool) (tdi : List Bool)
  /-- PERST_RELEASE (R467): Release of PERST# after which configuration space answers within 100 ms. -/
  | perstRelease
  /-- BUS_MASTER_ENABLE_SET (R467): Setting Bus Master Enable sends the MSI-X messages withheld while it was clear. -/
  | busMasterEnableSet (ch : Fin 17)
  /-- NUMVFS_WRITE (R407): A write of NumVFs makes VF channels appear or disappear, changing whether partitions can
  receive commands and events. -/
  | numvfsWrite (n : Nat)
  /-- REFCLK_LOSS (R507): Loss of a common reference clock takes the PCIe link down until it retrains under SRIS at the
  next cold reset. -/
  | refclkLoss
  /-- RAIL_OUT_OF_RANGE (R510): An internal rail leaves its range and PWR_GOOD goes low within 10 µs. -/
  | railOutOfRange
  /-- FIRMWARE_FATAL_ERROR (R414): The firmware stops the device after an unrecoverable internal error, setting every
  channel to FATAL and logging FATAL. -/
  | firmwareFatalError (code : Nat)
  /-- BINIGAL_TAG_FAILURE (R396): A received Binigal frame fails its GCM tag or carries a reserved KIND, is discarded,
  and the receiver NAKs the first missing SEQ and drops later frames. -/
  | binigalTagFailure (l : Fin 24)
  /-- RNR_WAIT_EXPIRY (R367): After an RNR NAK received for the part's own send, the RNR wait ends and the queue pair
  retries, or enters ERROR with cause 3 when RNR retries are exhausted. -/
  | rnrWaitExpiry (p : Fin 16) (i : Nat)
  /-- BYTE_COUNTER (R385): A queue pair has sent BYTE_COUNTER bytes, advancing its recovery stage and raising its rate.
  -/
  | byteCounter (p : Fin 16) (i : Nat)
  /-- PFC_PAUSE_EXPIRY (R360): The pause time of a received PFC frame runs out and transmission on that priority
  resumes. -/
  | pfcPauseExpiry (l : Fin 24) (prio : Fin 8)
  /-- EXTEST (R512): IEEE 1149.1 boundary-scan instruction available after the device unlock. -/
  | extest (pins : List Bool) (tdi : List Bool)
  /-- SAMPLE_PRELOAD (R512): IEEE 1149.1 boundary-scan instruction available after the device unlock. -/
  | samplePreload (pins : List Bool) (tdi : List Bool)
  /-- PLDM_REQUEST (R508): A PLDM message received over MCTP at the management port. -/
  | pldmRequest (req : List Byte)
  deriving DecidableEq, Repr

end Sys2Proof
end

