-- ==== Sys2Proof/Decode.lean ====
section
/-! DEFINITION. The command that a word spells by the bits of spec/opcode_table.json. The table gives no row any bits: its rows are
commands and events of a block, not encoded instructions. A mailbox command written as words is read where the mailbox takes
it, in Machine/Mailbox.lean, and a bundle of a program in Machine/Bundle.lean. -/

namespace Sys2Proof

/-- No row of the table has bits, so no word spells a command. -/
def decodeTableWord (_nbits _w : Nat) : Option Instr := none

end Sys2Proof
end

