-- ==== Sys2Proof/Machine/Bits.lean ====
section
/-! DEFINITION. Bit fields and byte order (R2, R3): the one place where a word is cut into fields and where a number
becomes little-endian or big-endian bytes. Fields are read as natural numbers. -/

namespace Sys2Proof.Machine

/-- The field `[hi:lo]` of a word, both ends included (R3). -/
def bits (w : W64) (hi lo : Nat) : Nat := w.toNat / 2 ^ lo % 2 ^ (hi + 1 - lo)

/-- One bit of a word. -/
def bitAt (w : W64) (i : Nat) : Bool := w.toNat / 2 ^ i % 2 == 1

/-- The field `[hi:lo]` is not zero: what R4 asks of a reserved field of a command packet. -/
def nonZero (w : W64) (hi lo : Nat) : Bool := bits w hi lo != 0

/-- A word that holds the number `v` in the field starting at bit `lo`, and zeros elsewhere. -/
def field (v lo : Nat) : W64 := w64 (v * 2 ^ lo)

/-- The word with its field `[hi:lo]` replaced by `v`. -/
def setBits (w : W64) (hi lo v : Nat) : W64 :=
  w64 (w.toNat - bits w hi lo * 2 ^ lo + v % 2 ^ (hi + 1 - lo) * 2 ^ lo)

/-- The word at position `i` of a payload, 0 where the payload is shorter. -/
def word (p : List W64) (i : Nat) : W64 := p.getD i 0

/-- Cut a list into `n` pieces of `m` elements. -/
def chop {α : Type} (m : Nat) : Nat → List α → List (List α)
  | 0, _ => []
  | n + 1, l => l.take m :: chop m n (l.drop m)

/-- A truth value as the number 0 or 1. -/
def b2n (b : Bool) : Nat := if b then 1 else 0

/-- `k` bytes of a number, least significant first (R2). -/
def leBytes : Nat → Nat → List Byte
  | 0, _ => []
  | k + 1, n => byte (n % 256) :: leBytes k (n / 256)

/-- `k` bytes of a number, most significant first (the byte order of SEC 1 and of the FIPS standards). -/
def beBytes (k n : Nat) : List Byte := (leBytes k n).reverse

/-- The number that bytes spell, least significant first (R2). -/
def leNat : List Byte → Nat
  | [] => 0
  | b :: bs => b.toNat + 256 * leNat bs

/-- The number that bytes spell, most significant first. -/
def beNat (bs : List Byte) : Nat := bs.foldl (fun a b => a * 256 + b.toNat) 0

/-- Bytes of words, each word little-endian (R2). -/
def wordsToBytes : List W64 → List Byte
  | [] => []
  | w :: ws => leBytes 8 w.toNat ++ wordsToBytes ws

/-- `n` words taken from a byte string, the string zero-padded at its end. -/
def bytesToWords : Nat → List Byte → List W64
  | 0, _ => []
  | n + 1, bs => w64 (leNat (bs.take 8)) :: bytesToWords n (bs.drop 8)

/-- The byte string cut or zero-padded to `n` bytes. -/
def padTo (n : Nat) (bs : List Byte) : List Byte := bs.take n ++ List.replicate (n - bs.length) 0

/-- `n` zero bytes. -/
def zeros (n : Nat) : List Byte := List.replicate n 0

/-- ASCII bytes of a text. -/
def ascii (t : String) : List Byte := t.toList.map (fun c => byte c.toNat)

/-- Byte-wise exclusive or of two strings. -/
def xorBytes (a b : List Byte) : List Byte := List.zipWith (fun x y => x ^^^ y) a b

/-- A sum that stops at `top` (saturating counts, R283, R415, R488). -/
def satAdd (top a b : Nat) : Nat := Nat.min top (a + b)

/-- A signed number as a 64-bit two's-complement word. -/
def intW (i : Int) : W64 := BitVec.ofInt 64 i

/-- Replace the element at an index of a list; the list is unchanged where the index lies outside it. -/
def setAt {α : Type} : List α → Nat → α → List α
  | [], _, _ => []
  | _ :: xs, 0, v => v :: xs
  | x :: xs, n + 1, v => x :: setAt xs n v

/-- The first position, from `i` on, of `n` consecutive ones at which `p` holds. -/
def findFrom (p : Nat → Bool) : Nat → Nat → Option Nat
  | 0, _ => none
  | n + 1, i => if p i then some i else findFrom p n (i + 1)

/-- The least number below `n` at which `p` holds. -/
def leastBelow (n : Nat) (p : Nat → Bool) : Option Nat := findFrom p n 0

/-- How many numbers below `n` satisfy `p`. -/
def countBelow (n : Nat) (p : Nat → Bool) : Nat := ((List.range n).filter p).length

/-- The numbers below `n` whose bit is set in the mask. -/
def maskList (n mask : Nat) : List Nat := (List.range n).filter (fun i => mask.testBit i)

/-- The mask with the bits of the list set. -/
def listMask (l : List Nat) : Nat := l.foldl (fun m i => m ||| 2 ^ i) 0

/-- `a` divided by `b`, rounded up. -/
def ceilDiv (a b : Nat) : Nat := (a + b - 1) / b

end Sys2Proof.Machine
end

