-- ==== Sys2Proof/Machine/Bundle.lean ====
section
/-! DEFINITION. The encoding of a bundle (R126 to R139): its slots, the fields of each slot, and the encodings that a loader
accepts. -/

namespace Sys2Proof.Machine

/-- The field `[hi:lo]` of a number. -/
def nfield (v hi lo : Nat) : Nat := v / 2 ^ lo % 2 ^ (hi + 1 - lo)

/-- The value of a slot of a bundle (R126): 0 ctl, 1 mv, 2 compute, 3 aux, 4 syn. -/
def slotVal (b : Nat) : Nat → Nat
  | 0 => nfield b 31 0
  | 1 => nfield b 95 32
  | 2 => nfield b 159 96
  | 3 => nfield b 223 160
  | _ => nfield b 255 224

/-- The class code of a slot (R127). -/
def slotClass (slot v : Nat) : Nat := if slot = 0 ∨ slot = 4 then nfield v 31 28 else nfield v 63 60

/-- The opcode of a slot: bits [27:24] of ctl and syn, [59:56] of mv, [59:54] of the others (R129 to R139). -/
def slotOp (slot v : Nat) : Nat :=
  if slot = 0 ∨ slot = 4 then nfield v 27 24 else if slot = 1 then nfield v 59 56 else nfield v 59 54

/-- A ctl slot is no reserved encoding (R129). -/
def ctlOk (v : Nat) : Bool :=
  nfield v 31 28 == 7 &&
    match nfield v 27 24 with
    | 0 => nfield v 23 8 == 0
    | 1 => nfield v 18 17 ≤ 2 && nfield v 16 16 == 0
    | 2 => nfield v 8 0 == 0
    | 3 => nfield v 8 0 == 0
    | 4 => true
    | 5 => nfield v 13 6 == 0
    | 6 => if nfield v 20 20 = 0 then nfield v 19 0 ≥ 1 else nfield v 14 0 == 0
    | 7 => nfield v 20 16 == 0
    | 8 => nfield v 23 20 == 0 && nfield v 19 0 ≥ 1
    | 9 => nfield v 23 1 == 0
    | _ => false

/-- An mv slot is no reserved encoding (R131, R132). -/
def mvOk (v : Nat) : Bool :=
  nfield v 63 60 == 6 &&
    (let op := nfield v 59 56
     if 1 ≤ op ∧ op ≤ 4 then nfield v 27 0 == 0
     else (op == 8 || op == 9) && nfield v 45 33 ≥ 1 && nfield v 32 28 == 0 && nfield v 15 0 == 0)

/-- log2 N of an NSIZE (R133). -/
def logNOf : Nat → Nat
  | 0 => 14
  | 1 => 15
  | 2 => 16
  | _ => 11

/-- A ring slot is no reserved encoding (R133, R134, R172, R176, R178). -/
def ringOk (v : Nat) : Bool :=
  let op := nfield v 59 54
  let prime := nfield v 38 32
  nfield v 63 60 == 1 && prime ≤ 79 &&
    (if op = 9 then
      nfield v 29 13 % 2 == 1 && nfield v 29 13 < 2 * 2 ^ logNOf (nfield v 31 30) && nfield v 12 0 == 0
     else if op = 10 then
      let n := nfield v 29 23
      1 ≤ n && n ≤ 80 && prime + n ≤ 80 && nfield v 43 39 == 0 && nfield v 31 30 == 0 && nfield v 22 0 == 0
     else if op = 11 then prime == 0 && nfield v 31 0 == 0
     else 1 ≤ op && op ≤ 8 && nfield v 29 0 == 0)

/-- A tn slot is no reserved encoding (R135, R254). -/
def tnOk (v : Nat) : Bool :=
  let rep := nfield v 38 27
  nfield v 63 60 == 2 && nfield v 26 0 == 0 &&
    match nfield v 59 54 with
    | 1 => rep == 1
    | 2 => rep ≥ 1
    | 3 => rep ≥ 1
    | 4 => 1 ≤ rep && rep ≤ 4
    | 5 => rep == 1
    | 6 => rep == 1
    | _ => false

/-- An aux slot is no reserved encoding (R136 to R138). -/
def auxOk (v : Nat) : Bool :=
  let op := nfield v 59 54
  match nfield v 63 60 with
  | 3 =>
    (op == 1 || op == 2) && nfield v 43 41 ≤ 3 && 1 ≤ nfield v 40 28 && nfield v 40 28 ≤ 4096 && nfield v 21 0 == 0
  | 4 =>
    nfield v 43 42 ≤ 2 &&
      (if op = 1 then nfield v 48 44 == 0 && nfield v 41 0 == 0
       else op == 2 && nfield v 41 28 ≥ 1 && nfield v 27 0 == 0)
  | 5 => op == 1 && nfield v 48 40 == 0 && nfield v 27 0 == 0
  | _ => false

/-- A syn slot is no reserved encoding, and names a rank below CLUSTERS (R139, R155). -/
def synOk (clusters v : Nat) : Bool :=
  nfield v 31 28 == 8 &&
    match nfield v 27 24 with
    | 1 => true
    | 2 => nfield v 2 0 == 0 && nfield v 23 19 < clusters
    | 3 => nfield v 2 0 == 0 && nfield v 23 19 < clusters
    | 4 => nfield v 23 0 == 0
    | 5 => nfield v 23 0 == 0
    | _ => false

/-- A bundle holds no reserved encoding (R127). -/
def bundleOk (clusters b : Nat) : Bool :=
  let ok (i : Nat) (f : Nat → Bool) : Bool := slotVal b i == 0 || f (slotVal b i)
  ok 0 ctlOk && ok 1 mvOk && ok 2 (fun v => if nfield v 63 60 = 1 then ringOk v else tnOk v) && ok 3 auxOk
    && ok 4 (synOk clusters)

end Sys2Proof.Machine
end

