-- ==== Sys2Proof/Machine/Assoc.lean ====
section
/-! DEFINITION. Sparse tables: a list of (key, value) pairs with strictly rising keys, the one canonical form in which
every sparse store of the model is held (memory, ledger entries, counters, key slots, contexts). `Mem` is the byte
memory in that form: an address that is not listed reads as 0, and no entry holds 0. -/

namespace Sys2Proof.Machine

/-- A sparse table keyed by numbers, keys strictly rising. -/
abbrev Assoc (β : Type) := List (Nat × β)

namespace Table

/-- The value at a key. -/
def get? {β : Type} : Assoc β → Nat → Option β
  | [], _ => none
  | (k, v) :: t, i => if i = k then some v else get? t i

/-- Put a value at a key, keeping the keys rising. -/
def put {β : Type} : Assoc β → Nat → β → Assoc β
  | [], i, x => [(i, x)]
  | (k, v) :: t, i, x =>
    if i < k then (i, x) :: (k, v) :: t else if i = k then (i, x) :: t else (k, v) :: put t i x

/-- Remove a key. -/
def del {β : Type} (t : Assoc β) (i : Nat) : Assoc β := t.filter (fun e => e.1 != i)

/-- Remove every key from `lo` up to, not including, `hi`. -/
def delRange {β : Type} (t : Assoc β) (lo hi : Nat) : Assoc β := t.filter (fun e => e.1 < lo || hi ≤ e.1)

/-- Is the key listed? -/
def has {β : Type} (t : Assoc β) (i : Nat) : Bool := (get? t i).isSome

/-- Apply a function to the value at a key, where there is one. -/
def modify {β : Type} (t : Assoc β) (i : Nat) (f : β → β) : Assoc β :=
  t.map (fun e => if e.1 = i then (e.1, f e.2) else e)

/-- Keys strictly rising: the canonical form. -/
def sorted {β : Type} : Assoc β → Bool
  | [] => true
  | (k, _) :: t =>
    match t with
    | [] => true
    | (k', _) :: _ => k < k' && sorted t

end Table

/-- Byte memory in canonical form; an unlisted address reads as 0 (R350: creation leaves DRAM reading as zero). -/
abbrev Mem := List Host.Cell

namespace Mem

/-- What an address that is not listed reads as. -/
def absent : Byte := 0

/-- Read one byte. -/
def read (m : Mem) (a : Nat) : Byte := (Table.get? m a).getD absent

/-- Write one byte; writing what an unlisted address reads as removes the entry. -/
def write (m : Mem) (a : Nat) (v : Byte) : Mem := if v = absent then Table.del m a else Table.put m a v

/-- Read `n` bytes upwards from an address. -/
def readN (m : Mem) (a : Nat) : Nat → List Byte
  | 0 => []
  | n + 1 => m.read a :: readN m (a + 1) n

/-- Write a byte string upwards from an address. -/
def writeN (m : Mem) (a : Nat) : List Byte → Mem
  | [] => m
  | v :: vs => writeN (m.write a v) (a + 1) vs

/-- Zero `n` bytes from an address. -/
def zero (m : Mem) (a n : Nat) : Mem := Table.delRange m a (a + n)

/-- Read a little-endian number of `n` bytes (R2). -/
def readLE (m : Mem) (a n : Nat) : Nat := leNat (m.readN a n)

/-- Write a little-endian number of `n` bytes (R2). -/
def writeLE (m : Mem) (a n v : Nat) : Mem := m.writeN a (leBytes n v)

/-- Canonical form: addresses strictly rising, and no entry equal to what an unlisted address reads as. -/
def wf (m : Mem) : Bool := Table.sorted m && m.all (fun e => e.2 != absent)

end Mem

/-- A set of numbers as disjoint ranges (first, length), rising; used for page epoch bits (R328). -/
abbrev RangeSet := List (Nat × Nat)

namespace RangeSet

/-- Is the number in the set? -/
def mem (r : RangeSet) (i : Nat) : Bool := r.any (fun e => e.1 ≤ i && i < e.1 + e.2)

/-- Remove the numbers from `lo` up to, not including, `hi`. -/
def remove (r : RangeSet) (lo hi : Nat) : RangeSet :=
  (r.map (fun e =>
    let l := e.1
    let h := e.1 + e.2
    (if l < lo then [(l, Nat.min h lo - l)] else []) ++ (if hi < h then [(Nat.max l hi, h - Nat.max l hi)] else []))).flatten

/-- Insert a range that the set does not meet, in order. -/
def ins : RangeSet → Nat × Nat → RangeSet
  | [], e => [e]
  | d :: t, e => if e.1 < d.1 then e :: d :: t else d :: ins t e

/-- Add the numbers from `lo` up to, not including, `hi`. -/
def add (r : RangeSet) (lo hi : Nat) : RangeSet := if lo < hi then ins (remove r lo hi) (lo, hi - lo) else r

/-- How many numbers the set holds. -/
def size (r : RangeSet) : Nat := r.foldl (fun n e => n + e.2) 0

/-- The least number, from `i` on, that the set does not hold. -/
def firstGap : RangeSet → Nat → Nat
  | [], i => i
  | e :: t, i => if e.1 ≤ i && i < e.1 + e.2 then firstGap t (e.1 + e.2) else if i < e.1 then i else firstGap t i

/-- The least number of the set. -/
def least? (r : RangeSet) : Option Nat := r.head?.map Prod.fst

end RangeSet

end Sys2Proof.Machine
end

