-- ==== Sys2Proof/Machine/Crypto.lean ====
section
/-! DEFINITION. The published algorithms the part uses by name: SHA-256 and SHA-384 (FIPS 180-4), HMAC (FIPS 198-1),
HKDF (RFC 5869), AES (FIPS 197) in CTR and GCM, ChaCha20 (RFC 8439), CTR_DRBG (SP 800-90A), X25519 (RFC 7748),
P-384 with ECDH and ECDSA (FIPS 186-5), Shamir reconstruction over GF(2^16) (R110) and CRC-32C (R488).
The manual names these standards and does not restate them ("Published standards in full" lie outside its scope),
so their insides are PRESUMED from the standards. Everything is a total function by structural recursion. -/

namespace Sys2Proof.Machine.Crypto

open Sys2Proof.Machine

/-! ## Hashes -/

/-- The `n` numbers of `w` bits that lie side by side in a literal, the first one highest. -/
def limbs (w : Nat) : Nat → Nat → List Nat
  | 0, _ => []
  | n + 1, x => (x >>> (w * n)) % 2 ^ w :: limbs w n x

/-- The first 64 bits of the fractional parts of the cube roots of the first 80 primes: the round constants of the SHA-2 family
(FIPS 180-4), of which SHA-256 uses the upper halves of the first 64. -/
def cubeRoots : List Nat :=
  limbs 64 5 0x428a2f98d728ae227137449123ef65cdb5c0fbcfec4d3b2fe9b5dba58189dbbc3956c25bf348b538 ++
    limbs 64 5 0x59f111f1b605d019923f82a4af194f9bab1c5ed5da6d8118d807aa98a303024212835b0145706fbe ++
    limbs 64 5 0x243185be4ee4b28c550c7dc3d5ffb4e272be5d74f27b896f80deb1fe3b1696b19bdc06a725c71235 ++
    limbs 64 5 0xc19bf174cf692694e49b69c19ef14ad2efbe4786384f25e30fc19dc68b8cd5b5240ca1cc77ac9c65 ++
    limbs 64 5 0x2de92c6f592b02754a7484aa6ea6e4835cb0a9dcbd41fbd476f988da831153b5983e5152ee66dfab ++
    limbs 64 5 0xa831c66d2db43210b00327c898fb213fbf597fc7beef0ee4c6e00bf33da88fc2d5a79147930aa725 ++
    limbs 64 5 0x06ca6351e003826f142929670a0e6e7027b70a8546d22ffc2e1b21385c26c9264d2c6dfc5ac42aed ++
    limbs 64 5 0x53380d139d95b3df650a73548baf63de766a0abb3c77b2a881c2c92e47edaee692722c851482353b ++
    limbs 64 5 0xa2bfe8a14cf10364a81a664bbc423001c24b8b70d0f89791c76c51a30654be30d192e819d6ef5218 ++
    limbs 64 5 0xd69906245565a910f40e35855771202a106aa07032bbd1b819a4c116b8d2d0c81e376c085141ab53 ++
    limbs 64 5 0x2748774cdf8eeb9934b0bcb5e19b48a8391c0cb3c5c95a634ed8aa4ae3418acb5b9cca4f7763e373 ++
    limbs 64 5 0x682e6ff3d6b2b8a3748f82ee5defb2fc78a5636f43172f6084c87814a1f0ab728cc702081a6439ec ++
    limbs 64 5 0x90befffa23631e28a4506cebde82bde9bef9a3f7b2c67915c67178f2e372532bca273eceea26619c ++
    limbs 64 5 0xd186b8c721c0c207eada7dd6cde0eb1ef57d4f7fee6ed17806f067aa72176fba0a637dc5a2c898a6 ++
    limbs 64 5 0x113f9804bef90dae1b710b35131c471b28db77f523047d8432caab7b40c724933c9ebe0a15c9bebc ++
    limbs 64 5 0x431d67c49c100d4c4cc5d4becb3e42b6597f299cfc657e2a5fcb6fab3ad6faec6c44198c4a475817

/-- The first 64 bits of the fractional parts of the square roots of the first 16 primes: SHA-256 starts from the upper halves of the
first eight, SHA-384 from the last eight. -/
def squareRoots : List Nat :=
  limbs 64 4 0x6a09e667f3bcc908bb67ae8584caa73b3c6ef372fe94f82ba54ff53a5f1d36f1 ++
    limbs 64 4 0x510e527fade682d19b05688c2b3e6c1f1f83d9abfb41bd6b5be0cd19137e2179 ++
    limbs 64 4 0xcbbb9d5dc1059ed8629a292a367cd5079159015a3070dd17152fecd8f70e5939 ++
    limbs 64 4 0x67332667ffc00b318eb44a8768581511db0c2e0d64f98fa747b5481dbefa4fa4

/-- Rotate a `w`-bit number right. -/
def rotr (w n x : Nat) : Nat := (x >>> n) ||| ((x <<< (w - n)) % 2 ^ w)

/-- A member of the SHA-2 family: its word size, the bit amounts of its four mixing functions (the last amount of the two of the message
is a shift), its constants, its start, and the bytes of its digest. -/
structure ShaKind where
  w : Nat
  sumA : Nat × Nat × Nat
  sumE : Nat × Nat × Nat
  near : Nat × Nat × Nat
  far : Nat × Nat × Nat
  consts : List Nat
  start : List Nat
  out : Nat

/-- SHA-256. -/
def sha256Kind : ShaKind :=
  { w := 32, out := 32, consts := (cubeRoots.take 64).map (· >>> 32), start := (squareRoots.take 8).map (· >>> 32)
    sumA := (2, 13, 22), sumE := (6, 11, 25), near := (7, 18, 3), far := (17, 19, 10) }

/-- SHA-384. -/
def sha384Kind : ShaKind :=
  { w := 64, out := 48, consts := cubeRoots, start := squareRoots.drop 8
    sumA := (28, 34, 39), sumE := (14, 18, 41), near := (1, 8, 7), far := (19, 61, 6) }

/-- Mix a word with itself at two rotations and a third amount, by which it is rotated or shifted. -/
def mix3 (w : Nat) (shift : Bool) (r : Nat × Nat × Nat) (x : Nat) : Nat :=
  rotr w r.1 x ^^^ rotr w r.2.1 x ^^^ (if shift then x >>> r.2.2 else rotr w r.2.2 x)

/-- The two chains of the compression function, each with its four latest words, the latest first: each round adds one word to both. -/
structure Chains where
  a1 : Nat
  a2 : Nat
  a3 : Nat
  a4 : Nat
  e1 : Nat
  e2 : Nat
  e3 : Nat
  e4 : Nat

/-- The words of both chains in the order of the standard. -/
def Chains.list (c : Chains) : List Nat := [c.a1, c.a2, c.a3, c.a4, c.e1, c.e2, c.e3, c.e4]

/-- The chains that start from eight words. -/
def Chains.ofList (h : List Nat) : Chains :=
  ⟨h.getD 0 0, h.getD 1 0, h.getD 2 0, h.getD 3 0, h.getD 4 0, h.getD 5 0, h.getD 6 0, h.getD 7 0⟩

/-- One round, with the sum of its constant and its message word: the choice of two words by a third is made by exclusive or, the majority
of three by and and or. -/
def Chains.next (k : ShaKind) (c : Chains) (x : Nat) : Chains :=
  let t := c.e4 + x + mix3 k.w false k.sumE c.e1 + (c.e3 ^^^ (c.e1 &&& (c.e2 ^^^ c.e3)))
  let m := (c.a1 &&& (c.a2 ||| c.a3)) ||| (c.a2 &&& c.a3)
  ⟨(t + m + mix3 k.w false k.sumA c.a1) % 2 ^ k.w, c.a1, c.a2, c.a3, (c.a4 + t) % 2 ^ k.w, c.e1, c.e2, c.e3⟩

/-- The rounds of a block, one for each constant left, over a window of the next 16 message words: the window moves on by one word each
round. -/
def shaRounds (k : ShaKind) : List Nat → List Nat → Chains → Chains
  | x :: xs, w :: ws, c =>
    let new := (w + mix3 k.w true k.near (ws.getD 0 0) + ws.getD 8 0 + mix3 k.w true k.far (ws.getD 13 0)) % 2 ^ k.w
    shaRounds k xs (ws ++ [new]) (c.next k (x + w))
  | _, _, c => c

/-- The hash after one more block, given as its bytes. -/
def shaBlock (k : ShaKind) (h : List Nat) (b : List Byte) : List Nat :=
  let ws := (chop (k.w / 8) 16 b).map beNat
  List.zipWith (fun x y => (x + y) % 2 ^ k.w) (shaRounds k k.consts ws (.ofList h)).list h

/-- Bytes of a block. -/
def ShaKind.block (k : ShaKind) : Nat := 2 * k.w

/-- A message of `n` bytes ends with a set bit and its length in bits, at the end of a block. -/
def shaTail (k : ShaKind) (n : Nat) : List Byte :=
  let size := ceilDiv (n + 1 + k.w / 4) k.block * k.block
  byte 128 :: beBytes (size - n - 1) (8 * n)

/-- The digest of a message. -/
def sha (k : ShaKind) (m : List Byte) : List Byte :=
  let p := m ++ shaTail k m.length
  ((((chop k.block (p.length / k.block) p).foldl (shaBlock k) k.start).map (beBytes (k.w / 8))).flatten).take k.out

/-- SHA-256. -/
def sha256 (m : List Byte) : List Byte := sha sha256Kind m

/-- SHA-384, the digest of measurements, statements, records and images. -/
def sha384 (m : List Byte) : List Byte := sha sha384Kind m

/-- HMAC over one of the two hashes. -/
def hmac (k : ShaKind) (key m : List Byte) : List Byte :=
  let inner := padTo k.block (if key.length > k.block then sha k key else key)
  sha k (inner.map (· ^^^ 0x5c) ++ sha k (inner.map (· ^^^ 0x36) ++ m))

/-- HKDF expansion: `n` output blocks. -/
def hkdfBlocks (k : ShaKind) (prk info : List Byte) : Nat → Nat → List Byte → List Byte
  | 0, _, _ => []
  | n + 1, i, t =>
    let t' := hmac k prk (t ++ info ++ [byte i])
    t' ++ hkdfBlocks k prk info n (i + 1) t'

/-- HKDF: extract with the salt, expand to `len` bytes (RFC 5869). -/
def hkdf (k : ShaKind) (ikm salt info : List Byte) (len : Nat) : List Byte :=
  (hkdfBlocks k (hmac k salt ikm) info (ceilDiv len k.out) 1 []).take len

/-! ## AES -/

/-- The substitution table of AES (FIPS 197). -/
def aesSbox : List Nat :=
  [0x63, 0x7c, 0x77, 0x7b, 0xf2, 0x6b, 0x6f, 0xc5, 0x30, 0x01, 0x67, 0x2b, 0xfe, 0xd7, 0xab, 0x76,
   0xca, 0x82, 0xc9, 0x7d, 0xfa, 0x59, 0x47, 0xf0, 0xad, 0xd4, 0xa2, 0xaf, 0x9c, 0xa4, 0x72, 0xc0,
   0xb7, 0xfd, 0x93, 0x26, 0x36, 0x3f, 0xf7, 0xcc, 0x34, 0xa5, 0xe5, 0xf1, 0x71, 0xd8, 0x31, 0x15,
   0x04, 0xc7, 0x23, 0xc3, 0x18, 0x96, 0x05, 0x9a, 0x07, 0x12, 0x80, 0xe2, 0xeb, 0x27, 0xb2, 0x75] ++
  [0x09, 0x83, 0x2c, 0x1a, 0x1b, 0x6e, 0x5a, 0xa0, 0x52, 0x3b, 0xd6, 0xb3, 0x29, 0xe3, 0x2f, 0x84,
   0x53, 0xd1, 0x00, 0xed, 0x20, 0xfc, 0xb1, 0x5b, 0x6a, 0xcb, 0xbe, 0x39, 0x4a, 0x4c, 0x58, 0xcf,
   0xd0, 0xef, 0xaa, 0xfb, 0x43, 0x4d, 0x33, 0x85, 0x45, 0xf9, 0x02, 0x7f, 0x50, 0x3c, 0x9f, 0xa8,
   0x51, 0xa3, 0x40, 0x8f, 0x92, 0x9d, 0x38, 0xf5, 0xbc, 0xb6, 0xda, 0x21, 0x10, 0xff, 0xf3, 0xd2] ++
  [0xcd, 0x0c, 0x13, 0xec, 0x5f, 0x97, 0x44, 0x17, 0xc4, 0xa7, 0x7e, 0x3d, 0x64, 0x5d, 0x19, 0x73,
   0x60, 0x81, 0x4f, 0xdc, 0x22, 0x2a, 0x90, 0x88, 0x46, 0xee, 0xb8, 0x14, 0xde, 0x5e, 0x0b, 0xdb,
   0xe0, 0x32, 0x3a, 0x0a, 0x49, 0x06, 0x24, 0x5c, 0xc2, 0xd3, 0xac, 0x62, 0x91, 0x95, 0xe4, 0x79,
   0xe7, 0xc8, 0x37, 0x6d, 0x8d, 0xd5, 0x4e, 0xa9, 0x6c, 0x56, 0xf4, 0xea, 0x65, 0x7a, 0xae, 0x08] ++
  [0xba, 0x78, 0x25, 0x2e, 0x1c, 0xa6, 0xb4, 0xc6, 0xe8, 0xdd, 0x74, 0x1f, 0x4b, 0xbd, 0x8b, 0x8a,
   0x70, 0x3e, 0xb5, 0x66, 0x48, 0x03, 0xf6, 0x0e, 0x61, 0x35, 0x57, 0xb9, 0x86, 0xc1, 0x1d, 0x9e,
   0xe1, 0xf8, 0x98, 0x11, 0x69, 0xd9, 0x8e, 0x94, 0x9b, 0x1e, 0x87, 0xe9, 0xce, 0x55, 0x28, 0xdf,
   0x8c, 0xa1, 0x89, 0x0d, 0xbf, 0xe6, 0x42, 0x68, 0x41, 0x99, 0x2d, 0x0f, 0xb0, 0x54, 0xbb, 0x16]

/-- Multiplication by x in the field of AES. -/
def xtime (a : Nat) : Nat := if a < 128 then 2 * a else (2 * a) ^^^ 0x11b

/-- Substitution of one byte. -/
def sub8 (a : Nat) : Nat := aesSbox.getD a 0

/-- The key schedule as four-byte words, newest first: `n` further words of a key of `nk` words. -/
def aesExpand (nk : Nat) : Nat → Nat → Nat → List (List Nat) → List (List Nat)
  | 0, _, _, ws => ws
  | n + 1, i, rc, ws =>
    let prev := ws.headD []
    let t :=
      if i % nk == 0 then
        match (prev.drop 1 ++ prev.take 1).map sub8 with
        | a :: r => (a ^^^ rc) :: r
        | [] => []
      else if nk == 8 && i % nk == 4 then prev.map sub8
      else prev
    let w := List.zipWith (· ^^^ ·) (ws.getD (nk - 1) []) t
    aesExpand nk n (i + 1) (if i % nk == 0 then xtime rc else rc) (w :: ws)

/-- The round keys of a key of 16 or 32 bytes, each of 16 bytes. -/
def aesKeys (key : List Byte) : List (List Nat) :=
  let nk := key.length / 4
  let ws := chop 4 nk (key.map BitVec.toNat)
  let all := (aesExpand nk (4 * (nk + 7) - nk) nk 1 ws.reverse).reverse
  (chop 4 (nk + 7) all).map List.flatten

/-- The byte permutation of ShiftRows on a block held column by column. -/
def shiftRows (s : List Nat) : List Nat :=
  [0, 5, 10, 15, 4, 9, 14, 3, 8, 13, 2, 7, 12, 1, 6, 11].map (fun i => s.getD i 0)

/-- MixColumns on one column. -/
def mixCol (c : List Nat) : List Nat :=
  let a := c.getD 0 0
  let b := c.getD 1 0
  let d := c.getD 2 0
  let e := c.getD 3 0
  let t := a ^^^ b ^^^ d ^^^ e
  [a ^^^ t ^^^ xtime (a ^^^ b), b ^^^ t ^^^ xtime (b ^^^ d), d ^^^ t ^^^ xtime (d ^^^ e), e ^^^ t ^^^ xtime (e ^^^ a)]

/-- The rounds after the first key addition. -/
def aesRounds : List (List Nat) → List Nat → List Nat
  | [], s => s
  | [k], s => List.zipWith (· ^^^ ·) (shiftRows (s.map sub8)) k
  | k :: ks, s =>
    aesRounds ks (List.zipWith (· ^^^ ·) ((chop 4 4 (shiftRows (s.map sub8))).map mixCol).flatten k)

/-- AES of one block under expanded keys. -/
def aesBlock (ks : List (List Nat)) (b : List Byte) : List Byte :=
  match ks with
  | [] => []
  | k :: rest => (aesRounds rest (List.zipWith (· ^^^ ·) (b.map BitVec.toNat) k)).map byte

/-- `n` blocks of AES over a big-endian 128-bit counter that starts at `c` and wraps in its low `cb` bits. -/
def ctrBlocks (ks : List (List Nat)) (hi cb : Nat) : Nat → Nat → List Byte
  | 0, _ => []
  | n + 1, c => aesBlock ks (beBytes 16 (hi * 2 ^ cb + c % 2 ^ cb)) ++ ctrBlocks ks hi cb n (c + 1)

/-! ## GCM -/

/-- Product in the field of GHASH, bit by bit (SP 800-38D), on 128-bit numbers with the first bit the highest. -/
def ghMul : Nat → Nat → Nat → Nat → Nat
  | 0, _, _, z => z
  | n + 1, x, v, z =>
    let z' := if x.testBit n then z ^^^ v else z
    ghMul n x (if v % 2 == 1 then (v / 2) ^^^ (0xe1 <<< 120) else v / 2) z'

/-- GHASH over whole blocks. -/
def ghash (h : Nat) (blocks : List (List Byte)) : Nat :=
  blocks.foldl (fun y b => ghMul 128 (y ^^^ beNat b) h 0) 0

/-- A byte string as zero-padded 16-byte blocks. -/
def blocks16 (m : List Byte) : List (List Byte) := chop 16 (ceilDiv m.length 16) (padTo (16 * ceilDiv m.length 16) m)

/-- The GCM tag of a ciphertext and its additional data, for a 12-byte nonce. -/
def gcmTag (ks : List (List Nat)) (nonce aad ct : List Byte) : List Byte :=
  let h := beNat (aesBlock ks (zeros 16))
  let s := ghash h (blocks16 aad ++ blocks16 ct ++ [beBytes 8 (8 * aad.length) ++ beBytes 8 (8 * ct.length)])
  xorBytes (beBytes 16 s) (aesBlock ks (nonce ++ [0, 0, 0, 1]))

/-- GCM's keystream encryption (its own inverse), for a 12-byte nonce. -/
def gcmCrypt (ks : List (List Nat)) (nonce m : List Byte) : List Byte :=
  xorBytes m (ctrBlocks ks (beNat nonce) 32 (ceilDiv m.length 16) 2)

/-- AES-256-GCM encryption: the ciphertext and the 16-byte tag. -/
def gcmSeal (key nonce aad pt : List Byte) : List Byte × List Byte :=
  let ks := aesKeys key
  let ct := gcmCrypt ks nonce pt
  (ct, gcmTag ks nonce aad ct)

/-- AES-256-GCM decryption: the plaintext, or none where the tag fails. -/
def gcmOpen (key nonce aad ct tag : List Byte) : Option (List Byte) :=
  let ks := aesKeys key
  if gcmTag ks nonce aad ct == tag then some (gcmCrypt ks nonce ct) else none

/-! ## CMAC, the keys of MKA, key wrap (SP 800-38B, IEEE 802.1X, RFC 3394; R332) -/

/-- Double in the field of CMAC and XTS: a 128-bit number shifted up, reduced by x^128 + x^7 + x^2 + x + 1. -/
def dbl128 (x : Nat) : Nat := if x < 2 ^ 127 then 2 * x else (2 * x) % 2 ^ 128 ^^^ 0x87

/-- AES-CMAC of a message: the last block takes the first subkey where it is whole, else padding and the second. -/
def cmac (key m : List Byte) : List Byte :=
  let ks := aesKeys key
  let sub1 := dbl128 (beNat (aesBlock ks (zeros 16)))
  let n := (m.length - 1) / 16
  let tail := m.drop (16 * n)
  let last := if tail.length = 16 then xorBytes tail (beBytes 16 sub1)
    else xorBytes (padTo 16 (tail ++ [0x80])) (beBytes 16 (dbl128 sub1))
  aesBlock ks (xorBytes ((chop 16 n m).foldl (fun c b => aesBlock ks (xorBytes c b)) (zeros 16)) last)

/-- The key derivation of IEEE 802.1X: `len` bits from a key under a label and a context. -/
def mkaKdf (key label ctx : List Byte) (len : Nat) : List Byte :=
  ((List.range (ceilDiv len 128)).flatMap (fun i => cmac key (byte (i + 1) :: label ++ [0] ++ ctx ++ beBytes 2 len))).take (len / 8)

/-- One pass of the AES key wrap over the 8-byte parts of a key, from step `t` on. -/
def wrapPass (ks : List (List Nat)) : Nat → List Byte → List (List Byte) → List Byte × List (List Byte)
  | _, a, [] => (a, [])
  | t, a, r :: rs =>
    let b := aesBlock ks (a ++ r)
    let (a', rs') := wrapPass ks (t + 1) (xorBytes (b.take 8) (beBytes 8 t)) rs
    (a', b.drop 8 :: rs')

/-- The byte that AES substitutes by a byte. -/
def unsub8 (a : Nat) : Nat := aesSbox.findIdx (· == a)

/-- ShiftRows taken back. -/
def unshiftRows (s : List Nat) : List Nat :=
  [0, 13, 10, 7, 4, 1, 14, 11, 8, 5, 2, 15, 12, 9, 6, 3].map (fun i => s.getD i 0)

/-- The rounds of AES taken back, from the last round key on: MixColumns has order four. -/
def aesUnrounds : List (List Nat) → List Nat → List Nat
  | [], s => s
  | [k], s => List.zipWith (· ^^^ ·) s k
  | k :: ks, s =>
    aesUnrounds ks ((unshiftRows ((chop 4 4 (List.zipWith (· ^^^ ·) s k)).map (fun c => mixCol (mixCol (mixCol c)))).flatten).map unsub8)

/-- AES of one block taken back under expanded keys; the last round has no MixColumns. -/
def aesUnblock (ks : List (List Nat)) (b : List Byte) : List Byte :=
  match ks.reverse with
  | [] => []
  | k :: rest => (aesUnrounds rest ((unshiftRows (List.zipWith (· ^^^ ·) (b.map BitVec.toNat) k)).map unsub8)).map byte

/-- One pass of the AES key unwrap over the parts of a key, last one first, from step `t` down. -/
def unwrapPass (ks : List (List Nat)) : Nat → List Byte → List (List Byte) → List Byte × List (List Byte)
  | _, a, [] => (a, [])
  | t, a, r :: rs =>
    let b := aesUnblock ks (xorBytes a (beBytes 8 t) ++ r)
    let (a', rs') := unwrapPass ks (t - 1) (b.take 8) rs
    (a', b.drop 8 :: rs')

/-- A key unwrapped (RFC 3394); none where its integrity value is not the one of the standard. -/
def aesUnwrap (kek w : List Byte) : Option (List Byte) :=
  let ks := aesKeys kek
  let n := w.length / 8 - 1
  let (a, rs) := (List.range 6).foldl (fun x j => unwrapPass ks (n * (6 - j)) x.1 x.2) (w.take 8, (chop 8 n (w.drop 8)).reverse)
  if a == List.replicate 8 0xA6 then some rs.reverse.flatten else none

/-- A key wrapped under another (RFC 3394): six passes. -/
def aesWrap (kek key : List Byte) : List Byte :=
  let ks := aesKeys kek
  let n := key.length / 8
  let (a, rs) := (List.range 6).foldl (fun x j => wrapPass ks (n * j + 1) x.1 x.2) (List.replicate 8 0xA6, chop 8 n key)
  a ++ rs.flatten

/-! ## AES-XTS (IEEE 1619; R328) -/

/-- The mask of block `j` of a data unit: the encrypted tweak, doubled `j` times, as a little-endian number. -/
def xtsMask (key : List Byte) (tweak : Nat) : Nat → Nat
  | 0 => leNat (aesBlock (aesKeys (key.drop 32)) (leBytes 16 tweak))
  | j + 1 => dbl128 (xtsMask key tweak j)

/-- Encrypt block `j` of a data unit under a 64-byte key. -/
def xtsSeal (key : List Byte) (tweak j : Nat) (b : List Byte) : List Byte :=
  let m := leBytes 16 (xtsMask key tweak j)
  xorBytes (aesBlock (aesKeys (key.take 32)) (xorBytes b m)) m

/-! ## CTR_DRBG (SP 800-90A, AES-256, no derivation function; R307) -/

/-- A DRBG instance: its key and its counter block as a number. -/
structure Drbg where
  key : List Byte
  v : Nat
  count : Nat
  deriving DecidableEq, Repr

/-- The zeroed instance. -/
def Drbg.zero : Drbg := ⟨zeros 32, 0, 0⟩

/-- The update function: 48 fresh bytes exclusive-or the provided data become key and counter. -/
def Drbg.update (d : Drbg) (data : List Byte) : Drbg :=
  let t := xorBytes (ctrBlocks (aesKeys d.key) 0 128 3 (d.v + 1)) (padTo 48 data)
  ⟨t.take 32, beNat (t.drop 32), d.count⟩

/-- Instantiate from 48 bytes of entropy and a personalisation string. -/
def Drbg.instantiate (entropy pers : List Byte) : Drbg :=
  { Drbg.zero.update (xorBytes (padTo 48 entropy) (padTo 48 pers)) with count := 1 }

/-- Reseed with 48 bytes of entropy. -/
def Drbg.reseed (d : Drbg) (entropy : List Byte) : Drbg := { d.update entropy with count := 1 }

/-- One generate request of `n` bytes, at most 65,536. -/
def Drbg.generate1 (d : Drbg) (n : Nat) : List Byte × Drbg :=
  let nb := ceilDiv n 16
  let out := padTo n (ctrBlocks (aesKeys d.key) 0 128 nb (d.v + 1))
  let d' := ({ d with v := (d.v + nb) % 2 ^ 128 }).update []
  (out, { d' with count := d.count + 1 })

/-- Several generate requests of at most 65,536 bytes each, as R307 limits them; `k` requests at most. -/
def Drbg.generateN : Nat → Drbg → Nat → List Byte × Drbg
  | 0, d, _ => ([], d)
  | k + 1, d, n =>
    if n = 0 then ([], d)
    else
      let m := Nat.min n 65536
      let (o, d') := d.generate1 m
      let (o', d'') := Drbg.generateN k d' (n - m)
      (o ++ o', d'')

/-- Draw `n` bytes. -/
def Drbg.draw (d : Drbg) (n : Nat) : List Byte × Drbg := Drbg.generateN (ceilDiv n 65536) d n

/-! ## ChaCha20 (RFC 8439) -/

/-- Rotate a 32-bit number left. -/
def rotl32 (n x : Nat) : Nat := rotr 32 (32 - n) x

/-- The quarter round on four positions of the state. -/
def quarter (s : List Nat) (i j k l : Nat) : List Nat :=
  let add (x y : Nat) := (x + y) % 2 ^ 32
  let a := s.getD i 0
  let b := s.getD j 0
  let c := s.getD k 0
  let d := s.getD l 0
  let a := add a b
  let d := rotl32 16 (d ^^^ a)
  let c := add c d
  let b := rotl32 12 (b ^^^ c)
  let a := add a b
  let d := rotl32 8 (d ^^^ a)
  let c := add c d
  let b := rotl32 7 (b ^^^ c)
  setAt (setAt (setAt (setAt s i a) j b) k c) l d

/-- A column round and a diagonal round. -/
def doubleRound (s : List Nat) : List Nat :=
  [(0, 4, 8, 12), (1, 5, 9, 13), (2, 6, 10, 14), (3, 7, 11, 15), (0, 5, 10, 15), (1, 6, 11, 12), (2, 7, 8, 13),
   (3, 4, 9, 14)].foldl (fun s q => quarter s q.1 q.2.1 q.2.2.1 q.2.2.2) s

/-- `n` double rounds. -/
def doubleRounds : Nat → List Nat → List Nat
  | 0, s => s
  | n + 1, s => doubleRounds n (doubleRound s)

/-- One 64-byte block for a 32-byte key, a 12-byte nonce and a 32-bit block counter. -/
def chachaBlock (key nonce : List Byte) (ctr : Nat) : List Byte :=
  let s := [0x61707865, 0x3320646e, 0x79622d32, 0x6b206574] ++ (chop 4 8 key).map leNat ++ [ctr % 2 ^ 32]
    ++ (chop 4 3 nonce).map leNat
  (List.zipWith (fun x y => leBytes 4 ((x + y) % 2 ^ 32)) s (doubleRounds 10 s)).flatten

/-! ## Modular arithmetic -/

/-- Power modulo `m` by repeated squaring, over `n` bits of the exponent. -/
def powMod (m : Nat) : Nat → Nat → Nat → Nat
  | 0, _, _ => 1 % m
  | n + 1, b, e =>
    let r := powMod m n (b * b % m) (e / 2)
    if e % 2 == 1 then b * r % m else r

/-- Inverse modulo a prime of at most `n` bits. -/
def invMod (m n a : Nat) : Nat := powMod m n a (m - 2)

/-- Difference modulo `m`. -/
def subMod (m a b : Nat) : Nat := (a + (m - b % m)) % m

/-! ## X25519 (RFC 7748) -/

/-- The prime 2^255 − 19. -/
def p25519 : Nat := 2 ^ 255 - 19

/-- A secret scalar clamped. -/
def clamp (k : List Byte) : Nat := (leNat (padTo 32 k) % 2 ^ 254 / 8) * 8 + 2 ^ 254

/-- The Montgomery ladder over `n` bits of the scalar, on the pairs (x2, z2) and (x3, z3). -/
def ladder (x1 k : Nat) : Nat → Nat × Nat → Nat × Nat → (Nat × Nat) × (Nat × Nat)
  | 0, a, b => (a, b)
  | n + 1, a, b =>
    let p := p25519
    let sw := k.testBit n
    let (q, r) := if sw then (b, a) else (a, b)
    let aa0 := (q.1 + q.2) % p
    let bb0 := subMod p q.1 q.2
    let aa := aa0 * aa0 % p
    let bb := bb0 * bb0 % p
    let e := subMod p aa bb
    let c := (r.1 + r.2) % p
    let d := subMod p r.1 r.2
    let da := d * aa0 % p
    let cb := c * bb0 % p
    let s := (da + cb) % p
    let t := subMod p da cb
    let q' := (aa * bb % p, e * ((aa + 121665 * e) % p) % p)
    let r' := (s * s % p, x1 * (t * t % p) % p)
    if sw then ladder x1 k n r' q' else ladder x1 k n q' r'

/-- The X25519 function on a secret and a u-coordinate. -/
def x25519 (k u : List Byte) : List Byte :=
  let x1 := leNat (padTo 32 u) % 2 ^ 255 % p25519
  let r := ladder x1 (clamp k) 255 (1, 0) (x1, 1)
  leBytes 32 (r.1.1 * invMod p25519 255 r.1.2 % p25519)

/-- The public key of a secret: X25519 of the base point 9. -/
def x25519Pub (k : List Byte) : List Byte := x25519 k (leBytes 32 9)

/-! ## P-384 -/

/-- The field prime. -/
def p384 : Nat := 2 ^ 384 - 2 ^ 128 - 2 ^ 96 + 2 ^ 32 - 1

/-- The order of the group. -/
def n384 : Nat := 0xffffffffffffffffffffffffffffffffffffffffffffffffc7634d81f4372ddf581a0db248b0a77aecec196accc52973

/-- The coefficient b of the curve y² = x³ − 3x + b. -/
def b384 : Nat := 0xb3312fa7e23ee7e4988e056be3f82d19181d9c6efe8141120314088f5013875ac656398d8a2ed19d2a85c8edd3ec2aef

/-- An affine point, or none for the point at infinity. -/
abbrev Point := Option (Nat × Nat)

/-- The base point. -/
def g384 : Point := some
  (0xaa87ca22be8b05378eb1c71ef320ad746e1d3b628ba79b9859f741e082542a385502f25dbf55296c3a545e3872760ab7,
   0x3617de4a96262c6f5d9e98bf9292dc29f8f41dbd289a147ce9da3113b5f0b8c00a60b1ce1d7e819d7a431d7c90ea0e5f)

/-- Is the pair of coordinates a point of the curve? -/
def onCurve (x y : Nat) : Bool :=
  x < p384 && y < p384 && y * y % p384 == (x * x % p384 * x + (p384 - 3) * x + b384) % p384

/-- Chord or tangent through two affine points, given its slope. -/
def chord (l x1 y1 x2 : Nat) : Nat × Nat :=
  let x := subMod p384 (subMod p384 (l * l) x1) x2
  (x, subMod p384 (l * subMod p384 x1 x) y1)

/-- The group law. -/
def addPt : Point → Point → Point
  | none, q => q
  | p, none => p
  | some (x1, y1), some (x2, y2) =>
    if x1 == x2 then
      if (y1 + y2) % p384 == 0 then none
      else some (chord ((3 * x1 * x1 + (p384 - 3)) % p384 * invMod p384 384 (2 * y1 % p384) % p384) x1 y1 x2)
    else some (chord (subMod p384 y2 y1 * invMod p384 384 (subMod p384 x2 x1) % p384) x1 y1 x2)

/-- Scalar multiple over `n` bits of the scalar. -/
def mulPt : Nat → Nat → Point → Point
  | 0, _, _ => none
  | n + 1, k, p =>
    let r := mulPt n (k / 2) (addPt p p)
    if k % 2 == 1 then addPt p r else r

/-- X followed by Y, 48 bytes each, big-endian (SEC 1); zeros for the point at infinity. -/
def pointBytes : Point → List Byte
  | some (x, y) => beBytes 48 x ++ beBytes 48 y
  | none => zeros 96

/-- The point that 96 bytes spell, or none where they are not a point of the curve. -/
def readPoint (b : List Byte) : Point :=
  let x := beNat (b.take 48)
  let y := beNat ((b.drop 48).take 48)
  if onCurve x y then some (x, y) else none

/-- The public key of a private scalar. -/
def p384Pub (d : Nat) : List Byte := pointBytes (mulPt 384 d g384)

/-- ECDH: the 48-byte x-coordinate of the product. -/
def ecdh (d : Nat) (pub : List Byte) : List Byte :=
  match mulPt 384 d (readPoint pub) with
  | some (x, _) => beBytes 48 x
  | none => zeros 48

/-- A number in 1 to n − 1 from random bytes (the extra-random-bits method of FIPS 186-5). -/
def scalarOf (b : List Byte) : Nat := beNat b % (n384 - 1) + 1

/-- ECDSA over SHA-384 with the nonce `k`: r followed by s. -/
def ecdsaSign (d k : Nat) (m : List Byte) : List Byte :=
  match mulPt 384 k g384 with
  | some (x, _) =>
    let r := x % n384
    let s := invMod n384 384 k * ((beNat (sha384 m) + r * d) % n384) % n384
    beBytes 48 r ++ beBytes 48 s
  | none => zeros 96

/-- ECDSA verification over SHA-384 of a 96-byte signature under a 96-byte public key. -/
def ecdsaVerify (pub m sig : List Byte) : Bool :=
  let r := beNat (sig.take 48)
  let s := beNat ((sig.drop 48).take 48)
  match readPoint pub with
  | none => false
  | some q =>
    if r == 0 || s == 0 || r ≥ n384 || s ≥ n384 || sig.length != 96 then false
    else
      let w := invMod n384 384 s
      match addPt (mulPt 384 (beNat (sha384 m) * w % n384) g384) (mulPt 384 (r * w % n384) (some q)) with
      | some (x, _) => x % n384 == r
      | none => false

/-! ## Shamir over GF(2^16) and CRC-32C -/

/-- Multiplication by x in GF(2^16) modulo x^16 + x^12 + x^3 + x + 1 (R110). -/
def gfX (a : Nat) : Nat := if a < 2 ^ 15 then 2 * a else (2 * a) ^^^ 0x1100b

/-- Product in GF(2^16) over `n` bits of the second factor. -/
def gfMulN : Nat → Nat → Nat → Nat
  | 0, _, _ => 0
  | n + 1, a, b => (if b % 2 == 1 then a else 0) ^^^ gfMulN n (gfX a) (b / 2)

/-- Product in GF(2^16). -/
def gfMul (a b : Nat) : Nat := gfMulN 16 a b

/-- Power in GF(2^16) over `n` bits of the exponent. -/
def gfPow : Nat → Nat → Nat → Nat
  | 0, _, _ => 1
  | n + 1, a, e => let r := gfPow n (gfMul a a) (e / 2); if e % 2 == 1 then gfMul a r else r

/-- Inverse in GF(2^16). -/
def gfInv (a : Nat) : Nat := gfPow 16 a (2 ^ 16 - 2)

/-- The Lagrange coefficient at 0 of the point `x` among the points `xs`. -/
def lagrange0 (x : Nat) (xs : List Nat) : Nat :=
  (xs.filter (· != x)).foldl (fun a y => gfMul a (gfMul y (gfInv (y ^^^ x)))) 1

/-- The value at 0 of the polynomial through the points. -/
def shamir0 (pts : List (Nat × Nat)) : Nat :=
  pts.foldl (fun a p => a ^^^ gfMul p.2 (lagrange0 p.1 (pts.map Prod.fst))) 0

/-- Eight steps of the reflected CRC-32C register. -/
def crcStep : Nat → Nat → Nat
  | 0, c => c
  | n + 1, c => crcStep n (if c % 2 == 1 then (c / 2) ^^^ 0x82f63b78 else c / 2)

/-- CRC-32C (the Castagnoli polynomial). -/
def crc32c (m : List Byte) : Nat := (m.foldl (fun c b => crcStep 8 (c ^^^ b.toNat)) 0xffffffff) ^^^ 0xffffffff

end Sys2Proof.Machine.Crypto
end

