-- ==== Sys2Proof/Machine/TypesHost.lean ====
section
/-! DEFINITION. The types of the device-level state: mailbox channels (R406 to R446), key store (R311 to R317),
random-number banks (R292 to R309), power (R447 to R465), boot, reset and non-volatile memory (R466 to R498), SPDM,
management port, JTAG and pins (R319 to R321, R507 to R512). Plain data throughout. -/

namespace Sys2Proof.Machine

/-! ## Status codes -/

/-- Status values (R441). -/
inductive Status where
  | ok | accepted | busy | retryLater | badOpcode | badLength | badParam | badState | notPermitted | wrongPartition
  | authFailed | noResource | tableFull | rngNotReady | rngFailed | keyMismatch | levelExhausted | paramMismatch
  | roundTorn | duplicate | revoking | configSkew | powerDeferred | deviceFault | fatal
  deriving DecidableEq, Repr

/-! ## Mailbox -/

/-- A whole command that waits in a channel's command buffer: as the words the host wrote, or as a command of the
opcode table with its opcode. -/
inductive Waiting where
  | raw (w0 w1 : W64) (payload : List W64)
  | typed (op : Nat) (c : Cmd)
  deriving DecidableEq, Repr

/-- A chain of commands in progress (R430): its opcode, TOTAL and the bytes carried so far. -/
structure Chain where
  op : Nat
  total : Nat
  bytes : List Byte
  deriving DecidableEq, Repr

/-- A command that passed the checks of R426 rows 1 to 8, with what its reply needs: the extended sequence number it was
taken under and the key its reply is sealed under, if it is (R424). -/
structure Req where
  op : Nat
  seq : Nat
  seqExt : Nat
  partition : Nat
  sealed : Bool
  replyKey : Option (List Byte)
  payload : List W64
  last : Bool
  async : Bool
  /-- An FLR has discarded its reply (R409). -/
  discard : Bool
  /-- The clock at which the command was accepted (R301, R336). -/
  since : Nat
  /-- Region packets that the partition had taken by then (R378). -/
  places : Nat
  /-- The chain that an ASYNC command completes (R430, R431): it goes with the command. -/
  chain : Option Chain
  deriving DecidableEq, Repr

/-- What a held command waits for. -/
inductive Hold where
  /-- Fresh entropy for up to 50 ms (R301). -/
  | entropy
  /-- A partition in CREATING to become ACTIVE (R347), or the channel's ASYNC commands to finish (R429). -/
  | retry
  /-- The end of a creation scrub (R350). -/
  | creation (p : Nat)
  /-- The end of a destruction scrub (R353). -/
  | destruction (p : Nat)
  /-- Every partition to become ABSENT (R317). -/
  | zeroise
  /-- The next stack-frame start (R330). -/
  | epochFlip (p : Nat)
  /-- The end of the cadence period (R437): the new module budget. -/
  | budgetModule (watts : Nat)
  /-- The end of the cadence period (R437): a partition's new share. -/
  | budgetShare (p units : Nat)
  /-- A link's training to end (R477). -/
  | linkTraining (l : Nat)
  /-- The reply of a module reset to be appended (R434). -/
  | resetReply (e : BootEvents)
  /-- A partition reset's running task to stop (R476). -/
  | partitionReset (p : Nat)
  /-- A use of a key slot already under way to complete (R317, R330). -/
  | slotUse (slot : Nat)
  /-- The PF's ASYNC commands to finish before a warm or cold reset (chapter 18, "If … while …"). -/
  | resetAsync (e : BootEvents)
  /-- Seed-unit work of a SUPPLY_SHARES command (R111, R114), by its number in the partition. -/
  | seedUnits (supply : Nat)
  deriving DecidableEq, Repr

/-- A command of a channel that has been taken and has not finished. -/
structure Held where
  req : Req
  why : Hold
  deriving DecidableEq, Repr

/-- One MSI-X table entry: address, data, vector mask. -/
structure MsixEntry where
  addr : W64
  data : Nat
  masked : Bool
  deriving DecidableEq, Repr

/-- One mailbox channel with its PCIe function (R406 to R431, R444). -/
structure Channel where
  /-- Words of the command being assembled. -/
  partialCmd : List W64
  /-- Whole commands not yet taken, oldest first. -/
  waiting : List Waiting
  cmdLost : Bool
  /-- The command being processed that waits on a rule. -/
  held : Option Held
  /-- Unfinished ASYNC commands, oldest first (R431). -/
  asyncs : List Held
  /-- Finished replies that have not fitted into the reply buffer (R420). -/
  unplaced : List (List W64)
  /-- Whole replies waiting, each as the words not yet read. -/
  replies : List (List W64)
  rplEmpty : Bool
  /-- Whole events waiting. -/
  events : List (List W64)
  evtEmpty : Bool
  evtDropped : Nat
  eseq : Nat
  irqMask : Nat
  irqCause : Nat
  /-- Cause bits whose message has not been sent (R416). -/
  irqUnsent : Nat
  seqExpect : Nat
  chain : Option Chain
  /-- The 32 telemetry counts (R444, R445). -/
  counts : List Nat
  msix : List MsixEntry
  d3hot : Bool
  deriving DecidableEq, Repr

/-! ## Keys -/

/-- An engine that holds a masked copy of a key (R312): the stack controller of a logical cluster, the MACsec engine of a link, its Binigal
engine, or the keystream engines that a cluster's BLIND or UNBLIND holds, for the length of the job. -/
inductive KeyEngine where
  | stack (c : Nat)
  | macsec (l : Nat)
  | binigal (l : Nat)
  | keystream (c : Nat)
  deriving DecidableEq, Repr

/-- A pannier slot that holds a key, as two shares k xor m and m (R312), with the masked copies in the engines that use it, its
policy (R315), serial, creation time (R324), re-masking period (R313) and the clock of its next re-mask. -/
structure KeySlot where
  kind : Nat
  shareA : List Byte
  shareB : List Byte
  /-- Engine, k xor m, m. -/
  copies : List (KeyEngine × List Byte × List Byte)
  policy : Nat
  serial : Nat
  created : Nat
  period : Nat
  remaskAt : Nat
  deriving DecidableEq, Repr

/-- A partition's attestation log (R322, R323): the number of records, the chained digest and the kept records. -/
structure AttLog where
  count : Nat
  digest : List Byte
  kept : List (List Byte)
  deriving DecidableEq, Repr

/-- A memory-key sweep (R330, R331): the clock of the flip and the pages re-encrypted so far. -/
structure Sweep where
  flipAt : Nat
  pages : Nat
  deriving DecidableEq, Repr

/-- A partition's memory encryption state (R328 to R331): the current epoch E, for each stack rank the pages of the stack
whose epoch bit is 1, a sweep under way, and the completed rotations. -/
structure MemEpoch where
  epoch : Bool
  onePages : List RangeSet
  sweep : Option Sweep
  rotations : Nat
  deriving DecidableEq, Repr

/-- One trace record (R439). -/
structure TraceRec where
  t0 : W64
  t1 : W64
  t2 : W64
  t3 : W64
  deriving DecidableEq, Repr

/-- A partition's energy account (R451, R453, R457). -/
structure Account where
  units : Nat
  /-- Microjoules. -/
  balance : Int
  /-- Microjoules charged since creation. -/
  charged : Nat
  /-- Requested P-state. -/
  reqP : Nat
  /-- P-state in effect. -/
  curP : Nat
  /-- Completed runs by program, most recently run first: (charge at 1.6 GHz in microjoules, cycles) of the last 8. -/
  history : List (W64 × List (Nat × Nat))
  deriving DecidableEq, Repr

/-! ## Random numbers -/

/-- SRC_STATE (R299). -/
inductive SrcState where
  | startup | running | restarting | retired
  deriving DecidableEq, Repr

/-- A noise source with its test state (R293, R294, R300, R303). -/
structure Source where
  st : SrcState
  /-- A restarted source settles until this clock before its startup test (R300). -/
  settleUntil : Option Nat
  lastBit : Bool
  run : Nat
  /-- Blocks formed in all. -/
  blocks : Nat
  /-- Block numbers of the failures among the last 2^20 blocks, newest first. -/
  fails : List Nat
  /-- Startup blocks passed so far. -/
  passed : Nat
  /-- Output bits held until the startup test has passed. -/
  heldBits : List Bool
  deriving DecidableEq, Repr

/-- What a bank serves (R292, R298). -/
inductive BankRole where
  | owned (p : Nat) | unallocated | spare | none
  deriving DecidableEq, Repr

/-- A random-number bank (R292 to R299). -/
structure Bank where
  role : BankRole
  src0 : Source
  src1 : Source
  /-- A source has passed its startup test. -/
  started : Bool
  /-- Released bits not yet delivered, oldest first. -/
  buf : List Bool
  empty : Bool
  /-- Words delivered, of which every 64th goes to the device pool. -/
  delivered : Nat
  deriving DecidableEq, Repr

/-! ## Power -/

/-- The emergency throttle in force (R460): when it began, its sensor and reading, and since when every sensor is cool. -/
structure Throttle where
  since : Nat
  stack : Bool
  site : Nat
  reading : Nat
  coolSince : Option Nat
  lowest : Nat
  deriving DecidableEq, Repr

/-- The supply-warning hold in force (R462 to R464). -/
structure SupplyHold where
  since : Nat
  lowest : Nat
  highSince : Option Nat
  deriving DecidableEq, Repr

/-- The reporting state of one residual event kind (R357): when the last begin was posted, whether a begin is deferred,
and whether the last post was a begin. -/
structure Residual where
  lastBegin : Option Nat
  deferred : Bool
  begun : Bool
  deriving DecidableEq, Repr

/-- The power and thermal controller (R447 to R465). -/
structure Power where
  budget : Nat
  /-- Millijoules delivered since cold reset (R437). -/
  deliveredMj : Nat
  throttle : Option Throttle
  hold : Option SupplyHold
  /-- Since when the input has been at or below 10.8 V. -/
  lowSince : Option Nat
  /-- The last supply sample in millivolts. -/
  lastMv : Nat
  /-- When the last hold ended, while dispatch stays stopped until the end of the next cadence period (R464). -/
  resumeAfter : Option Nat
  logic : List Nat
  stack : List Nat
  nextPeriod : Nat
  nextSensor : Nat
  nextSupply : Nat
  resThrottle : Residual
  resHold : Residual
  deriving DecidableEq, Repr

/-! ## Non-volatile memory, boot and reset -/

/-- A kickstand log record (R488); its CRC and MARK are computed when it is read. -/
structure LogRec where
  seq : Nat
  kind : Nat
  cls : Nat
  source : Nat
  suppressed : Nat
  lifetime : Nat
  utc : Int
  data : List W64
  deriving DecidableEq, Repr

/-- Rate limiting of one record kind (R494): the second, the records written in it, the records withheld since. -/
structure LogRate where
  second : Nat
  count : Nat
  withheld : Nat
  deriving DecidableEq, Repr

/-- A repair or retirement held in the log (R468, R491). -/
structure Repair where
  pool : Nat
  site : Nat
  element : Nat
  retire : Bool
  deriving DecidableEq, Repr

/-- The lifetime counters (R486, R495, R496). -/
structure Lifetime where
  seconds : Nat
  energyMj : Nat
  nvmWrites : Nat
  coldResets : Nat
  warmResets : Nat
  trips : Nat
  brownouts : Nat
  throttles : Nat
  holds : Nat
  utc : Int
  /-- Seconds at or above 85 °C per stack, in units of 10 µs samples. -/
  hotSamples : List Nat
  /-- Highest stack reading ever, per stack. -/
  stackMax : List Nat
  /-- Highest logic reading ever, per site. -/
  logicMax : List Nat
  fecCorrected : List Nat
  fecUncorrected : List Nat
  linkDowns : List Nat
  /-- Records withheld over the lifetime (R494). -/
  withheld : Nat
  deriving DecidableEq, Repr

/-- What stands in a configuration slot (R478): the fields of the header, and the body. -/
structure ConfigRec where
  magic : Nat
  format : Nat
  /-- The reserved bytes, as one number. -/
  reserved : Nat
  seq : Nat
  length : Nat
  digest : List Byte
  fp : List Byte
  /-- The nonce under which the identity key made SIGNATURE over bytes 0 to 127; none where other bytes stand in its place. -/
  nonce : Option Nat
  body : List Byte
  deriving DecidableEq, Repr

/-- A firmware slot: an image that passed the static checks 1 to 4 of R338, with the header fields later checks use. -/
structure FwImage where
  signer : Nat
  revoke : Nat
  svn : Nat
  version : W64
  bodyDigest : List Byte
  deriving DecidableEq, Repr

/-- A copy of what the NVM keeps twice: its write count, whether its CRC-32C matches, and the contents (R487, chapter 18). -/
structure Copy (α : Type) where
  count : Nat
  intact : Bool
  value : α
  deriving DecidableEq, Repr

/-- Contents that the NVM keeps in two copies (R487, chapter 18). -/
structure Copies (α : Type) where
  a : Copy α
  b : Copy α
  deriving DecidableEq, Repr

/-- The boot-control record: the committed slot (chapter 18, "Firmware slots at boot"). -/
abbrev BootControl := Copies Nat

/-- A copy of the counter store: the lifetime counters, and the log's head pointer as the ring word and the SEQ of the next append (R486). -/
structure Stored where
  life : Lifetime
  head : Nat
  seq : Nat
  deriving DecidableEq, Repr

/-- The counter store (R486, R487). -/
abbrev CounterStore := Copies Stored

/-- The repair state that the log holds (R468, R492): repairs and retirements, and the site map. -/
structure Spares where
  repairs : List Repair
  retiredSites : List Nat
  siteMap : List Nat
  deriving DecidableEq, Repr

/-- The fuse steps of R485 that an interrupted commit still owes: the committed slot, and the fuses as they are blown until its image boots. -/
structure FusesDue where
  slot : Nat
  antiRollback : Nat
  revoked : Nat
  deriving DecidableEq, Repr

/-- A write of the NVM, with what it replaces (R481, R485, R486, R487, R489). -/
inductive NvmWrite where
  /-- An append of a number of words: the records it overwrote, the head and the SNAPSHOT's state before. -/
  | append (words : Nat) (lost : List LogRec) (head : Nat) (snap : Spares)
  | store (old : CounterStore)
  | config (slot : Nat) (old : Option ConfigRec) (new : ConfigRec)
  | control (old : BootControl)
  | fuses (due : FusesDue)
  deriving DecidableEq, Repr

/-- Non-volatile memory and fuses. -/
structure Nvm where
  log : List LogRec
  logSeq : Nat
  /-- The ring word of the next append (R486). -/
  head : Nat
  /-- The repair state as the newest SNAPSHOT found it (R492). -/
  snap : Spares
  /-- The repairs fused at manufacture (R468). -/
  fused : List Repair
  /-- The writes begun at one moment of wall time, the newest first, and that moment: a power loss at it cuts them short (R489). -/
  writes : List NvmWrite
  writesAt : Nat
  rates : Assoc LogRate
  life : Lifetime
  store : CounterStore
  nextStore : Nat
  nextSecond : Nat
  cfg : List (Option ConfigRec)
  /-- Configuration slots that no longer hold what is written to them (R481: a read-back fails). -/
  cfgWorn : List Nat
  fw : List (Option FwImage)
  bootCtl : BootControl
  repairs : List Repair
  retiredSites : List Nat
  pendingRetire : List Nat
  siteMap : List Nat
  /-- Retired sources as (bank, source). -/
  retiredSources : List (Nat × Nat)
  /-- Physical numbers of the spare banks: two that fuses name, without those that have taken over or retired since (R292, R304). -/
  spareBanks : List Nat
  /-- Lifetime count of partitions created (R307). -/
  creations : Nat
  /-- Lifetime count of keys generated: SERIAL (R316). -/
  serials : Nat
  /-- SESSION_NO of the PF (R326). -/
  pfSessions : Nat
  /-- Anti-rollback fuses, those that a commit still owes among them (R339). -/
  antiRollback : Nat
  /-- Revoke fuses, a mask of signers, those that a commit still owes among them (R339). -/
  revoked : Nat
  fusesDue : Option FusesDue
  deriving DecidableEq, Repr

/-- The part's phase. -/
inductive Phase where
  /-- 12 V absent. -/
  | off
  /-- RESET_N held low: the part holds at step 2 of R466. -/
  | inReset
  /-- Off after a thermal trip (R461). -/
  | tripped
  /-- Between step 3 of R466 and a ready mailbox, or a boot that stopped (R470). -/
  | booting
  /-- The mailbox is ready and the part is in service. -/
  | ready
  /-- The mailbox is ready and the part is not in service (R29, R480). -/
  | deviceFault
  /-- The firmware has stopped the device (R414). -/
  | fatal
  deriving DecidableEq, Repr

/-- Boot and reset state (R466 to R477, R507, R510). -/
structure Boot where
  phase : Phase
  step : Nat
  failStep : Nat
  /-- The clock from which BOOT_PROGRESS.MS counts. -/
  start : Nat
  /-- The clock at which the mailbox became ready: the origin of the service-core and RTP rotations (R518, R344). -/
  readyAt : Nat
  fwSlot : Nat
  cfgSlot : Nat
  /-- The configuration slot active before the reset, for CONFIG_FALLBACK (R480). -/
  cfgBefore : Option Nat
  /-- Consecutive boot timeouts on slots A and B. -/
  timeouts : List Nat
  /-- The firmware slot that a boot tries first. -/
  bootSlot : Nat
  /-- The clock from which the current boot's 1.5 s count (R471). -/
  attemptAt : Nat
  /-- RESET_N is low. -/
  resetLow : Bool
  /-- RESET_N has been released after a thermal trip while a sensor still read 100 °C or more (chapter 20). -/
  restartDue : Bool
  perst : Bool
  pwrGood : Bool
  thermTrip : Bool
  /-- The PCIe link runs with a common reference clock. -/
  refclkCommon : Bool
  /-- The level of a pin: a clock is present on REFCLK (R507). -/
  refclkPin : Bool
  /-- The boot under way is that of a warm reset (R475). -/
  warm : Bool
  pcieUp : Bool
  numVfs : Nat
  /-- Bus Master Enable, one per function. -/
  bme : List Bool
  scrambleKey : List Byte
  /-- The noise sources run, from +410 ms of a cold start on (R300). -/
  noise : Bool
  deriving DecidableEq, Repr

/-! ## SPDM, management port, JTAG, debug -/

/-- An SPDM connection (R320): which of its first three requests have been answered, and the messages that later signatures cover:
those three exchanges, the certificate exchanges since, and the measurement exchanges since the last signed one. -/
structure Spdm where
  version : Bool
  caps : Bool
  algos : Bool
  vca : List Byte
  certs : List Byte
  meas : List Byte
  deriving DecidableEq, Repr

/-- The I3C target (R508). -/
structure I3c where
  /-- It answers: step 3 of R466 has come since 12 V became valid. -/
  up : Bool
  dynAddr : Option Nat
  mwl : Nat
  mrl : Nat
  events : Nat
  deriving DecidableEq, Repr

/-- The debug and test access state (R340, R512). -/
structure Debug where
  nonce : Option (List Byte × Nat)
  unlocked : Bool
  jtag : JtagInstr
  /-- The boundary-scan register's update stage. -/
  boundary : List Bool
  deriving DecidableEq, Repr

end Sys2Proof.Machine
end

