-- ==== Sys2Proof/Machine/TypesRound.lean ====
section
/-! DEFINITION. The types of rounds, the client ledger, the freewheel path and recovery (R33 to R121). -/

namespace Sys2Proof.Machine

/-- Client state STATE (R41). -/
inductive ClientState where
  | absent | arriving | complete | torn
  deriving DecidableEq, Repr

/-- A ledger entry (R40): its fields apart from the unlisted reserved ones. -/
structure LedgerEntry where
  st : ClientState
  tag : Nat
  chunks : Nat
  bitmapPtr : Nat
  gwHint : Nat
  nset : Nat
  /-- FLAGS (R42). -/
  flags : Nat
  deriving DecidableEq, Repr

/-- A counter named by logical cluster and index (R266). -/
structure CtrRef where
  cluster : Nat
  index : Nat
  deriving DecidableEq, Repr

/-- A fold window (R71) with its registration index and the round that holds it, if one does (R74). -/
structure Window where
  elem : Nat
  vecChunks : Nat
  vecOffset : Nat
  accAddr : Nat
  limbs : Nat
  stride : Nat
  perLimb : Nat
  mods : List Nat
  reg : Nat
  deriving DecidableEq, Repr

/-- The partition's arrival queue (R93). -/
structure ArrivalQueue where
  log2 : Nat
  addr : Nat
  arrival : CtrRef
  release : CtrRef
  /-- The bases A0 and L0. -/
  a0 : Nat
  l0 : Nat
  /-- Records written so far. -/
  m : Nat
  /-- Credits held by packets past the window stage whose record is not written yet (R85). -/
  taken : Nat
  /-- Its number among the partition's queues: registrations made before it. -/
  serial : Nat
  deriving DecidableEq, Repr

/-- A closed range of a round (R56, R57): the range as events carry it, the chunk indices it closed, and how far it has
come. -/
structure ClosedRange where
  first : Nat
  count : Nat
  idx : RangeSet
  /-- Packets with a lower number went through their ledger stage before the close point (R56). -/
  closeId : Nat
  /-- RANGE_CLOSED has been posted. -/
  posted : Bool
  /-- The clock at which the mend window ends. -/
  mendEnd : Nat
  /-- The mend window has ended; packets with a lower number went through their ledger stage before that (R57). -/
  endId : Option Nat
  /-- RANGE_FINAL has been posted. -/
  final : Bool
  /-- This close left no chunk index open (R58). -/
  last : Bool
  /-- The clock of its recovery deadline, from RANGE_FINAL on (R120). -/
  deadline : Option Nat
  /-- The deadline has passed and a supply command accepted before it is still to finish. -/
  overdue : Bool
  deriving DecidableEq, Repr

/-- What RECOVER START gave a round (R104), with everything recovery holds (R106, R111 to R113). Secrets lie in the seed
table, which nothing but recovery reads; the model keeps them here by name. -/
structure Recovery where
  threshold : Nat
  seedTable : Nat
  pk : Option Nat
  salt : List Byte
  lastSeeds : Option Nat
  lastShares : Option Nat
  /-- Self seeds held, by client index. -/
  self : Assoc (List Byte)
  /-- Pair seeds held, by lower index × 2^21 + higher index. -/
  pair : Assoc (List Byte)
  /-- X25519 secret keys reconstructed, by client index. -/
  keys : Assoc (List Byte)
  /-- Pairs whose agreement gave zero (R113), by the same key. -/
  badPoint : List Nat
  /-- Chunk indices to which a self seed has been applied. -/
  selfDone : Assoc RangeSet
  /-- Chunk indices to which a pair seed has been applied. -/
  pairDone : Assoc RangeSet
  deriving DecidableEq, Repr

/-- How a round ends (R63 to R65). -/
inductive Ending where
  | released | torn (cause : Nat) | aborted (cause : Nat)
  deriving DecidableEq, Repr

/-- A round that holds a slot (R33, R35, R47). -/
structure Round where
  tag : Nat
  dropout : Bool
  admitLate : Bool
  mendMs : Nat
  prg : Nat
  elem : Nat
  base : Nat
  clients : Nat
  recoveryMs : Nat
  chunks : Nat
  wins : List Nat
  minSurvivors : Nat
  graphAddr : Nat
  bitmapAddr : Nat
  /-- The graph header's form (explicit or not), DEGREE and SETS (R50), and the graph's body (R51). -/
  explicit : Bool
  degree : Nat
  sets : Nat
  graph : List Byte
  opening : Bool
  openedAt : Nat
  openedSec : Nat
  ranges : List ClosedRange
  recovery : Option Recovery
  ready : Bool
  /-- Chunk indices final at the last MATERIAL_COMPLETE (R119). -/
  complete : Nat
  accepted : Nat
  duplicates : Nat
  late : Nat
  early : Nat
  /-- Least survivor count over final chunk indices (S6). -/
  least : Option Nat
  /-- Milliseconds to the final close point, and to READY or the ending (S8). -/
  closeMs : Nat
  readyMs : Nat
  /-- An ending that waits for the chunks past their ledger stage (R65, R97), with its egress descriptors (R436). -/
  ending : Option Ending
  egress : List (List W64)
  deriving DecidableEq, Repr

/-- What ROUND_STATUS still answers of an ended round (R67): its tag and the words of R68. -/
structure EndedRound where
  tag : Nat
  summary : List W64
  deriving DecidableEq, Repr

/-- A place in the fold queue (R89, R376): a packet for a fold window, or one for a region. -/
inductive QItem where
  /-- Window, its rkey, client, client-vector chunk index, immediate, payload, local index of the queue pair, and the number of the arrival
  queue of which it holds a credit, if it carries an immediate. -/
  | fold (win rkey client chunk : Nat) (imm : Option Nat) (payload : List Byte) (qp queue : Nat)
  /-- Its number among the partition's region packets (R378), registration index, partition address, payload, whether it signals the
  region's counter, queue pair, and whether it ends its message. -/
  | place (id reg addr : Nat) (payload : List Byte) (signal : Bool) (qp : Nat) (last : Bool)
  deriving DecidableEq, Repr

/-- A chunk past its ledger stage and not yet committed (R86). -/
structure Chunk where
  /-- Its number in the order of ledger stages. -/
  id : Nat
  tag : Nat
  win : Nat
  client : Nat
  chunk : Nat
  imm : Option Nat
  payload : List Byte
  qp : Nat
  /-- 1 past the ledger stage, 2 past the bitmap stage, 3 past the fold stage. -/
  stage : Nat
  /-- OUTCOME (R92): 0 accepted, 1 duplicate, 2 late. -/
  outcome : Nat
  /-- Its ledger stage came within a mend window. -/
  mend : Bool
  deriving DecidableEq, Repr

/-- A share bundle (R110): its kind, owner and (holder, share) entries. -/
structure Bundle where
  kind : Nat
  owner : Nat
  shares : List (Nat × List Byte)
  deriving DecidableEq, Repr

/-- Work of a seed unit (R113, R114). -/
inductive SeedWork where
  /-- A reconstruction for a supply command. -/
  | rebuild (supply : Nat) (b : Bundle)
  /-- An agreement for a pair, with the client whose key it uses. -/
  | agree (lo hi keyOf : Nat)
  deriving DecidableEq, Repr

/-- Seed-unit work under way or waiting: the round's tag, since when it waits, the unit's cluster rank and the clock of its end once
assigned. -/
structure SeedJob where
  tag : Nat
  work : SeedWork
  since : Nat
  unit : Option Nat
  ends : Nat
  deriving DecidableEq, Repr

/-- The counts of a supply command whose bundles are being reconstructed (R111). -/
structure Supply where
  id : Nat
  tag : Nat
  held : Nat
  duplicates : Nat
  discarded : Nat
  inconsistent : Nat
  remaining : Nat
  /-- Secrets reconstructed for it and not usable before its reply (R111): KIND, owner, value. -/
  kept : List (Nat × Nat × List Byte)
  deriving DecidableEq, Repr

/-- What a partition holds of rounds and the freewheel path. -/
structure RoundPart where
  /-- Ledger entries by client index; an unlisted one holds its reset value (R40). -/
  ledger : Assoc LedgerEntry
  windows : Assoc Window
  aq : Option ArrivalQueue
  /-- Rounds that are not final, at most four (R35). -/
  rounds : List Round
  ended : List EndedRound
  foldQ : List QItem
  /-- Links on which a pause of the fold queue is in force, as (link, priority), and since when (R89). -/
  paused : List (Nat × Nat)
  pausedAt : Nat
  inFlight : List Chunk
  nextId : Nat
  /-- Region packets taken so far (R378). -/
  nextPlace : Nat
  seedJobs : List SeedJob
  supplies : List Supply
  nextSupply : Nat
  /-- Kept Lagrange coefficient sets per seed unit, most recently used first (R114): holder set and point. -/
  kept : Assoc (List (List Nat × Nat))
  /-- Per seed unit, the clock from which it is free of its last work (R114); an unlisted one never worked. -/
  unitFree : Assoc Nat
  deriving DecidableEq, Repr

/-- A partition without rounds or windows. -/
def RoundPart.empty : RoundPart :=
  { ledger := [], windows := [], aq := none, rounds := [], ended := [], foldQ := [], paused := [], pausedAt := 0,
    inFlight := [], nextId := 0, nextPlace := 0, seedJobs := [], supplies := [], nextSupply := 0, kept := [], unitFree := [] }

/-- A ledger entry's reset value (R40). -/
def LedgerEntry.reset : LedgerEntry := ⟨.absent, 0, 0, 0, 0, 0, 0⟩

end Sys2Proof.Machine
end

