-- ==== Sys2Proof/Machine/TypesNet.lean ====
section
/-! DEFINITION. The types of the network ports, queue pairs, registrations, egress and Binigal links (R359 to R397). -/

namespace Sys2Proof.Machine

/-- STATE of a link (R363). -/
inductive LinkState where
  | down | training | securing | up | failed
  deriving DecidableEq, Repr

/-- A packet the part sends as a requester. -/
structure TxPacket where
  psn : Nat
  /-- What it is, with its remote address, key and message length on a first packet or FLUSH. -/
  op : RdmaOp
  va : Nat
  rkey : Nat
  len : Nat
  imm : Option Nat
  payload : List Byte
  deriving DecidableEq, Repr

/-- The Ethernet, VLAN, IP and UDP fields of a RoCEv2 packet that the part sends (R360): destination and source MAC, PCP and VID where
the link is tagged, IP version and addresses, DSCP, ECN field, and UDP source port (the destination port is 4791). -/
structure RoceHdr where
  dmac : Nat
  smac : Nat
  vlan : Option (Nat × Nat)
  v6 : Bool
  src : Nat
  dst : Nat
  dscp : Nat
  ecn : Nat
  udpSrc : Nat
  deriving DecidableEq, Repr

/-- What the part shows to the outside: messages, frames and responses, newest first (a record of the model's own). -/
inductive Output where
  /-- An MSI-X memory write (R416): function, vector, address and data. -/
  | msix (fn vector : Nat) (addr : W64) (data : Nat)
  /-- The value a register read returned. -/
  | readData (value : W64)
  /-- The value an internal read of a random-number register gave the RTP (R297, R298). -/
  | rtpRead (value : W64)
  /-- A DOE or MCTP SPDM response of an endpoint. -/
  | spdm (endpoint : Nat) (bytes : List Byte)
  /-- An in-band interrupt of the I3C target at its dynamic address: MCTP pending-read notification (R508). -/
  | ibi (addr : Nat)
  /-- An MCTP response at the management port (R498). -/
  | mctp (words : List W64)
  /-- A PLDM response at the management port (R508). -/
  | pldm (bytes : List Byte)
  /-- Bytes returned on the I3C bus (R508). -/
  | i3c (bytes : List Byte)
  /-- Bits shifted out of JTAG (R512). -/
  | jtag (bits : List Bool)
  /-- A RoCEv2 packet sent on a link (R365): its headers, destination QPN and packet. -/
  | packet (link : Nat) (h : RoceHdr) (destQpn : Nat) (p : TxPacket)
  /-- An acknowledgement, NAK or CNP sent as responder: link, headers, destination QPN, PSN, and the AETH syndrome (`none` for a
  CNP). -/
  | answer (link : Nat) (h : RoceHdr) (destQpn psn : Nat) (syndrome : Option Nat)
  /-- A priority pause or resume sent on a link (R89). -/
  | pause (link prio : Nat) (on : Bool)
  /-- An answer to an ARP request or a neighbour solicitation (R360): link, destination and source MAC, PCP and VID where the link is tagged,
  whether it is of IPv6, the link's address, and the MAC that it answers with. -/
  | neighbour (link dmac smac : Nat) (vlan : Option (Nat × Nat)) (v6 : Bool) (addr mac : Nat)
  /-- A SAK that the part distributes by MKA as key server (R332, R364): link, its key-server priority, the association number, and
  the SAK wrapped under the KEK. -/
  | sak (link prio an : Nat) (wrapped : List Byte)
  /-- A frame protected by IEEE 802.1AE under GCM-AES-XPN-256 with the SAK of an association number (R364): the SCI, association number
  and packet number of its SecTAG, the encrypted data and the ICV, and the frame that they protect. -/
  | secured (sci an pn : Nat) (data icv : List Byte) (o : Output)
  /-- A Binigal frame sent on a link, as its bytes (R393): header, encrypted payload and tag. -/
  | binigal (link : Nat) (bytes : List Byte)
  deriving DecidableEq, Repr

/-- The Binigal side of a link (R333, R393 to R396, R400). -/
structure Binigal where
  keyed : Bool
  /-- This side's ephemeral private key while keying; 0 where no exchange is open. -/
  eph : Nat
  nonce : List Byte
  /-- DEVICE_FP of the keyed peer. -/
  peer : List Byte
  seqTx : Nat
  /-- The next SEQ to deliver. -/
  seqRx : Nat
  txc : Nat
  /-- Frames not acknowledged, oldest first; those after the first 256 have not been sent yet. -/
  replay : List BFrame
  /-- A NAK is outstanding: later frames are discarded until the missing one arrives. -/
  nakOut : Bool
  resends : Nat
  /-- The clock of the last progress: an acknowledgement, or the sending of the oldest frame. -/
  since : Nat
  /-- Half the measured round trip, in group-time cycles. -/
  delay : Nat
  deriving DecidableEq, Repr

/-- A link (R359 to R364). -/
structure Link where
  mode : Nat
  st : LinkState
  /-- The partner's signal is present. -/
  signal : Bool
  trainAt : Nat
  spareInUse : Bool
  /-- A SAK is installed in both directions. -/
  secured : Bool
  /-- Association number of the newest SAK. -/
  an : Nat
  /-- While the SAK before the newest is still in use for receiving: its lowest acceptable packet number. -/
  oldPn : Option Nat
  /-- The part is MKA key server on the link (R332). -/
  keyServer : Bool
  /-- The SCI of the MKA peer. -/
  peerSci : Nat
  /-- A CAK has been installed since the last SAK (R364). -/
  newCak : Bool
  macsec : Bool
  pfcMask : Nat
  dscpData : Nat
  dscpCnp : Nat
  tagged : Bool
  vid : Nat
  mac : Nat
  nextHop : Nat
  ipv4 : Nat
  ipv6 : Nat
  ckn : List Byte
  rxFrames : Nat
  rxDiscards : Nat
  /-- Next packet numbers sent under the current SAK, and the lowest acceptable one received (R364: window of 0). -/
  pnTx : Nat
  pnRx : Nat
  /-- Priorities paused by a received PFC frame, with the clock at which each pause ends. -/
  paused : List (Nat × Nat)
  /-- What waits for the end of such a pause, oldest first, as (priority, transmission). -/
  held : List (Nat × Output)
  bin : Binigal
  deriving DecidableEq, Repr

/-- The link's secure channel identifier (R364): its MAC address, then port 1 (PRESUMED: IEEE 802.1AE; the manual names the SCI alone). -/
def Link.sci (k : Link) : Nat := k.mac * 2 ^ 16 + 1

/-- Where the newest SAK of link `l` stands (R311): in the slot of the next SAK while the one before it is still in use. -/
def Link.sakSlot (k : Link) (l : Nat) : Nat := if k.oldPn.isSome then 33 + 2 * l else 32 + 2 * l

/-- State of a queue pair (R370). -/
inductive QpState where
  | init | rtr | rts | error
  deriving DecidableEq, Repr

/-- A message being received on a queue pair: rkey, remote virtual address, RETH length, bytes taken, whether the revocation of its
region has been abandoned for it, and whether its first packet passed the window stage. -/
structure InMsg where
  rkey : Nat
  va : Nat
  len : Nat
  got : Nat
  dead : Bool
  win : Bool
  deriving DecidableEq, Repr

/-- What a send is for: an egress descriptor (EGRESS_ID), or a refresh ticket (logical cluster, ticket, EPOCH, SENT_CTR, task). -/
inductive SendKind where
  | egress (id : Nat)
  | refresh (cluster ticket epoch sentCtr task : Nat)
  deriving DecidableEq, Repr

/-- A refresh message to be sent (R223, R237): its ticket and EPOCH, its buffer, where it goes, its counter and task. -/
structure RefreshSend where
  cluster : Nat
  ticket : Nat
  epoch : Nat
  addr : Nat
  length : Nat
  va : Nat
  rkey : Nat
  imm : Nat
  /-- The allowlist entry named as PEER. -/
  peer : Nat
  sentCtr : Nat
  task : Nat
  deriving DecidableEq, Repr

/-- What waits on a queue pair to be sent, in posting order (R372, R384, R237). -/
inductive SendReq where
  | descriptor (e : List W64)
  | refresh (r : RefreshSend)
  deriving DecidableEq, Repr

/-- A send under way on a queue pair (R384, R237). -/
structure Send where
  kind : SendKind
  /-- Local key slots in use until it ends (R317). -/
  slots : List Nat
  /-- Bytes of the whole message, and those acknowledged. -/
  length : Nat
  acked : Nat
  /-- Packets sent and not acknowledged, oldest first; the FLUSH is the last. -/
  unacked : List TxPacket
  retries : Nat
  rnrs : Nat
  /-- Start of the local ACK timer. -/
  timer : Nat
  rnrUntil : Option Nat
  deriving DecidableEq, Repr

/-- The rate controller of a queue pair (R385), rates in Mbit/s as exact fractions (numerator over 2^40) and alpha over
2^40. -/
structure Rate where
  current : Nat
  target : Nat
  alpha : Nat
  stageT : Nat
  stageB : Nat
  lastCnpIn : Option Nat
  lastCnpOut : Option Nat
  alphaAt : Nat
  rateAt : Nat
  bytes : Nat
  deriving DecidableEq, Repr

/-- A queue pair (R369 to R372). -/
structure Qp where
  st : QpState
  mtu : Nat
  retry : Nat
  rnrRetry : Nat
  timeout : Nat
  rnrTimer : Nat
  ipv6 : Bool
  prio : Nat
  link : Nat
  destQpn : Nat
  peer0 : W64
  peer1 : W64
  ePsn : Nat
  /-- A PSN Sequence Error NAK has been sent for the expected PSN (R366). -/
  seqNak : Bool
  msg : Option InMsg
  /-- Packets taken since the last acknowledgement (R368). -/
  sinceAck : Nat
  sqPsn : Nat
  egress : List SendReq
  sending : Option Send
  rate : Rate
  deriving DecidableEq, Repr

/-- A region being revoked (R379, R380): when it began, the packets placed and abandoned since. -/
structure Revoking where
  at' : Nat
  placed : Nat
  abandoned : Nat
  deriving DecidableEq, Repr

/-- A region (R375). -/
structure Region where
  counter : Option CtrRef
  base : Nat
  length : Nat
  qpLock : Option Nat
  revoking : Option Revoking
  deriving DecidableEq, Repr

/-- What a registration index holds (R374). -/
inductive RegBody where
  | window (id : Nat)
  | region (r : Region)
  deriving DecidableEq, Repr

/-- A registration: its TAG and what it names. -/
structure Reg where
  tag : Nat
  body : RegBody
  deriving DecidableEq, Repr

/-- An egress allowlist entry (R381). -/
structure AllowEntry where
  ipv6 : Bool
  kind : Nat
  ip0 : W64
  ip1 : W64
  pub : List Byte
  deriving DecidableEq, Repr

/-- Congestion-control parameters of a partition (R386). -/
structure CcParams where
  rateAi : Nat
  rateHai : Nat
  minRate : Nat
  byteCounter : Nat
  alphaTimer : Nat
  rateTimer : Nat
  cnpInterval : Nat
  g : Nat
  f : Nat
  deriving DecidableEq, Repr

/-- What a partition holds of the network (R369 to R388). -/
structure NetPart where
  qps : Assoc Qp
  /-- Address of the context backing store (R371). -/
  store : Option Nat
  regs : Assoc Reg
  /-- Generation of each registration index; 0 where not listed. -/
  gens : Assoc Nat
  regCount : Nat
  /-- Cached contexts, most recently used first (R373). -/
  cache : List Nat
  /-- Fetches in flight: queue pair and the clock of its end. -/
  fetches : List (Nat × Nat)
  /-- Frames that wait for a context, oldest first, as (queue pair, frame). -/
  waiting : List (Nat × Frame)
  /-- Queue pairs whose next send waits for its context. -/
  sendWaiting : List Nat
  allow : Assoc AllowEntry
  cc : CcParams
  egressSerial : Nat
  deriving DecidableEq, Repr

/-- The default congestion parameters (R386). -/
def CcParams.default : CcParams := ⟨40, 400, 100, 160, 55, 100, 50, 8, 5⟩

/-- A partition's network state at its creation. -/
def NetPart.empty : NetPart :=
  { qps := [], store := none, regs := [], gens := [], regCount := 0, cache := [], fetches := [], waiting := [],
    sendWaiting := [], allow := [], cc := CcParams.default, egressSerial := 0 }

/-- A Binigal link that is not keyed. -/
def Binigal.reset : Binigal :=
  { keyed := false, eph := 0, nonce := [], peer := [], seqTx := 0, seqRx := 0, txc := 0, replay := [], nakOut := false,
    resends := 0, since := 0, delay := 0 }

/-- A link after cold reset: DOWN, no settings (R467). -/
def Link.reset : Link :=
  { mode := 0, st := .down, signal := false, trainAt := 0, spareInUse := false, secured := false, an := 0,
    oldPn := none, keyServer := true, peerSci := 0, newCak := false, macsec := false,
    pfcMask := 0, dscpData := 0, dscpCnp := 0, tagged := false, vid := 0, mac := 0, nextHop := 0, ipv4 := 0, ipv6 := 0,
    ckn := [], rxFrames := 0, rxDiscards := 0, pnTx := 1, pnRx := 1, paused := [], held := [], bin := Binigal.reset }

end Sys2Proof.Machine
end

