-- ==== Sys2Proof/Config.lean ====
section
/-! DEFINITION. What one part fixes and the manual leaves open: fuses and manufacturing data as constants without a
body, and the free values of results the manual does not state. Nothing in Lean can evaluate them. -/

namespace Sys2Proof.Config

/-- The 384-bit fuse seed (R318): secret, different in every part. -/
opaque fuseSeed : BitVec 384

/-- The fused SHA-384 hashes of the four signer keys (R338). -/
opaque signerHash : Nat → BitVec 384

/-- The fused SHA-384 hash of the debug authority's key (R340). -/
opaque debugAuthorityHash : BitVec 384

/-- The admin key named by the purchaser, in configuration record A at manufacture: X followed by Y (chapter 18). -/
opaque adminKey : BitVec 768

/-- The nonce of the SIGNATURE of configuration record A, made at manufacture (R478). -/
opaque recordANonce : Nat

/-- Digest of the RTP ROM: SPDM measurement 1 (R321). -/
opaque romDigest : BitVec 384

/-- VERSION of the Jenano release the part ships with (R337). -/
opaque shippedVersion : BitVec 64

/-- SVN of the Jenano release the part ships with (R337). -/
opaque shippedSvn : BitVec 7

/-- BODY_DIGEST of the Jenano release the part ships with (R337). -/
opaque shippedDigest : BitVec 384

/-- Rafiward's root key (R319): a private P-384 key that never enters the part. -/
opaque rootKey : Nat

/-- The key of the Skapavos product CA (R319), which never enters the part. -/
opaque productKey : Nat

/-- What the manual does not state of the three certificates (R319), by certificate: root, product CA, device: serial number. -/
opaque certSerial : Nat → Nat

/-- See `certSerial`: the two times of the validity, in DER. -/
opaque certValidity : Nat → List Byte

/-- See `certSerial`: the parts of the subject's name, in DER; of the device those besides its serial number. -/
opaque certSubject : Nat → List Byte

/-- See `certSerial`: extensions besides the key usage of the device, in DER. -/
opaque certExtensions : Nat → List Byte

/-- See `certSerial`: the nonce of the signature. -/
opaque certNonce : Nat → Nat

/-- The bytes behind its MAC addresses of a frame that the part sends: the manual leaves their layout to the standards it names. -/
opaque sentBytes : Machine.Output → List Byte

/-- See `sentBytes`: those of a received frame, by its VLAN tag and its body. -/
opaque receivedBytes : Option Nat → FrameBody → List Byte

/-- The salt of GCM-AES-XPN-256 that MKA gives with a SAK (R332): the standard forms it from values the manual does not name. -/
opaque sakSalt : List Byte → BitVec 96

/-- Rafiward's MIPI manufacturer ID, 15 bits (R508): the manual gives no number. -/
opaque mipiManufacturer : BitVec 15

/-- The bus and device characteristics registers of the I3C target (R508): the manual gives no values. -/
opaque i3cBcr : BitVec 8

/-- See `i3cBcr`. -/
opaque i3cDcr : BitVec 8

/-- CTExponent of the SPDM CAPABILITIES response (R320): the manual gives no value. -/
opaque spdmCtExponent : BitVec 8

/-- Spare SRAM rows of a new part, fused per array (R27: the numbers are not stated): by site, or 255 for the ledger, and array. -/
opaque spareSramRows : Nat → Nat → BitVec 8

/-- The fixed hash of R360 that gives the UDP source port of a queue pair from its QPN: the manual does not state it. -/
opaque udpPort : Nat → BitVec 16

/-- Where a byte of the pannier lies in its cells under a scrambling key (R312: the manual gives no form): by key and byte number. -/
opaque scrambleAddress : List (BitVec 8) → Nat → Nat

/-- What a cell of the pannier holds for a byte under a scrambling key (R312): by key, byte number and byte. -/
opaque scrambleContent : List (BitVec 8) → Nat → BitVec 8 → BitVec 8

/-- The secret of a key set by its fingerprint (R229: "the key set's secret"), coefficient by coefficient: it never enters the part. -/
opaque secretCoeff : Nat → Nat → Int

/-- See `secretCoeff`: the binary small key u of R231, of 1,024 bits. -/
opaque smallKey : Nat → Nat → Bool

/-- See `secretCoeff`: the 2,048 coefficients of the blind-rotation key z of R232. -/
opaque rotationKey : Nat → Nat → Int

/-- The size that errors of a key set's keys keep (R211, R231, R232: "small"): of the DR_LWE key, the blind-rotation key and the repack keys. The
manual leaves the noise parameters to the key owner's tools. -/
opaque keyNoise : Nat → Nat → Nat

/-- The size of the deviation of a LOOKUP's approximate phase, which the key set's noise parameters give (R229, R230). -/
opaque driftSize : Nat → Nat

/-- The size of the error e_k of a LOOKUP, which depends only on the key set's noise parameters (R229). -/
opaque noiseSize : Nat → Nat

/-- What the manual does not state of a LOOKUP (R229), as functions of what it comes from: the deviation of a sample's approximate phase, before
it is brought to its size. -/
opaque lookupDrift : List (BitVec 8) → Nat → Int

/-- See `lookupDrift`: the error e_k of a sample, before it is brought to its size. -/
opaque lookupNoise : List (BitVec 8) → Nat → Int

/-- See `lookupDrift`: what polynomial 1 of the destination gains. -/
opaque lookupMask : List (BitVec 8) → Nat → Nat

/-- See `lookupDrift`: the words that keys of another key set lead to (R214). -/
opaque lookupJunk : List (BitVec 8) → Nat → Nat → Nat

/-- Fused metering coefficients in nanojoules at 1.6 GHz (R452), by coefficient number. -/
opaque energyCoeff : Nat → Nat

/-- Fold-engine cycles that a recovery task of so many cycles has used by a cycle (R117 and R452 state no number). -/
opaque recoveryFold : Nat → Nat → Nat

/-- See `recoveryFold`: DRAM slots. -/
opaque recoverySlots : Nat → Nat → Nat

/-- A free value: the `n`-th value the manual leaves open in a run, as a number. Statements hold whatever it is. -/
opaque freeValue : Nat → Nat

end Sys2Proof.Config
end

