-- ==== Sys2Proof/Machine/ConfigBody.lean ====
section
/-! DEFINITION. What stands in a configuration slot (R389, R391, R398, R478 to R481): the keys that the fuse seed gives, the sections of a body, the
tandem section, the header of a record, when a record is valid, and what a write that was cut short leaves. -/

namespace Sys2Proof.Machine

open Sys2Proof.Machine.Crypto

/-! ## Identity (R318) -/

/-- The private key that the fuse seed gives under an info string (R318). -/
def fuseKey (info : String) : Nat :=
  scalarOf (hkdf sha384Kind (beBytes 48 Config.fuseSeed.toNat) (zeros 48) (ascii info) 56)

/-- The identity private key. -/
def identityKey : Nat := fuseKey "skv9032 identity"

/-- The binding private key. -/
def bindingKey : Nat := fuseKey "skv9032 binding"

/-- The identity public key as X followed by Y. -/
def identityPub : List Byte := p384Pub identityKey

/-- DEVICE_FP (R318). -/
def deviceFp : List Byte := sha384 identityPub

/-! ## The sections of a body (R479) -/

/-- The sections of a body (R479), or none where it is not a sequence of whole, zero-padded sections. -/
def parseSections : Nat → List Byte → Option (List (Nat × List Byte))
  | _, [] => some []
  | 0, _ => none
  | n + 1, b =>
    let ty := leNat (b.take 2)
    let len := leNat ((b.drop 4).take 4)
    let tot := 8 + ceilDiv len 8 * 8
    if b.length < tot || leNat ((b.drop 2).take 2) != 0 || ((b.take tot).drop (8 + len)).any (· != 0) then none
    else (parseSections n (b.drop tot)).map (fun r => (ty, (b.drop 8).take len) :: r)

/-- The sections of a body of at most 1 MiB. -/
def sectionsOf (body : List Byte) : Option (List (Nat × List Byte)) := parseSections (body.length / 8 + 1) body

/-- The data of the section of a type. -/
def sectionData (ty : Nat) (l : List (Nat × List Byte)) : Option (List Byte) := (l.find? (fun e => e.1 == ty)).map Prod.snd

/-- One section is as R479 lays it out. -/
def sectionOk (tandemOk : List Byte → Bool) (e : Nat × List Byte) : Bool :=
  match e.1 with
  | 1 => e.2.length == 96
  | 2 => tandemOk e.2
  | 3 => e.2.length == 8 && 250 ≤ leNat e.2 && leNat e.2 ≤ 1500
  | 4 => true
  | _ => false

/-- A body meets R479: each type other than NOTE at most once, ADMIN present. -/
def bodyOk (tandemOk : List Byte → Bool) (body : List Byte) : Bool :=
  8 ≤ body.length && body.length ≤ 1048576 && body.length % 8 == 0 &&
  match sectionsOf body with
  | none => false
  | some l =>
    l.all (sectionOk tandemOk) && (l.any (fun e => e.1 == 1)) &&
      [1, 2, 3].all (fun ty => (l.filter (fun e => e.1 == ty)).length ≤ 1)

/-! ## The tandem section (R389, R391, R398) -/

/-- A port (R398). -/
structure PortDesc where
  src : Nat
  dst : Nat
  pages : Nat
  trigger : Nat
  arrive : Nat
  blocks : Nat
  srcAddr : Nat
  dstAddr : Nat
  deriving DecidableEq, Repr

/-- A binding (R391). -/
structure BindDesc where
  id : Nat
  parts : List Nat
  ownerHash : List Byte
  ports : List PortDesc
  deriving DecidableEq, Repr

/-- A link of the section: position and link of each end. -/
structure GroupLink where
  a : Nat
  la : Nat
  b : Nat
  lb : Nat
  deriving DecidableEq, Repr

/-- The tandem section. -/
structure GroupDesc where
  group : Nat
  fps : List (List Byte)
  links : List GroupLink
  binds : List BindDesc
  deriving DecidableEq, Repr

/-- Read one port, and whether it is well formed. -/
def readPort (b : List Byte) : PortDesc × Bool :=
  let sd := leNat (b.take 1)
  let f (o n : Nat) : Nat := leNat ((b.drop o).take n)
  let p : PortDesc := ⟨sd / 16, sd % 16, f 1 1, f 2 2, f 4 2, f 6 2, f 8 8, f 16 8⟩
  (p, 1 ≤ p.pages && p.pages ≤ 8 && 1 ≤ p.blocks && p.srcAddr % 4096 == 0 && p.dstAddr % 4096 == 0
    && p.srcAddr < 2 ^ 39 && p.dstAddr < 2 ^ 39 && p.src != p.dst && (b.drop 24).all (· == 0))

/-- Read `n` ports. -/
def readPorts : Nat → List Byte → List PortDesc × Bool
  | 0, _ => ([], true)
  | n + 1, b =>
    let (p, ok) := readPort (b.take 32)
    let (ps, oks) := readPorts n (b.drop 32)
    (p :: ps, ok && oks)

/-- Positions that take part in a binding, ascending (R391). -/
def BindDesc.members (b : BindDesc) : List Nat := (List.range 16).filter (fun m => b.parts.getD m 255 != 255)

/-- G (R391). -/
def BindDesc.size (b : BindDesc) : Nat := b.members.length

/-- The root: the position of rank 0 (R391). -/
def BindDesc.root (b : BindDesc) : Nat := b.members.headD 0

/-- A binding of a section of `m` members is as R391 and R398 state. -/
def BindDesc.ok (b : BindDesc) (m : Nat) : Bool :=
  b.id < 16 && b.size ≥ 2 && b.members.all (fun x => x < m && b.parts.getD x 255 < 16)
    && b.ports.all (fun p => b.members.contains p.src && b.members.contains p.dst)

/-- Read `n` bindings; none where the bytes run out or a reserved byte is set. -/
def readBinds : Nat → List Byte → Option (List BindDesc)
  | 0, b => if b.isEmpty then some [] else none
  | n + 1, b =>
    let ports := leNat ((b.drop 1).take 1)
    let len := 64 + 32 * ports
    let (ps, ok) := readPorts ports (b.drop 64)
    if b.length < len || ports > 32 || !ok || ((b.take 16).drop 2).any (· != 0) then none
    else
      let x : BindDesc := ⟨leNat (b.take 1), ((b.drop 16).take 16).map BitVec.toNat, (b.drop 32).take 32, ps⟩
      (readBinds n (b.drop len)).map (fun r => x :: r)

/-- The `n` strings of 48 bytes at the start of a byte string. -/
def readFps : Nat → List Byte → List (List Byte)
  | 0, _ => []
  | n + 1, b => b.take 48 :: readFps n (b.drop 48)

/-- Read `n` links. -/
def readLinks : Nat → List Byte → List GroupLink × Bool
  | 0, _ => ([], true)
  | n + 1, b =>
    let v := leNat (b.take 4)
    let l : GroupLink := ⟨v % 16, v / 2 ^ 4 % 32, v / 2 ^ 12 % 16, v / 2 ^ 16 % 32⟩
    let (ls, ok) := readLinks n (b.drop 4)
    (l :: ls, ok && v / 2 ^ 21 == 0 && v / 2 ^ 9 % 8 == 0 && l.la < 24 && l.lb < 24)

/-- The tandem section of a record, or none where it breaks R389, R391 or R398. -/
def parseTandem (d : List Byte) : Option GroupDesc :=
  let m := leNat ((d.drop 8).take 1)
  let r := d.drop (9 + 48 * m)
  let n := leNat (r.take 1)
  let (ls, ok) := readLinks n (r.drop 1)
  let r := r.drop (1 + 4 * n)
  let k := leNat (r.take 1)
  match readBinds k (r.drop 1) with
  | none => none
  | some bs =>
    let g : GroupDesc := ⟨leNat (d.take 8), readFps m (d.drop 9), ls, bs⟩
    if m < 2 || m > 16 || n < 1 || n > 192 || k > 16 || r.isEmpty || !ok || ls.any (fun l => l.a ≥ m || l.b ≥ m)
        || !bs.all (fun b => b.ok m) || (bs.map BindDesc.id).eraseDups.length != bs.length then none
    else some g

/-- A tandem section is as R389, R391 and R398 state. -/
def tandemOk (d : List Byte) : Bool := (parseTandem d).isSome

/-! ## Records (R478, R480) -/

/-- Bytes 0 to 127 of the header (R478). The reserved bytes stand as one number, whose lowest sixteen bits are bytes 6 and 7. -/
def ConfigRec.head (r : ConfigRec) : List Byte :=
  leBytes 4 r.magic ++ leBytes 2 r.format ++ leBytes 2 r.reserved ++ leBytes 8 r.seq ++ leBytes 4 r.length ++ leBytes 12 (r.reserved / 2 ^ 16)
    ++ r.digest ++ r.fp

/-- SIGNATURE (R478): the identity key's over SHA-384 of bytes 0 to 127; other bytes, shown as zeros, where it has made none. -/
def ConfigRec.sig (r : ConfigRec) : List Byte :=
  match r.nonce with
  | some k => ecdsaSign identityKey k r.head
  | none => zeros 96

/-- A record as its slot holds it (R478): header, SIGNATURE, body. -/
def ConfigRec.bytes (r : ConfigRec) : List Byte := r.head ++ r.sig ++ leBytes 32 (r.reserved / 2 ^ 112) ++ r.body

/-- The record that this part makes of a SEQUENCE and a body, signed under a nonce (R478, R481). -/
def ConfigRec.made (seq : Nat) (body : List Byte) (nonce : Nat) : ConfigRec :=
  { magic := 0x47434B53, format := 1, reserved := 0, seq := seq % 2 ^ 64, length := body.length, digest := sha384 body, fp := deviceFp
    nonce := some nonce, body := body }

/-- A record is valid (R480). A SIGNATURE that the identity key made verifies under it, and no other bytes do (DEDUCED: what ECDSA states). -/
def ConfigRec.valid (r : ConfigRec) : Bool :=
  r.magic == 0x47434B53 && r.format == 1 && r.reserved == 0 && 1 ≤ r.seq && r.seq < 2 ^ 64 && r.length == r.body.length
    && r.digest == sha384 r.body && r.fp == deviceFp && r.nonce.isSome && bodyOk tandemOk r.body

/-- A slot whose header is zero. -/
def ConfigRec.blank : ConfigRec := ⟨0, 0, 0, 0, 0, zeros 48, zeros 48, none, []⟩

/-- A word of the header that comes from one record where its number is below `k`, and from another elsewhere. -/
def headerWord {α : Type} (k n : Nat) (new old : α) : α := if n < k then new else old

/-- A header whose first `k` words of 64 bits come from one record and the rest from another, the body with the rest (R478, R486). -/
def ConfigRec.overlay (k : Nat) (new old : ConfigRec) : ConfigRec :=
  { old with
    magic := headerWord k 0 new.magic old.magic, format := headerWord k 0 new.format old.format
    reserved := headerWord k 3 new.reserved old.reserved, seq := headerWord k 1 new.seq old.seq, length := headerWord k 2 new.length old.length
    digest := new.digest.take (8 * (k - 4)) ++ old.digest.drop (8 * (k - 4)), fp := new.fp.take (8 * (k - 10)) ++ old.fp.drop (8 * (k - 10))
    nonce := if k ≤ 16 then old.nonce else if 28 ≤ k then new.nonce else none }

/-- Words of NVM that a write of a record takes (R481): 32 of the header zeroed, the body, 32 of the header. -/
def ConfigRec.writes (r : ConfigRec) : Nat := 64 + r.body.length / 8

/-- A slot after the first `n` words of a write in the order of R481. -/
def ConfigRec.torn (n : Nat) (new : ConfigRec) (old : Option ConfigRec) : Option ConfigRec :=
  let was := old.getD ConfigRec.blank
  let b := 8 * (n - 32)
  if n = 0 then old
  else if n ≤ 32 then some (ConfigRec.overlay n ConfigRec.blank was)
  else if b ≤ new.body.length then some { ConfigRec.blank with body := new.body.take b ++ was.body.drop b }
  else some (ConfigRec.overlay (n - 32 - new.body.length / 8) new { ConfigRec.blank with body := new.body })

end Sys2Proof.Machine
end

