-- ==== Sys2Proof/Machine/TypesEngine.lean ====
section
/-! DEFINITION. The types of a core's compute engine (R170, R243) and of a cluster's derailleur with its refresh tickets
(R222 to R240). -/

namespace Sys2Proof.Machine

/-! ## The ring engine -/

/-- What a basis slot holds once ring.ldb has written it (R170); a slot that is not listed is EMPTY. -/
inductive BasisSlot where
  /-- VALID: the modulus, the root and LOGN_MAX of the entry (R171), and what the cell derives and keeps (R172): the Barrett constant, the inverse
  root, and N^(−1) for each N from 2^11 on. -/
  | valid (q psi logn mu psiInv : Nat) (nInv : List Nat)
  /-- REJECTED. -/
  | rejected
  deriving DecidableEq, Repr

/-! ## The tensor engine -/

/-- An exact value of the tensor engine (R244, R245, R252): NaN, an infinity, or (−1)^neg × m × 2^e. -/
inductive Fp where
  | nan
  | inf (neg : Bool)
  | num (neg : Bool) (m : Nat) (e : Int)
  deriving DecidableEq, Repr

/-- A valid tensor configuration (R246): the fields of its block. -/
structure TnCfg where
  fmtA : Nat
  fmtB : Nat
  groupLog2 : Nat
  outFmt : Nat
  stochastic : Bool
  sat : Bool
  useScale : Bool
  useBias : Bool
  act : Nat
  drainClear : Bool
  /-- OUT_STRIDE in bytes. -/
  stride : Nat
  alpha : Nat
  lo : Nat
  hi : Nat
  seed : List Byte
  deriving DecidableEq, Repr

/-- SRAM that a job holds (R224), for an access that began before: the job's first cycle and its end, and the number of the first free value
that a read finds there. -/
structure JobHold where
  begins : Nat
  ends : Nat
  free : Nat
  deriving DecidableEq, Repr

/-- A tn.mma or tn.mmac whose steps are not all made yet (R250, R251): the cycle of its first step, the cycles from step to
step, its panels, the step pointer at its issue, its steps, the number of the next one, and its configuration. -/
structure MmaRun where
  comp : Bool
  start : Nat
  pace : Nat
  ra : Nat
  rb : Nat
  p0 : Nat
  rep : Nat
  next : Nat
  cfg : TnCfg
  /-- It mixes plain and compensated steps (R250): the number of the first free value that its sums take. -/
  junk : Option Nat
  /-- A job holds SRAM that its later steps may read. -/
  held : Option JobHold
  deriving DecidableEq, Repr

/-- A product step in the adder tree (R252, R253, R255): when its sums reach the registers, whether it is compensated,
whether it is an integer one, for each register (the lower one of a pair) its products, and, where the part defines no value of its sums, the
number of the first free value that they take. -/
structure TreeStep where
  land : Nat
  comp : Bool
  int : Bool
  sums : List (Nat × List Fp)
  junk : Option Nat
  deriving DecidableEq, Repr

/-- A drain that has issued and not started (R256): its start, addresses and configuration. -/
structure DrainRun where
  start : Nat
  ra : Nat
  rb : Nat
  rd : Nat
  cfg : TnCfg
  /-- A job holds SRAM that it reads (R224): the number of the first free value that its outputs take. -/
  junk : Option Nat
  deriving DecidableEq, Repr

/-- The compute engine of a core in both of its modes (R15, R170, R243). -/
structure Engine where
  /-- Tensor mode (R15). -/
  tensor : Bool
  /-- The first cycle at which the engine accepts a compute-slot instruction. -/
  free : Nat
  /-- Basis slots that a ring.ldb has written. -/
  slots : Assoc BasisSlot
  /-- Accumulator registers by cell × 16 + register, as 32 bits; an unlisted one holds +0. -/
  acc : Assoc Nat
  /-- The block of the last tn.cfg; none is UNSET. -/
  block : Option (List W64)
  /-- SR_STREAM. -/
  stream : Nat
  /-- The step pointer P. -/
  p : Nat
  dcount : Nat
  /-- The kind of the product steps since the last reset of P: compensated or not (R250). -/
  stepKind : Option Bool
  /-- Both kinds have run since then under a configuration that forbids it: the accumulators hold undefined values (R250). -/
  mixed : Bool
  mma : Option MmaRun
  tree : List TreeStep
  drain : Option DrainRun
  /-- The latency end of the last tn.mma or tn.mmac (R135). -/
  mmaEnd : Nat
  deriving DecidableEq, Repr

/-- The engine at a task boundary (R161, R170, R243). -/
def Engine.clear : Engine :=
  { tensor := false, free := 0, slots := [], acc := [], block := none, stream := 0, p := 0, dcount := 0, stepKind := none, mixed := false,
    mma := none, tree := [], drain := none, mmaEnd := 0 }

/-! ## The derailleur -/

/-- State of a refresh ticket (R234). -/
inductive TicketState where
  | free | sending | waiting
  deriving DecidableEq, Repr

/-- A refresh ticket (R234): its seed, EPOCH, the clock of its deadline, and what its BLIND recorded. -/
structure Ticket where
  st : TicketState
  seed : List Byte
  epoch : Nat
  deadline : Nat
  keysetFp : W64
  logN : Nat
  ctPrimes : Nat
  deriving DecidableEq, Repr

/-- What a job loads in its first frame (R225): the parameter set; the headers of its input, its destination and its public key; the two
constants and the table of a LOOKUP; whether a page of it is owned; its ticket; and why the random numbers of a BLIND are not to be
had. -/
structure JobLoad where
  pset : List Byte
  inHdr : List Byte
  outHdr : List Byte
  keyHdr : List Byte
  br : List Byte
  table : List Byte
  owned : Bool
  ticket : Ticket
  rng : Option Status
  deriving DecidableEq, Repr

/-- A derailleur job issued by a core (R138, R222 to R224): its descriptor's address, the descriptor as the job reads it, the
task cycles at which it begins and ends, its signal, its issue cycle, whether something else has touched the SRAM it holds, and what its
first frame loaded. -/
structure DrJob where
  core : Nat
  addr : Nat
  desc : List W64
  begins : Nat
  ends : Nat
  sig : Option Nat
  issued : Nat
  spoiled : Bool
  load : Option JobLoad
  deriving DecidableEq, Repr

/-- The derailleur of a cluster (R224, R234): tickets by number (an unlisted one is FREE with EPOCH 0), and the jobs that
have not ended, oldest first: at most one running and one queued; and the task cycle of the latest end of a job of the task. -/
structure Derailleur where
  tickets : Assoc Ticket
  jobs : List DrJob
  lastEnd : Nat
  deriving DecidableEq, Repr

/-- A ticket that nothing has used (R234). -/
def Ticket.zero : Ticket := ⟨.free, [], 0, 0, 0, 0, 0⟩

/-- A derailleur without jobs or tickets. -/
def Derailleur.reset : Derailleur := ⟨[], [], 0⟩

end Sys2Proof.Machine
end

