-- ==== Sys2Proof/Machine/TypesCore.lean ====
section
/-! DEFINITION. The types of programs, tasks, cores, clusters and their counters (R122 to R167, R266 to R291). -/

namespace Sys2Proof.Machine

/-! ## Counters -/

/-- The last signaller of a counter (R266, R288): source kind, logical cluster, core, cycle stamp, NO_TASK. -/
structure Signaller where
  kind : Nat
  cluster : Nat
  core : Nat
  stamp : Nat
  noTask : Bool
  deriving DecidableEq, Repr

/-- A counter (R266). HELD follows from its bindings (R268) and the waiter list from the cores that wait. -/
structure Counter where
  value : Nat
  base : Nat
  last : Signaller
  deriving DecidableEq, Repr

/-- A signal of the running task's time (R271): its counter, amount, source, the task cycle from which its own core sees it,
the one from which its counter's cluster does, and whether it has been added to VALUE. -/
structure Transit where
  ctr : CtrRef
  amount : Nat
  src : Signaller
  ownAt : Nat
  allAt : Nat
  landed : Bool
  deriving DecidableEq, Repr

/-- A signal that becomes visible at a clock at which no task of the partition has reached its cycle 0 (R271, R288): the clock of its tick,
its counter, amount and source. -/
structure Stray where
  at' : Nat
  ctr : CtrRef
  amount : Nat
  src : Signaller
  deriving DecidableEq, Repr

/-! ## Programs and tasks -/

/-- A resident program (R156): where its image lies, with the header fields the part uses. -/
structure Program where
  addr : Nat
  length : Nat
  foldK : Nat
  kind : Nat
  estCycles : Nat
  estMj : Nat
  deriving DecidableEq, Repr

/-- State of a task (R163). -/
inductive TaskState where
  | queued | cassette | running | ended | cancelled
  deriving DecidableEq, Repr

/-- A tenant task with what TASK_STATUS reports (R159, R163). -/
structure Task where
  id : Nat
  program : W64
  args : List W64
  maxCycles : Nat
  st : TaskState
  status : Status
  code : Nat
  cycles : Nat
  external : Nat
  /-- Microjoules charged. -/
  energy : Nat
  fault : Nat
  faultCluster : Nat
  faultCore : Nat
  faultBundle : Nat
  faultAddr : Nat
  /-- The clock from which its time in a cassette counts (R456). -/
  entered : Nat
  deriving DecidableEq, Repr

/-- A secret of a round: a client's self seed, or the pair seed of two clients (R101). -/
inductive Secret where
  | self (i : Nat)
  | pair (lo hi : Nat)
  deriving DecidableEq, Repr

/-- A recovery task (R116): its round, its slice of chunk indices, its block of secrets, and its cycle count. -/
structure RecTask where
  tag : Nat
  slice : List Nat
  block : List Secret
  cycles : Nat
  /-- The clock from which its time in a cassette counts (R456). -/
  entered : Nat
  deriving DecidableEq, Repr

/-- What a cassette holds (R158). -/
inductive Cassette where
  | tenant (t : Task)
  | recovery (r : RecTask)
  deriving DecidableEq, Repr

/-- A stop of the running task that has been decided and waits for its moment: the status and fault words it ends with, and
the task cycle at which every core stops (R164, R167, R402, R405). -/
structure Stop where
  atCycle : Nat
  cancel : Bool
  status : Status
  fault : Nat
  cluster : Nat
  core : Nat
  bundle : Nat
  addr : Nat
  deriving DecidableEq, Repr

/-- Engine occupancy or DRAM slots to be metered (R452): a coefficient's number, and the task cycles in which it counts: every one from
`start` on and before `ends`, or, of those, the slot times that the list gives by their place in a program frame. -/
structure Booking where
  coeff : Nat
  start : Nat
  ends : Nat
  slots : Option (List Nat)
  deriving DecidableEq, Repr

/-- The task that runs on a partition's clusters (R158, R161). -/
structure Running where
  what : Cassette
  /-- The clock of task cycle `base`, from which the others are counted: task cycle 0, or the last change between full and
  half clock (R460, R463). -/
  start : Nat
  base : Nat
  /-- The cluster islands run at half clock. -/
  slow : Bool
  /-- P-state it runs at. -/
  pstate : Nat
  foldK : Nat
  /-- The image's slot map (R141): for each stack rank 64 owners, 0xFFFF for none. -/
  slots : List (List Nat)
  /-- The task cycle from which device ticks are counted: 0, or the last tandem release (R401). -/
  tickBase : Nat
  stop : Option Stop
  /-- Microjoules already taken off the account (R452). -/
  charged : Nat
  /-- Nanojoules at 1.6 GHz of the bookings that are over, without the static coefficient (R452). -/
  metered : Nat
  /-- Bookings that may still count. -/
  booked : List Booking
  deriving DecidableEq, Repr

/-- The barrier channel of a partition (R279 to R281): the generation, and the cores that have entered with the cycles at
which their entries take effect. -/
structure Barrier where
  gen : Bool
  entered : Assoc Nat
  deriving DecidableEq, Repr

/-- What a partition holds of programs and tasks (R150 to R167). -/
structure JobPart where
  resident : Assoc Program
  nextTask : Nat
  queue : List Task
  cassettes : List Cassette
  running : Option Running
  /-- Tasks that have ended or been cancelled, latest last, at most 64 (R163). -/
  known : List Task
  transit : List Transit
  /-- Signals on their way while no task runs, earliest first. -/
  stray : List Stray
  bar : Barrier
  /-- The tick dividers of the partition's clusters (R25): a clock, the cycles since their release that they stood at then, and whether the
  islands run at half clock. They are released, at 0, when the partition is created and at every P-state change. -/
  tickAt : Nat
  tickPhase : Nat
  tickSlow : Bool
  deriving DecidableEq, Repr

/-! ## Cores and clusters -/

/-- Which store a result goes to. -/
inductive Space where
  | core | shared
  deriving DecidableEq, Repr

/-- A result that becomes visible at a task cycle (R128): its store, address and bytes, and the slot that wrote it (a
higher slot stands in a tie). -/
structure PendingWrite where
  at' : Nat
  slot : Nat
  space : Space
  addr : Nat
  data : List Byte
  deriving DecidableEq, Repr

/-- An outstanding DRAM move (R131, R132, R142): whether it writes DRAM, its store, its pages as (store address, partition
address), how many times 256 bytes of its source it has read and those bytes, the stack rank and time of its slot, whether that slot has
passed, its issue cycle, the tick of its completion, and its signal. -/
structure Move where
  store : Bool
  space : Space
  pages : List (Nat × Nat)
  units : Nat
  data : List Byte
  rank : Nat
  slot : Nat
  passed : Bool
  issue : Nat
  done : Nat
  sig : Option Nat
  /-- A job holds SRAM that the move reads (R224). -/
  held : Option JobHold
  deriving DecidableEq, Repr

/-- Why a core issues nothing (R272, R279). -/
inductive WaitFor where
  /-- A counter's view: the expected value, the cycle of the wait, and the cycle from which the view is judged, which is later where a
  binding has changed EPOCH_BASE meanwhile (R268). -/
  | counter (ctr : CtrRef) (expect : Nat) (since : Nat) (judged : Nat)
  | barrier (since : Nat)
  /-- It has faulted, and every later instruction is dropped (R167). -/
  | halted
  deriving DecidableEq, Repr

/-- A core (R122). -/
structure Core where
  /-- It takes part in the running task. -/
  active : Bool
  a : List W64
  l : List Nat
  ptr : Nat
  code : Mem
  /-- The cycle of the bundle at the pointer: the earliest one while none of its instructions has issued. -/
  issueAt : Nat
  /-- Mask of that bundle's slots that have issued: bit 4 syn, 3 aux, 2 compute, 1 mv, 0 ctl. -/
  done : Nat
  /-- The next bundle and its earliest cycle, as far as this bundle's instructions have decided them. -/
  nextPtr : Nat
  nextAt : Nat
  ended : Option (Nat × Nat)
  wait : Option WaitFor
  loc : Mem
  pending : List PendingWrite
  moves : List Move
  /-- Slots taken by this core's moves: stack rank and slot time. -/
  slotsTaken : List (Nat × Nat)
  mvFree : Nat
  foldFree : Nat
  ksFree : Nat
  drFree : Nat
  /-- Cycle at which every issued write has completed (R274). -/
  fence : Nat
  /-- Completion of the core's latest move that has left the move queue (R162). -/
  lastMove : Nat
  ksPrg : Option Nat
  ksKey : List Byte
  eng : Engine
  /-- Core-cycles in external waits. -/
  external : Nat
  deriving DecidableEq, Repr

/-- A cluster (R17): eight cores, the shared store, the counters, the derailleur, the DRBG that serves it. -/
structure Cluster where
  cores : Vector Core 8
  shared : Mem
  sharedPending : List PendingWrite
  counters : Assoc Counter
  der : Derailleur
  drbg : Crypto.Drbg
  reseedBuf : List W64
  deriving DecidableEq, Repr

/-- No signaller (R286). -/
def Signaller.none : Signaller := ⟨0, 0, 0, 0, false⟩

/-- A counter that nothing has signalled. -/
def Counter.zero : Counter := ⟨0, 0, Signaller.none⟩

/-- A core at a task boundary (R161): everything cleared. -/
def Core.clear : Core :=
  { active := false, a := List.replicate 32 0, l := List.replicate 8 0, ptr := 0, code := [], issueAt := 0, done := 0,
    nextPtr := 0, nextAt := 0, ended := none, wait := none, loc := [], pending := [], moves := [], slotsTaken := [], mvFree := 0, foldFree := 0,
    ksFree := 0, drFree := 0, fence := 0, lastMove := 0, ksPrg := none, ksKey := [], eng := Engine.clear, external := 0 }

/-- A cluster after power-up. -/
def Cluster.reset : Cluster :=
  { cores := Vector.replicate 8 Core.clear, shared := [], sharedPending := [], counters := [], der := Derailleur.reset,
    drbg := Crypto.Drbg.zero, reseedBuf := [] }

/-- No programs and no tasks. -/
def JobPart.empty : JobPart :=
  { resident := [], nextTask := 0, queue := [], cassettes := [], running := none, known := [], transit := [],
    stray := [], bar := ⟨false, []⟩, tickAt := 0, tickPhase := 0, tickSlow := false }

end Sys2Proof.Machine
end

