-- ==== Sys2Proof/Machine/TypesTandem.lean ====
section
/-! DEFINITION. The types of tandem groups (R389 to R405). The group's description itself is the tandem section of the
active configuration record and is read from there. -/

namespace Sys2Proof.Machine

/-- State of a binding (R392). -/
inductive BindState where
  | down | active | skewed
  deriving DecidableEq, Repr

/-- What another member last reported: its digest, for each binding whether its own conditions hold and its stack count S, which of its
Binigal links are UP, and the one-way delays of its links (the manual gives the report no form of its own; here it comes with
DIGEST). -/
structure MemberReport where
  digest : List Byte
  conds : List (Nat × Nat)
  up : Nat
  delays : List Nat
  deriving DecidableEq, Repr

/-- A barrier round of a binding (R401): its generation; the entries this member knows (the root those of everyone, another member its own)
by generation × 16 + position, with their digests; the clock of the first of them; the release time in group time once it is known;
and whether a long hold has been logged. -/
structure BarRound where
  gen : Nat
  entered : Assoc (List Byte)
  since : Nat
  release : Option Nat
  heldReported : Bool
  deriving DecidableEq, Repr

/-- The tandem state of the part. -/
structure Tandem where
  /-- State of each binding by BIND_ID; unlisted: DOWN. -/
  binds : Assoc BindState
  /-- Reports by position. -/
  reports : Assoc MemberReport
  rounds : Assoc BarRound
  /-- Blocks sent by each port since the partition's last task boundary, by BIND_ID × 32 + port (R399). -/
  sent : Assoc Nat
  /-- Pages of the current block received on each port. -/
  received : Assoc Nat
  /-- Group time minus local network-complex cycles (R400). -/
  offset : Int
  /-- The last moment at which the network-complex island changed its clock, the cycles counted until then, and whether it runs at half clock
  since (R460, R463). -/
  localAt : Nat
  localBase : Nat
  localSlow : Bool
  nextCalibrate : Nat
  /-- The report this member last sent (R402), and the positions that had a route then. -/
  sentReport : List Byte
  reached : List Nat
  deriving DecidableEq, Repr

/-- No group. -/
def Tandem.reset : Tandem :=
  { binds := [], reports := [], rounds := [], sent := [], received := [], offset := 0, localAt := 0, localBase := 0, localSlow := false, nextCalibrate := 0, sentReport := [],
    reached := [] }

end Sys2Proof.Machine
end

