-- ==== Sys2Proof/Machine/State.lean ====
section
/-! DEFINITION. The state of the block as plain data, its fault and refusal reasons, and `State.reset`. -/

namespace Sys2Proof.Machine

/-- Partition states (R346). -/
inductive PartState where
  | absent | creating | active | destroying
  deriving DecidableEq, Repr

/-- A partition with everything it owns that is not a cluster, a link or a bank (R343). -/
structure Partition where
  st : PartState
  p0 : W64
  p1 : W64
  p2 : W64
  ownerPub : List Byte
  creation : Nat
  foldK : Nat
  foldKNext : Nat
  /-- The 802.1Q priority on its shared links (R349). -/
  prio : Nat
  /-- The ledger banks that the ownership map gives it, lowest first (R345). -/
  ledger : List Nat
  /-- Sessions opened since creation (R326). -/
  sessions : Nat
  /-- The clock of step 1 of its creation or destruction. -/
  phaseAt : Nat
  log : AttLog
  mem : MemEpoch
  acct : Account
  debugOn : Bool
  mirrorOn : Bool
  trace : List TraceRec
  traceCount : Nat
  keyDrbg : Crypto.Drbg
  /-- The plaintext of its DRAM (R19, R328): S × 16 GiB of partition addresses. -/
  dram : Mem
  rnd : RoundPart
  net : NetPart
  job : JobPart
  deriving DecidableEq, Repr

/-- The state of the block. -/
structure State where
  /-- Commands waiting, first in first out (the model's own field). -/
  pending : List Instr
  /-- Wall time in units of 1/24 ns, in which every period of the manual is whole. -/
  clock : Nat
  boot : Boot
  nvm : Nvm
  power : Power
  chans : Vector Channel 17
  pannier : Assoc KeySlot
  parts : Vector Partition 16
  banks : Vector Bank 18
  /-- The RTP's device pool (R296). -/
  pool : List W64
  devDrbg : Crypto.Drbg
  rngAlarm : Bool
  debugAccess : Debug
  spdm : Vector Spdm 18
  i3c : I3c
  links : Vector Link 24
  clusters : Vector Cluster 32
  tandem : Tandem
  /-- What the part has shown to the outside, newest first (the model's own field). -/
  out : List Output
  /-- How many free values have been used (the model's own field): the argument of the next one. -/
  free : Nat
  deriving DecidableEq, Repr

/-- Reasons a step stops with a fault. -/
inductive Fault where
  /-- Never raised by a meaning: no command of the table ends in a fault, so that a step always goes on. -/
  | none
  deriving DecidableEq, Repr

/-- Reasons a step is refused. -/
inductive Refusal where
  /-- The command has no meaning in the model: raised by `exec` alone. Safe: nothing is claimed of the command. -/
  | notModelled (mnemonic : String)
  deriving DecidableEq, Repr

/-- A source before its startup test (R299: STARTUP). -/
def Source.reset : Source := ⟨.startup, none, false, 0, 0, [], 0, []⟩

/-- A bank before power-up. -/
def Bank.reset (r : BankRole) : Bank := ⟨r, Source.reset, Source.reset, false, [], false, 0⟩

/-- A channel after cold reset: masks 1, everything else 0 (R412 to R417). -/
def Channel.reset : Channel :=
  { partialCmd := [], waiting := [], cmdLost := false, held := none, asyncs := [],
    unplaced := [], replies := [], rplEmpty := false, events := [], evtEmpty := false, evtDropped := 0, eseq := 0,
    irqMask := 31, irqCause := 0, irqUnsent := 0, seqExpect := 0, chain := none, counts := List.replicate 32 0,
    msix := List.replicate 5 ⟨0, 0, true⟩, d3hot := false }

/-- The attestation log before record 0 (R323). -/
def AttLog.empty : AttLog := ⟨0, zeros 48, []⟩

/-- An account without a share. -/
def Account.empty : Account := ⟨0, 0, 0, 1, 1, []⟩

/-- An absent partition. -/
def Partition.absent : Partition :=
  { st := .absent, p0 := 0, p1 := 0, p2 := 0, ownerPub := [], creation := 0, foldK := 0, foldKNext := 0, prio := 0,
    ledger := [], sessions := 0, phaseAt := 0, log := AttLog.empty, mem := ⟨false, [], none, 0⟩, acct := Account.empty,
    debugOn := false, mirrorOn := false, trace := [], traceCount := 0, keyDrbg := Crypto.Drbg.zero, dram := [],
    rnd := RoundPart.empty, net := NetPart.empty, job := JobPart.empty }

/-- Lifetime counters of a new part (DESIGN CHOICE: the manual gives no values at manufacture). -/
def Lifetime.new : Lifetime :=
  { seconds := 0, energyMj := 0, nvmWrites := 0, coldResets := 0, warmResets := 0, trips := 0, brownouts := 0,
    throttles := 0, holds := 0, utc := 0, hotSamples := List.replicate 36 0, stackMax := List.replicate 36 0,
    logicMax := List.replicate 36 0, fecCorrected := List.replicate 24 0, fecUncorrected := List.replicate 24 0,
    linkDowns := List.replicate 24 0, withheld := 0 }

/-- The body of configuration record A at manufacture: one ADMIN section (R479). -/
def recordABody : List Byte :=
  leBytes 2 1 ++ zeros 2 ++ leBytes 4 96 ++ beBytes 96 Config.adminKey.toNat

/-- Non-volatile memory of a new part: record A with SEQUENCE 1 (chapter 18), the shipped firmware in slot A. Fuses may name any two banks as
spares (R292); this part has 16 and 17, and no repair fused at manufacture (DESIGN CHOICE). -/
def Nvm.new : Nvm :=
  { log := [], logSeq := 0, head := 0, snap := ⟨[], [], List.range 32⟩, fused := [], writes := [], writesAt := 0, rates := []
    life := Lifetime.new, store := ⟨⟨0, true, ⟨Lifetime.new, 0, 1⟩⟩, ⟨0, true, ⟨Lifetime.new, 0, 1⟩⟩⟩, nextStore := 0, nextSecond := 0
    cfg := [some (ConfigRec.made 1 recordABody Config.recordANonce), none], cfgWorn := []
    fw := [some ⟨0, 0, Config.shippedSvn.toNat, Config.shippedVersion, beBytes 48 Config.shippedDigest.toNat⟩, none],
    bootCtl := ⟨⟨1, true, 0⟩, ⟨0, true, 0⟩⟩, repairs := [], retiredSites := [], pendingRetire := [], siteMap := List.range 32,
    retiredSources := [], spareBanks := [16, 17], creations := 0, serials := 0, pfSessions := 0, antiRollback := 0,
    revoked := 0, fusesDue := none }

/-- Power and thermal state before power-up (R450: the default budget). -/
def Power.reset : Power :=
  { budget := 1500, deliveredMj := 0, throttle := none, hold := none, lowSince := none, lastMv := 0,
    resumeAfter := none, logic := List.replicate 36 0, stack := List.replicate 36 0, nextPeriod := 0,
    nextSensor := 0, nextSupply := 0, resThrottle := ⟨none, false, false⟩, resHold := ⟨none, false, false⟩ }

/-- The I3C target before power-up: no dynamic address, messages of the 69 bytes that a transmission unit of 64 takes, in-band
interrupts enabled (PRESUMED: MIPI I3C and DSP0233; the manual gives no values). -/
def I3c.reset : I3c := ⟨false, none, 69, 69, 1⟩

/-- Boot state before power-up. -/
def Boot.reset : Boot :=
  { phase := .off, step := 0, failStep := 0, start := 0, readyAt := 0, fwSlot := 0, cfgSlot := 0, cfgBefore := none,
    timeouts := [0, 0], bootSlot := 0, attemptAt := 0, resetLow := false, restartDue := false, perst := true, pwrGood := false, thermTrip := false
    refclkCommon := false, refclkPin := false, warm := false
    pcieUp := false, numVfs := 0, bme := List.replicate 17 false, scrambleKey := [], noise := false }

/-- An SPDM connection that has not begun. -/
def Spdm.reset : Spdm := ⟨false, false, false, [], [], []⟩

/-- The state of the part with 12 V absent, before its first power-up: every volatile field at its reset value and the
non-volatile memory as manufactured. -/
def State.reset : State :=
  { pending := [], clock := 0, boot := Boot.reset, nvm := Nvm.new, power := Power.reset,
    chans := Vector.replicate 17 Channel.reset, pannier := [], parts := Vector.replicate 16 Partition.absent,
    banks := ((Vector.replicate 18 (Bank.reset .unallocated)).set 16 (Bank.reset .spare)).set 17 (Bank.reset .spare),
    pool := [], devDrbg := Crypto.Drbg.zero, rngAlarm := false, debugAccess := ⟨none, false, .idcode, []⟩,
    spdm := Vector.replicate 18 Spdm.reset, i3c := I3c.reset,
    links := Vector.replicate 24 Link.reset, clusters := Vector.replicate 32 Cluster.reset, tandem := Tandem.reset,
    out := [], free := 0 }

end Sys2Proof.Machine
end

