-- ==== Sys2Proof/Machine/Ops.lean ====
section
/-! DEFINITION. The named operations over the state that every family of commands uses: access to one partition, channel,
link, cluster or bank; wall time; interrupt causes and MSI-X messages (R416); replies and events (R420, R422, R442);
telemetry counts (R444); the kickstand log (R488 to R494); keys of the pannier (R312); the device DRBG (R309).
A block has no exception entry: what stands here in its place is the raising of causes, events and log records. -/

namespace Sys2Proof.Machine

open Sys2Proof.Machine.Crypto

/-! ## Access to the parts of the state -/

/-- Change one partition. -/
def State.modPart (s : State) (p : Fin 16) (f : Partition → Partition) : State :=
  { s with parts := s.parts.set p (f s.parts[p]) }

/-- Change one channel. -/
def State.modChan (s : State) (ch : Fin 17) (f : Channel → Channel) : State :=
  { s with chans := s.chans.set ch (f s.chans[ch]) }

/-- Change one link. -/
def State.modLink (s : State) (l : Fin 24) (f : Link → Link) : State := { s with links := s.links.set l (f s.links[l]) }

/-- Change one cluster. -/
def State.modCluster (s : State) (c : Fin 32) (f : Cluster → Cluster) : State :=
  { s with clusters := s.clusters.set c (f s.clusters[c]) }

/-- Change one random-number bank. -/
def State.modBank (s : State) (b : Fin 18) (f : Bank → Bank) : State := { s with banks := s.banks.set b (f s.banks[b]) }

/-- Show something to the outside. -/
def State.emit (s : State) (o : Output) : State := { s with out := o :: s.out }


/-- The channel of a partition's virtual function: VF p + 1 (R407). -/
def vf (p : Fin 16) : Fin 17 := ⟨p.val + 1, by omega⟩

/-- The partition that a VF channel serves (R407); partition 0 for the PF, which serves none. -/
def chanPart (ch : Fin 17) : Fin 16 := ⟨ch.val - 1, by omega⟩

/-- A partition number from a 4-bit field. -/
def pid (n : Nat) : Fin 16 := Fin.ofNat 16 n

/-- All partition numbers. -/
def allParts : List (Fin 16) := List.finRange 16

/-- A free value (an opaque constant applied to the state's counter), and the state with the counter advanced. -/
def State.fresh (s : State) : Nat × State := (Config.freeValue s.free, { s with free := s.free + 1 })

/-- Bytes without a stated value: the next free values, one for each byte. -/
def State.freshBytes (s : State) (n : Nat) : List Byte × State :=
  ((List.range n).map (fun i => byte (Config.freeValue (s.free + i))), { s with free := s.free + n })

/-! ## Time -/

/-- One nanosecond of wall time. -/
def ns : Nat := 24
/-- One microsecond. -/
def us : Nat := 24000
/-- One millisecond. -/
def ms : Nat := 24000000
/-- One second. -/
def sec : Nat := 24000000000
/-- A stack frame of 853⅓ ns (R20). -/
def frameUnits : Nat := 20480
/-- A network-complex device tick of 64 cycles at 1.6 GHz (R9, R23). -/
def tickUnits : Nat := 960

/-- Move wall time forward to a moment; it never runs backward. -/
def State.advance (s : State) (t : Nat) : State := { s with clock := Nat.max s.clock t }

/-- Length of a cycle of the network-complex island (R9, R460, R463). -/
def Tandem.cycleLen (t : Tandem) : Nat := if t.localSlow then 30 else 15

/-- Cycles of the network-complex island since clock 0 (R400). -/
def State.localCycles (s : State) : Nat := s.tandem.localBase + (s.clock - s.tandem.localAt) / s.tandem.cycleLen

/-- The clock of a cycle of the network-complex island. -/
def State.localClock (s : State) (n : Nat) : Nat := s.tandem.localAt + (n - s.tandem.localBase) * s.tandem.cycleLen

/-- The network-complex island goes over to full or half clock and counts on (R10, R460, R463). -/
def State.rebaseLocal (s : State) (slow : Bool) : State :=
  let t := s.tandem
  if t.localSlow = slow then s
  else
    let rest := (s.clock - t.localAt) % t.cycleLen
    { s with tandem := { t with
      localBase := s.localCycles, localAt := s.clock - (if slow then rest * 2 else rest / 2), localSlow := slow } }

/-- Wall time moves on to the first device tick of the network complex at or after now (R9). -/
def State.toLocalTick (s : State) : State :=
  let n := s.tandem.localBase + ceilDiv (s.clock - s.tandem.localAt) s.tandem.cycleLen
  s.advance (s.localClock (ceilDiv n 64 * 64))

/-- The first stack-frame start after a moment; frames are counted from clock 0 (DESIGN CHOICE). -/
def nextFrame (t : Nat) : Nat := (t / frameUnits + 1) * frameUnits

/-- BOOT_PROGRESS.MS: milliseconds since the timeline's start, saturating at 32 bits (R411). -/
def State.bootMs (s : State) : Nat := Nat.min ((s.clock - s.boot.start) / ms) (2 ^ 32 - 1)

/-! ## Pair and partition resources -/

/-- PAIR_MASK of a partition (R348). -/
def Partition.pairMask (p : Partition) : Nat := bits p.p0 47 32
/-- LEDGER_BANKS of a partition (R348). -/
def Partition.ledgerBanks (p : Partition) : Nat := bits p.p0 21 16
/-- LINK_MASK of a partition (R348). -/
def Partition.linkMask (p : Partition) : Nat := bits p.p1 55 32
/-- SHARED of a partition (R348). -/
def Partition.shared (p : Partition) : Bool := bitAt p.p1 56
/-- QP_QUOTA of a partition (R348). -/
def Partition.qpQuota (p : Partition) : Nat := bits p.p2 40 32
/-- CTX_SHARE of a partition (R348). -/
def Partition.ctxShare (p : Partition) : Nat := bits p.p2 6 0

/-- The pairs of a partition, ascending (R342). -/
def Partition.pairs (p : Partition) : List Nat := maskList 16 p.pairMask

/-- The logical clusters of a partition in rank order (R342, R123). -/
def Partition.clusterList (p : Partition) : List Nat := (p.pairs.map (fun j => [2 * j, 2 * j + 1])).flatten

/-- The ledger bank in which a partition's cell lies: cells fill its banks in turn, 65,536 to each (R14, R345; DESIGN CHOICE: the manual does
not number a partition's banks). -/
def Partition.ledgerBank (p : Partition) (cell : Nat) : Option Nat := p.ledger[cell / 65536]?

/-- S, the stack count of a partition (R342). -/
def Partition.stacks (p : Partition) : Nat := p.clusterList.length

/-- The size of a partition's DRAM in bytes (R19). -/
def Partition.dramSize (p : Partition) : Nat := p.stacks * 2 ^ 34

/-- The partition exists in some phase of its life. -/
def Partition.exists' (p : Partition) : Bool := p.st != .absent

/-- The partition that owns a logical cluster, if one does (R345). -/
def State.ownerOf (s : State) (c : Nat) : Option (Fin 16) :=
  allParts.find? (fun p => (s.parts[p]).exists' && (s.parts[p]).pairMask.testBit (c / 2))

/-- The bank that a partition owns (R292). -/
def State.bankOf (s : State) (p : Fin 16) : Option (Fin 18) :=
  (List.finRange 18).find? (fun b => decide ((s.banks[b]).role = .owned p.val))

/-! ## Channel state and interrupts -/

/-- Is the mailbox ready (R446)? -/
def State.mailboxReady (s : State) : Bool :=
  match s.boot.phase with
  | .ready => true
  | .deviceFault => true
  | .fatal => true
  | _ => false

/-- STATE of a channel (R414). -/
def State.chState (s : State) (ch : Fin 17) : Nat :=
  match s.boot.phase with
  | .fatal => 4
  | .ready =>
    if ch = 0 then 1
    else
      match (s.parts[chanPart ch]).st with
      | .absent => 2
      | .creating => 5
      | .active => 1
      | .destroying => 6
  | .deviceFault => if ch = 0 then 3 else 2
  | _ => 0

/-- Does the function of a channel exist (R407)? -/
def State.fnExists (s : State) (ch : Fin 17) : Bool := ch.val = 0 || ch.val ≤ s.boot.numVfs

/-- Does the function send MSI-X messages now (R406, R409, R467)? -/
def State.canSend (s : State) (ch : Fin 17) : Bool :=
  s.fnExists ch && s.boot.pcieUp && s.boot.bme.getD ch.val false && !(s.chans[ch]).d3hot

/-- Send the unsent messages of a channel whose mask bit is 0, lowest vector first (R416). -/
def State.sendVectors (s : State) (ch : Fin 17) : List Nat → State
  | [] => s
  | i :: is =>
    let c := s.chans[ch]
    let e := c.msix.getD i ⟨0, 0, true⟩
    if c.irqUnsent.testBit i && c.irqCause.testBit i && !c.irqMask.testBit i && !e.masked && s.canSend ch then
      ((s.modChan ch (fun c => { c with irqUnsent := c.irqUnsent - 2 ^ i })).emit
        (.msix ch.val i e.addr e.data)).sendVectors ch is
    else s.sendVectors ch is

/-- Send whatever a channel may send now. -/
def State.flushIrq (s : State) (ch : Fin 17) : State := s.sendVectors ch [0, 1, 2, 3, 4]

/-- Set a cause bit of a channel: a setting from 0 to 1 earns one message (R416). -/
def State.raise (s : State) (ch : Fin 17) (i : Nat) : State :=
  if (s.chans[ch]).irqCause.testBit i then s
  else (s.modChan ch (fun c =>
    { c with irqCause := c.irqCause ||| 2 ^ i, irqUnsent := c.irqUnsent ||| 2 ^ i })).flushIrq ch

/-- Cause bit REPLY. -/
def irqReply : Nat := 0
/-- Cause bit EVENT. -/
def irqEvent : Nat := 1
/-- Cause bit CREDIT. -/
def irqCredit : Nat := 2
/-- Cause bit ERROR. -/
def irqError : Nat := 3
/-- Cause bit STATE. -/
def irqState : Nat := 4

/-- Raise STATE on every channel whose STATE differs from what it was in an earlier state (R416). -/
def State.raiseStates (old : State) (s : State) : List (Fin 17) → State
  | [] => s
  | ch :: r => State.raiseStates old (if s.chState ch != old.chState ch then s.raise ch irqState else s) r

/-- Raise STATE wherever a transition changed a channel's STATE. -/
def State.noteStates (old s : State) : State := State.raiseStates old s (List.finRange 17)

/-! ## Telemetry counts (R444, R445) -/

/-- Telemetry counts by their position in the block, offset 0x100 + 8 × position. -/
inductive Count where
  | foldAccepted | foldDuplicate | foldLate | foldDead | foldTagMismatch | foldRnr | foldOverrun | foldPauseNs
  | foldNak | foldAqOver | syncBlocked | syncDiscarded | syncSaturated | barRounds | barHeld | rngRestarts
  | rngNotReady | netRxPackets | netRxBad | netDupPsn | netSeqNak | netFatalNak | netTxPackets | netRetransmit
  | netCnpSent | netCnpReceived | netCtxMiss | cmdTaken | cmdRefused | cmdWordsLost | evtDropped
  | mirrorBlocked | rngRestartsAll
  deriving DecidableEq, Repr

/-- The position of a count; the PF's two own counts stand at positions 0 and 1 (R445). -/
def Count.pos : Count → Nat
  | .foldAccepted => 0 | .foldDuplicate => 1 | .foldLate => 2 | .foldDead => 3 | .foldTagMismatch => 4
  | .foldRnr => 5 | .foldOverrun => 6 | .foldPauseNs => 7 | .foldNak => 8 | .foldAqOver => 9 | .syncBlocked => 10
  | .syncDiscarded => 11 | .syncSaturated => 12 | .barRounds => 13 | .barHeld => 14 | .rngRestarts => 15
  | .rngNotReady => 16 | .netRxPackets => 17 | .netRxBad => 18 | .netDupPsn => 19 | .netSeqNak => 20
  | .netFatalNak => 21 | .netTxPackets => 22 | .netRetransmit => 23 | .netCnpSent => 24 | .netCnpReceived => 25
  | .netCtxMiss => 26 | .cmdTaken => 27 | .cmdRefused => 28 | .cmdWordsLost => 29 | .evtDropped => 30
  | .mirrorBlocked => 0 | .rngRestartsAll => 1

/-- Add to a telemetry count of a channel: 64 bits, which only increase, so that a full one stays full (R444; DEDUCED). -/
def State.count (s : State) (ch : Fin 17) (k : Count) (n : Nat) : State :=
  s.modChan ch (fun c => { c with counts := setAt c.counts k.pos (satAdd (2 ^ 64 - 1) (c.counts.getD k.pos 0) n) })

/-! ## Events (R420, R442) -/

/-- Words of whole events waiting. -/
def Channel.evtLevel (c : Channel) : Nat := (c.events.map List.length).foldl (· + ·) 0

/-- Status values as numbers (R441). -/
def Status.code : Status → Nat
  | .ok => 0 | .accepted => 1 | .busy => 0x10 | .retryLater => 0x11 | .badOpcode => 0x20 | .badLength => 0x21
  | .badParam => 0x22 | .badState => 0x23 | .notPermitted => 0x30 | .wrongPartition => 0x31 | .authFailed => 0x32
  | .noResource => 0x40 | .tableFull => 0x41 | .rngNotReady => 0x50 | .rngFailed => 0x51 | .keyMismatch => 0x60
  | .levelExhausted => 0x61 | .paramMismatch => 0x62 | .roundTorn => 0x70 | .duplicate => 0x71 | .revoking => 0x80
  | .configSkew => 0x90 | .powerDeferred => 0xA0 | .deviceFault => 0xF0 | .fatal => 0xFF

/-- Post an event to a channel (R442). It is dropped, which DROPPED, EVT_DROPPED and the ERROR cause show, where the function does not
exist (R407) or it does not fit (R415, R416, R420). -/
def State.post (s : State) (ch : Fin 17) (code : Nat) (st : Status) (data : List W64) : State :=
  let e := ((s.chans[ch]).eseq + 1) % 65536
  let s := s.modChan ch (fun c => { c with eseq := e })
  let pkt := w64 (e * 2 ^ 48 + data.length * 2 ^ 32 + st.code * 2 ^ 16 + code) :: data
  if s.fnExists ch && (s.chans[ch]).evtLevel + pkt.length ≤ 4096 then
    (s.modChan ch (fun c => { c with events := c.events ++ [pkt] })).raise ch irqEvent
  else
    ((s.modChan ch (fun c => { c with evtDropped := satAdd 65535 c.evtDropped 1 })).count ch .evtDropped 1).raise ch
      irqError

/-- Post an event to a partition's queue. A partition that is being destroyed discards its events (R353). -/
def State.postPart (s : State) (p : Fin 16) (code : Nat) (st : Status) (data : List W64) : State :=
  match (s.parts[p]).st with
  | .active => s.post (vf p) code st data
  | .creating => s.post (vf p) code st data
  | _ => s

/-- Post a device-wide event to every ACTIVE partition, with identical content, at the first device tick of the network complex from now on
(R356). -/
def State.postAll (s : State) (code : Nat) (st : Status) (data : List W64) : State :=
  allParts.foldl (fun s p => if (s.parts[p]).st = .active then s.post (vf p) code st data else s) s.toLocalTick

/-! ## Replies (R420 to R424) -/

/-- Words of whole replies waiting. -/
def Channel.rplLevel (c : Channel) : Nat := (c.replies.map List.length).foldl (· + ·) 0

/-- The nonce of a sealed payload (R423). -/
def sealNonce (ch dir seqExt : Nat) : List Byte := leBytes 2 ch ++ [byte dir, 0] ++ leBytes 8 seqExt

/-- The words of a reply packet (R422), sealed under R424 where the command was sealed, verified, and the reply has a
payload. -/
def replyPacket (ch : Nat) (r : Req) (st : Status) (ws : List W64) : List W64 :=
  match r.replyKey, ws with
  | some k, _ :: _ =>
    let w0 := w64 (r.seq * 2 ^ 48 + (ws.length + 2) * 2 ^ 32 + r.op * 2 ^ 16 + st.code)
    let w1 := w64 (2 ^ 16 + r.partition)
    let ct := gcmSeal k (sealNonce ch 1 r.seqExt) (wordsToBytes [w0, w1]) (wordsToBytes ws)
    w0 :: w1 :: (bytesToWords ws.length ct.1 ++ bytesToWords 2 ct.2)
  | _, _ => w64 (r.seq * 2 ^ 48 + ws.length * 2 ^ 32 + r.op * 2 ^ 16 + st.code) :: w64 r.partition :: ws

/-- Append a finished reply to the channel's buffer, or let it wait until it fits (R420). -/
def State.appendPacket (s : State) (ch : Fin 17) (pkt : List W64) : State :=
  let c := s.chans[ch]
  if c.unplaced = [] ∧ c.rplLevel + pkt.length ≤ 16384 then
    (s.modChan ch (fun c => { c with replies := c.replies ++ [pkt] })).raise ch irqReply
  else s.modChan ch (fun c => { c with unplaced := c.unplaced ++ [pkt] })

/-- Answer a command: its reply is appended unless an FLR discarded it (R409, R428). -/
def State.reply (s : State) (ch : Fin 17) (r : Req) (st : Status) (ws : List W64) : State :=
  if r.discard then s else s.appendPacket ch (replyPacket ch.val r st ws)

/-! ## Service turns (R344, R518) -/

/-- Wall time at which a turn is under way, from now on: a turn of `len` at `off` in a rotation of `period` that began at `t0`. -/
def turnFrom (now t0 period off len : Nat) : Nat :=
  let first := t0 + off
  if now < first then first
  else
    let x := (now - first) % period
    if x < len then now else now - x + period

/-- The first moment, from `t` on, within a service turn of a channel (R518). -/
def State.serviceFrom (s : State) (ch : Fin 17) (t : Nat) : Nat :=
  turnFrom t s.boot.readyAt (if ch.val % 4 = 0 then 40 * us else 32 * us) (ch.val / 4 * (8 * us)) (8 * us)

/-- The service core takes up a channel: wall time moves on to the channel's turn, unless it stands in one. The turns end with a reset (R518);
what a warm reset still answers has none. -/
def State.inService (s : State) (ch : Fin 17) : State := if s.mailboxReady then s.advance (s.serviceFrom ch s.clock) else s

/-- Answer the held command of a channel in a turn of the channel (R427), and let the channel go on. -/
def State.finishHeld (s : State) (ch : Fin 17) (st : Status) (ws : List W64) : State :=
  match (s.chans[ch]).held with
  | some h => ((s.inService ch).modChan ch (fun c => { c with held := none })).reply ch h.req st ws
  | none => s

/-! ## Repair pools (R27, R496) -/

/-- Repairs of one pool on enabled sites. -/
def State.repairsOf (s : State) (pool : Nat) : List Repair :=
  s.nvm.repairs.filter (fun r => r.pool == pool && !r.retire && s.nvm.siteMap.contains r.site)

/-- Repairs of one pool on one site. -/
def State.repairsAt (s : State) (pool site : Nat) : Nat := ((s.repairsOf pool).filter (fun r => r.site == site)).length

/-- The site number that stands for the ledger's arrays in pool 4 (DESIGN CHOICE). -/
def ledgerSite : Nat := 0xFF

/-- SRAM arrays of a cluster site, the eight local stores and the shared store, and of the ledger, one per bank (DESIGN CHOICE: R27 names the
memories; how many arrays make up each is not stated). -/
def rowArrays (site : Nat) : Nat := if site = ledgerSite then 32 else 9

/-- Spare SRAM rows left in the arrays of the enabled sites and of the ledger (R496). -/
def State.rowsLeft (s : State) : Nat :=
  let left (t : Nat) : Nat := (List.range (rowArrays t)).foldl (fun n a => n + ((Config.spareSramRows t a).toNat
    - (s.nvm.repairs.filter (fun r => r.pool == 4 && !r.retire && r.site == t && r.element / 256 == a)).length)) 0
  (ledgerSite :: s.nvm.siteMap).foldl (fun n t => n + left t) 0

/-- Cell repairs of one engine: the element's bits from 8 up name the core (DESIGN CHOICE). -/
def State.cellRepairs (s : State) (site core : Nat) : Nat :=
  ((s.repairsOf 1).filter (fun r => r.site == site && r.element / 256 == core)).length

/-- Least cells left in any enabled engine. -/
def State.leastCells (s : State) : Nat :=
  s.nvm.siteMap.foldl (fun m t => (List.range 8).foldl (fun m c => Nat.min m (4 - s.cellRepairs t c)) m) 4

/-- Spare sites that are healthy, of a repair state. -/
def Spares.sites (x : Spares) : List Nat := (List.range 36).filter (fun t => !x.siteMap.contains t && !x.retiredSites.contains t)

/-- The repair state in force. -/
def Nvm.spares (n : Nvm) : Spares := ⟨n.repairs, n.retiredSites, n.siteMap⟩

/-- Spare sites that are healthy. -/
def State.spareSites (s : State) : List Nat := s.nvm.spares.sites

/-- BANK_STATE (R299, R302, R304): a bank of which a source has failed since is DEGRADED, a spare as well, and STALLED where both are RESTARTING.
While one source of a bank in use is still in its power-up test and the other runs, the bank is DEGRADED too (DESIGN CHOICE: the table
names no value). -/
def Bank.stateCode (b : Bank) : Nat :=
  let r (x : Source) : Bool := x.st = .running
  let d (x : Source) : Bool := x.st = .retired
  let failed (x : Source) : Bool := x.st = .restarting || x.st = .retired
  if d b.src0 && d b.src1 then 4
  else if !b.started then 0
  else if b.src0.st = .restarting && b.src1.st = .restarting then 5
  else if b.role = .spare && !failed b.src0 && !failed b.src1 then 3
  else if r b.src0 && r b.src1 then 1
  else 2

/-- Banks in STANDBY. -/
def State.standbyBanks (s : State) : List (Fin 18) := (List.finRange 18).filter (fun b => (s.banks[b]).stateCode == 3)

/-- The anti-rollback fuses that are blown (R339, R485). -/
def Nvm.rollback (n : Nvm) : Nat := (n.fusesDue.map FusesDue.antiRollback).getD n.antiRollback

/-- The revoke fuses that are blown, a mask of signers (R339, R485). -/
def Nvm.revokes (n : Nvm) : Nat := (n.fusesDue.map FusesDue.revoked).getD n.revoked

/-- The words of section SPARES (R496). -/
def State.sparesWords (s : State) : List W64 :=
  let cells := 1024 - (s.repairsOf 1).length
  let dies := (s.nvm.siteMap.filter (fun t => t < 36 && s.repairsAt 2 t == 0)).length
  let tsv := s.nvm.siteMap.foldl (fun m t => Nat.min m (256 - s.repairsAt 3 t)) 256
  let lanes := listMask ((List.range 4).filter (fun g =>
    !(List.finRange 24).any (fun l => l.val / 6 == g && (s.links[l]).spareInUse)))
  let rows := s.rowsLeft
  let cfgs := (s.nvm.cfg.filter (fun r => r.any ConfigRec.valid)).length
  let fws := (s.nvm.fw.filter (fun f => match f with
    | some i => i.svn ≥ s.nvm.rollback && !s.nvm.revokes.testBit i.signer
    | none => false)).length
  [w64 (cells * 2 ^ 48 + s.leastCells * 2 ^ 40 + dies * 2 ^ 32 + tsv * 2 ^ 23 + lanes * 2 ^ 8
      + s.standbyBanks.length * 2 ^ 4 + s.spareSites.length),
   w64 (rows * 2 ^ 32 + cfgs * 2 ^ 8 + fws)]

/-- The role byte of a bank in section SITE_MAP (R496). -/
def Bank.roleByte (b : Bank) : Nat :=
  match b.role with
  | .owned p => p
  | .unallocated => 0xFE
  | .spare => 0xFF
  | .none => 0xFD

/-- The words of section SITE_MAP (R496). -/
def State.siteMapWords (s : State) : List W64 :=
  bytesToWords 4 (s.nvm.siteMap.map byte) ++ bytesToWords 3 (s.banks.toList.map (fun b => byte b.roleByte))
    ++ [w64 (listMask s.nvm.retiredSites)]

/-! ## The kickstand log (R488 to R494) -/

/-- The length of a record in the ring (R488). -/
def LogRec.words (r : LogRec) : Nat := 5 + r.data.length

/-- Words of the records present. -/
def logWords (l : List LogRec) : Nat := l.foldl (fun n r => n + r.words) 0

/-- Drop the oldest records until the ring's 8,388,608 words hold the rest (R486, R493). -/
def trimRing : Nat → List LogRec → List LogRec
  | _, [] => []
  | total, r :: rs => if total ≤ 8388608 then r :: rs else trimRing (total - r.words) rs

/-- The writes under way, with one that begins at a moment (R489). -/
def Nvm.writing (n : Nvm) (now : Nat) (w : NvmWrite) : Nvm :=
  { n with writes := w :: (if n.writesAt = now then n.writes else []), writesAt := now }

/-- Write one record in the three phases of R489: WORDS + 6 words of NVM. It is present as a whole, unless power is lost meanwhile. -/
def State.logWrite (s : State) (kind cls source suppressed : Nat) (data : List W64) : State :=
  let r : LogRec := ⟨s.nvm.logSeq + 1, kind, cls, source, Nat.min 65535 suppressed, s.nvm.life.seconds, s.nvm.life.utc,
    data⟩
  let l := s.nvm.log ++ [r]
  let kept := trimRing (logWords l) l
  let n := s.nvm.writing s.clock (.append (data.length + 6) (s.nvm.log.take (l.length - kept.length)) s.nvm.head s.nvm.snap)
  { s with nvm := { n with
      log := kept, logSeq := r.seq, head := (n.head + r.words) % 8388608
      life := { n.life with nvmWrites := n.life.nvmWrites + data.length + 6 } } }

/-- Ring words from the oldest retained SNAPSHOT to the head. -/
def sinceSnapshot : List LogRec → Nat
  | [] => 0
  | r :: rs => if r.kind == 0x0104 then logWords (r :: rs) else sinceSnapshot rs

/-- The ring head is within 1 MiB, which is 131,072 words, of the oldest retained SNAPSHOT (R492). -/
def nearSnapshot (l : List LogRec) : Bool := sinceSnapshot l > 0 && 8388608 - sinceSnapshot l < 131072

/-- Append a SNAPSHOT (R491, R492). It stands for the repair state of its moment, of which its words show what R496 lays out. -/
def State.logSnapshot (s : State) : State :=
  let t := s.logWrite 0x0104 1 1 0 (s.sparesWords ++ s.siteMapWords)
  { t with nvm := { t.nvm with snap := t.nvm.spares } }

/-- Append a record, withheld and counted where R494 limits its kind; a SNAPSHOT follows when the ring head comes within
1 MiB of the oldest retained one, once for each time (R492). -/
def State.logFrom (s : State) (source kind cls : Nat) (data : List W64) : State :=
  let t := s.nvm.life.seconds
  let old := (Table.get? s.nvm.rates kind).getD ⟨t, 0, 0⟩
  let r : LogRate := if old.second = t then old else ⟨t, 0, old.withheld⟩
  let limited := cls == 0 || cls == 2 || cls == 5 || cls == 6
  if limited && r.count ≥ 16 then
    { s with nvm := { s.nvm with
        rates := Table.put s.nvm.rates kind { r with withheld := r.withheld + 1 }
        life := { s.nvm.life with withheld := s.nvm.life.withheld + 1 } } }
  else
    let near := nearSnapshot s.nvm.log
    let s := s.logWrite kind cls source r.withheld data
    let s := { s with nvm := { s.nvm with rates := Table.put s.nvm.rates kind ⟨t, r.count + 1, 0⟩ } }
    if nearSnapshot s.nvm.log && !near then s.logSnapshot else s

/-- Append a record from the RTP firmware. -/
def State.log (s : State) (kind cls : Nat) (data : List W64) : State := s.logFrom 1 kind cls data

/-! ## The counter store (R487) -/

/-- The second copy is the valid one with the higher count (R487, chapter 18). -/
def Copies.second {α : Type} (c : Copies α) : Bool := c.b.intact && (!c.a.intact || c.b.count > c.a.count)

/-- The contents that stand: those of the valid copy with the higher count. -/
def Copies.standing {α : Type} (c : Copies α) : Option α :=
  if c.second then some c.b.value else if c.a.intact then some c.a.value else none

/-- A write goes to the copy with the lower count, for which an invalid one is taken, under a count above the other's. -/
def Copies.write {α : Type} (c : Copies α) (x : α) : Copies α :=
  if c.second then { c with a := ⟨c.b.count + 1, true, x⟩ } else { c with b := ⟨c.a.count + 1, true, x⟩ }

/-- A write that was cut short leaves its copy with a CRC that does not match. -/
def Copies.torn {α : Type} (c : Copies α) : Copies α :=
  if c.second then { c with a := { c.a with intact := false } } else { c with b := { c.b with intact := false } }

/-- The counters as they were last stored; those of a new part where neither copy is valid (DESIGN CHOICE: the manual does not say). -/
def Nvm.stored (n : Nvm) : Lifetime := (n.store.standing.map Stored.life).getD Lifetime.new

/-- At boot the RTP starts from the head pointer of the counter store, or from word 0 and the oldest record without one (DESIGN CHOICE), and scans
forward to the last present record; the next append follows it (R489). -/
def Nvm.scan (n : Nvm) : Nvm :=
  match n.store.standing with
  | some c =>
    let after := n.log.filter (fun r => c.seq ≤ r.seq)
    { n with logSeq := (after.getLast?.map LogRec.seq).getD (c.seq - 1), head := (c.head + logWords after) % 8388608 }
  | none => { n with logSeq := (n.log.getLast?.map LogRec.seq).getD 0 }

/-- Words of NVM that a write takes; a fuse step counts as one (DESIGN CHOICE), as do the count and the rest of a boot-control copy. -/
def NvmWrite.words : NvmWrite → Nat
  | .append w _ _ _ => w
  | .store _ => 512
  | .config _ _ r => r.writes
  | .control _ => 2
  | .fuses _ => 2

/-- The NVM where a write reached only its first `n` words, fewer than all (R481, R485, R487, R489): a record is absent, a copy is invalid, a
configuration slot holds what R481 had come to, of the fuse steps both or the second are due. -/
def NvmWrite.cut (n : Nat) (m : Nvm) : NvmWrite → Nvm
  | .append _ lost head snap =>
    { m with log := (if n = 0 then lost else []) ++ m.log.dropLast, logSeq := m.logSeq - 1, head := head, snap := snap }
  | .store old => { m with store := if n = 0 then old else old.torn }
  | .config slot old r => { m with cfg := setAt m.cfg slot (ConfigRec.torn n r old) }
  | .control old => { m with bootCtl := if n = 0 then old else old.torn }
  | .fuses d => { m with fusesDue := some (if n = 0 then d else { d with antiRollback := m.antiRollback }) }

/-- The NVM where the last `n` words of a list of writes, the newest first, never landed (R486). -/
def Nvm.cutWrites (n : Nat) (m : Nvm) : List NvmWrite → Nvm
  | [] => m
  | w :: ws => if n = 0 then m else if n < w.words then w.cut (w.words - n) m else Nvm.cutWrites (n - w.words) (w.cut 0 m) ws

/-- Power goes: of the writes begun at this moment some number of the last words, a free value, never lands (R486, R489). -/
def State.cutNvm (s : State) : State :=
  if s.nvm.writesAt = s.clock then
    let (x, s) := s.fresh
    let n := s.nvm
    { s with nvm := { Nvm.cutWrites (x % ((n.writes.map NvmWrite.words).foldl (· + ·) 0 + 1)) n n.writes with writes := [] } }
  else s

/-! ## Keys of the pannier (R311, R312) -/

/-- The key a slot holds: its two shares combined. -/
def KeySlot.key (k : KeySlot) : List Byte := xorBytes k.shareA k.shareB

/-- The key in a slot, if it holds one. -/
def State.keyAt (s : State) (slot : Nat) : Option (List Byte) := (Table.get? s.pannier slot).map KeySlot.key

/-- The pannier slot of a partition's local slot. -/
def partSlot (p : Fin 16) (loc : Nat) : Nat := 256 + 240 * p.val + loc

/-- The session-key slot of a channel (R423). -/
def sessionSlot (ch : Fin 17) : Nat := if ch = 0 then 128 else partSlot (chanPart ch) 0

/-- Take 384 bits from the device pool (R296, R309). Where it holds fewer, the RTP waits for words that the banks deliver meanwhile (R301: the hold
applies to its own draws): noise that no command brings, so free values. -/
def State.poolSeed (s : State) : List Byte × State :=
  let ws := s.pool.take 6
  let (more, s) := { s with pool := s.pool.drop 6 }.freshBytes (8 * (6 - ws.length))
  (wordsToBytes ws ++ more, s)

/-- Draw `n` bytes from the device DRBG, which reseeds from the device pool before each use (R307, R309). -/
def State.deviceDraw (s : State) (n : Nat) : List Byte × State :=
  let (e, s) := s.poolSeed
  let (o, d) := (s.devDrbg.reseed e).draw n
  (o, { s with devDrbg := d })

/-- Draw `n` bytes from a partition's key instance (R307). -/
def State.partDraw (s : State) (p : Fin 16) (n : Nat) : List Byte × State :=
  let (o, d) := (s.parts[p]).keyDrbg.draw n
  (o, s.modPart p (fun q => { q with keyDrbg := d }))

/-- How long a re-masking period lasts (R313); none for OFF. -/
def remaskUnits : Nat → Option Nat
  | 1 => some (10 * ms)
  | 2 => some sec
  | _ => none

/-- The engines that hold a copy of a slot's key (R311, R312, R328, R364, R395): the stack controllers of a partition for its memory
keys, a link's MACsec engine for its SAKs and its Binigal engine for its link keys. -/
def State.enginesOf (s : State) (slot : Nat) : List KeyEngine :=
  if 32 ≤ slot && slot < 80 then [.macsec ((slot - 32) / 2)]
  else if 80 ≤ slot && slot < 128 then [.binigal ((slot - 80) / 2)]
  else if 256 ≤ slot && ((slot - 256) % 240 == 1 || (slot - 256) % 240 == 2) then
    (s.parts[Fin.ofNat 16 ((slot - 256) / 240)]).clusterList.map .stack
  else []

/-- Hold a key under other shares, in its slot and in every engine copy at once: k xor m xor m′ and m xor m′ (R313). -/
def KeySlot.reshare (k : KeySlot) (m : List Byte) : KeySlot :=
  { k with
    shareA := xorBytes k.shareA m, shareB := xorBytes k.shareB m
    copies := k.copies.map (fun e => (e.1, xorBytes e.2.1 m, xorBytes e.2.2 m)) }

/-- The key that an engine computes from its copy of a slot. -/
def KeySlot.engineKey (k : KeySlot) (e : KeyEngine) : Option (List Byte) :=
  (k.copies.find? (fun x => x.1 == e)).map (fun x => xorBytes x.2.1 x.2.2)

/-- The key of a slot as an engine uses it. -/
def State.engineKey (s : State) (slot : Nat) (e : KeyEngine) : Option (List Byte) :=
  (Table.get? s.pannier slot).bind (fun k => k.engineKey e)

/-- Byte `i` of a slot's first or second share as the pannier's cells hold it: cell and content, scrambled under the key drawn at cold
reset (R312). Nothing reads the cells but the RTP, which undoes both. -/
def State.pannierCell (s : State) (slot i : Nat) (second : Bool) : Option (Nat × Byte) :=
  (Table.get? s.pannier slot).map (fun k =>
    let n := (slot * 2 + b2n second) * 128 + i
    (Config.scrambleAddress s.boot.scrambleKey n,
     Config.scrambleContent s.boot.scrambleKey n ((if second then k.shareB else k.shareA).getD i 0)))

/-- The copies of a slot that jobs use, which stay as they are when another key comes into the slot (DESIGN CHOICE: the manual does not say what
becomes of a job's key then; log 150). -/
def State.jobCopies (s : State) (slot : Nat) : List (KeyEngine × List Byte × List Byte) :=
  ((Table.get? s.pannier slot).elim [] KeySlot.copies).filter (fun e => match e.1 with
    | .keystream _ => true
    | _ => false)

/-- Put a key into a slot as two shares under a mask drawn from the device DRBG, and its masked copies into the engines that use it
(R312, R313). -/
def State.placeKey (s : State) (slot kind : Nat) (key : List Byte) (policy serial period : Nat) : State :=
  let (m, s) := s.deviceDraw key.length
  let k : KeySlot := ⟨kind, xorBytes key m, m, (s.enginesOf slot).map (fun e => (e, xorBytes key m, m)) ++ s.jobCopies slot, policy, serial,
    s.nvm.life.seconds, period, s.clock + (remaskUnits period).getD 0⟩
  { s with pannier := Table.put s.pannier slot k }

/-! ## GCM-AES-XPN-256 (R332, R364) -/

/-- Protection under a SAK (R364): the encrypted data and the ICV. The IV is the SSCI and the packet number under the SAK's salt, the additional
data are the MAC addresses and the SecTAG with the SCI (PRESUMED: IEEE 802.1AE; log 152). -/
def xpnSeal (sak : List Byte) (ssci sci an pn dmac smac : Nat) (pt : List Byte) : List Byte × List Byte :=
  let iv := xorBytes (beBytes 4 ssci ++ beBytes 8 pn) (beBytes 12 (Config.sakSalt sak).toNat)
  let aad := beBytes 6 dmac ++ beBytes 6 smac ++ [0x88, 0xE5, byte (0x2C + an), byte (if pt.length < 48 then pt.length else 0)]
    ++ beBytes 4 pn ++ beBytes 8 sci
  gcmSeal sak iv aad pt

/-- The SSCI of the participant with one SCI beside one with another: 1 for the higher SCI (PRESUMED: IEEE 802.1X; log 152). -/
def ssciOf (sci other : Nat) : Nat := if other < sci then 1 else 2

/-- The destination MAC of a frame on an Ethernet link: pauses go to the group address of MAC control. -/
def Output.dmac : Output → Nat
  | .packet _ h _ _ => h.dmac
  | .answer _ h _ _ _ => h.dmac
  | .neighbour _ d _ _ _ _ _ => d
  | _ => 0x0180C2000001

/-- Show a frame on a link (R360, R363, R364): nothing leaves a link that is not UP, and a link with MACsec protects each frame under
its newest SAK, which takes the next packet number. -/
def State.emitOn (s : State) (l : Fin 24) (o : Output) : State :=
  let k := s.links[l]
  if k.st != .up then s
  else if k.macsec then
    let e := xpnSeal ((s.keyAt (k.sakSlot l.val)).getD []) (ssciOf k.sci k.peerSci) k.sci k.an k.pnTx o.dmac k.mac (Config.sentBytes o)
    (s.modLink l (fun k => { k with pnTx := k.pnTx + 1 })).emit (.secured k.sci k.an k.pnTx e.1 e.2 o)
  else s.emit o

/-- The re-masking period of a slot's key; that of installed and derived keys where it holds none (R313). -/
def State.slotPeriod (s : State) (slot : Nat) : Nat := (Table.get? s.pannier slot).elim 2 KeySlot.period

/-- Zero a slot. -/
def State.clearKey (s : State) (slot : Nat) : State := { s with pannier := Table.del s.pannier slot }

/-- Zero every slot from `lo` up to, not including, `hi`. -/
def State.clearKeys (s : State) (lo hi : Nat) : State := { s with pannier := Table.delRange s.pannier lo hi }

/-! ## Identity (R318) -/

/-- Derive the identity and binding keys into slots 0 and 1 (R318); derived keys are re-masked every 1 s (R313). -/
def State.deriveIdentity (s : State) : State :=
  ((s.placeKey 0 1 (beBytes 48 identityKey) 0 0 2).placeKey 1 2 (beBytes 48 bindingKey) 0 0 2)

/-- Sign bytes with the identity key, the nonce drawn from the device DRBG (R324). -/
def State.signIdentity (s : State) (m : List Byte) : List Byte × State :=
  let (k, s) := s.deviceDraw 56
  (ecdsaSign identityKey (scalarOf k) m, s)

/-! ## Attestation log (R322, R323) -/

/-- Append a record to a partition's attestation log. -/
def State.attest (s : State) (p : Fin 16) (kind : Nat) (value : List Byte) : State :=
  s.modPart p (fun q =>
    let r := leBytes 4 q.log.count ++ [byte kind, 0, 0, 0] ++ leBytes 8 s.nvm.life.seconds ++ padTo 48 value
    let kept := q.log.kept ++ [r]
    { q with log := ⟨q.log.count + 1, sha384 (q.log.digest ++ r), kept.drop (kept.length - 4096)⟩ })

/-! ## ALERT_N (R511) -/

/-- ALERT_N is driven low (R511). -/
def State.alert (s : State) : Bool :=
  s.power.throttle.isSome || s.power.hold.isSome || s.rngAlarm || s.boot.phase = .deviceFault || s.boot.phase = .fatal
    || s.boot.failStep != 0

end Sys2Proof.Machine
end

