-- ==== Sys2Proof/Machine/Mailbox.lean ====
section
/-! DEFINITION. The host mailbox: the opcode table's envelope (R440), the checks of R426 rows 1 to 9, taking a command,
ASYNC and chained commands (R430, R431), and the channel's registers (R408 to R420) with the rows that read and write
them. What a command does once it has passed these checks is its handler, in its own family's file. -/

namespace Sys2Proof.Machine

open Sys2Proof.Machine.Crypto

/-! ## The opcode table -/

/-- The Sealing column of R440 for one channel kind: required under the channel's session key (`req`, and `admin` on the
PF), optional, decided per operation, or never. -/
inductive Sealing where
  | required | optional | never
  deriving DecidableEq, Repr

/-- A row of R440: whether the PF and the VFs accept it, its sealing on each, and its payload words before any tag. -/
structure OpInfo where
  pf : Option Sealing
  vf : Option Sealing
  lo : Nat
  hi : Nat
  deriving DecidableEq, Repr

/-- The most payload words a command can carry before a tag (R421). -/
def maxWords : Nat := 8188

/-- R440 by opcode. `optional` also stands for sealing decided per operation. -/
def opInfo : Nat → Option OpInfo
  | 0x0101 => some ⟨some .optional, some .optional, 0, 0⟩
  | 0x0102 => some ⟨some .optional, some .optional, 0, 0⟩
  | 0x0103 => some ⟨some .required, none, 1, 1⟩
  | 0x0104 => some ⟨some .required, none, 1, 1⟩
  | 0x0201 => some ⟨some .required, none, 15, 15⟩
  | 0x0202 => some ⟨some .required, some .required, 1, 1⟩
  | 0x0203 => some ⟨some .optional, some .optional, 1, 1⟩
  | 0x0204 => some ⟨some .never, some .never, 29, 29⟩
  | 0x0205 => some ⟨none, some .required, 15, 15⟩
  | 0x0301 => some ⟨none, some .required, 14, 14⟩
  | 0x0302 => some ⟨none, some .required, 2, 2⟩
  | 0x0303 => some ⟨none, some .required, 4, maxWords⟩
  | 0x0304 => some ⟨none, some .required, 4, maxWords⟩
  | 0x0305 => some ⟨none, some .required, 2, 7⟩
  | 0x0306 => some ⟨none, some .required, 1, 49⟩
  | 0x0307 => some ⟨none, some .optional, 2, 2⟩
  | 0x0308 => some ⟨none, some .required, 1, 1⟩
  | 0x0401 => some ⟨none, some .required, 1, 1⟩
  | 0x0402 => some ⟨some .optional, some .optional, 6, 6⟩
  | 0x0403 => some ⟨some .required, some .required, 1, 1⟩
  | 0x0404 => some ⟨some .required, some .required, 1, 1⟩
  | 0x0405 => some ⟨none, some .required, 5, 5⟩
  | 0x0406 => some ⟨none, some .required, 4, 4⟩
  | 0x0407 => some ⟨some .required, some .required, 1, 1⟩
  | 0x0501 => some ⟨none, some .required, 5, maxWords⟩
  | 0x0502 => some ⟨none, some .required, 2, 10⟩
  | 0x0503 => some ⟨none, some .optional, 1, 1⟩
  | 0x0504 => some ⟨none, some .required, 1, 1⟩
  | 0x0601 => some ⟨some .optional, some .optional, 1, 7⟩
  | 0x0602 => some ⟨none, some .required, 2, 5⟩
  | 0x0603 => some ⟨none, some .required, 3, 7⟩
  | 0x0604 => some ⟨none, some .required, 1, 1⟩
  | 0x0605 => some ⟨none, some .required, 4, 4⟩
  | 0x0606 => some ⟨none, some .required, 1, 1⟩
  | 0x0607 => some ⟨none, some .required, 6, 70⟩
  | 0x0608 => some ⟨none, some .required, 1, 1⟩
  | 0x0701 => some ⟨some .required, some .required, 1, 1⟩
  | 0x0702 => some ⟨some .optional, some .optional, 0, 0⟩
  | 0x0801 => some ⟨some .required, none, 2, maxWords⟩
  | 0x0802 => some ⟨some .optional, some .optional, 0, 0⟩
  | 0x0803 => some ⟨some .required, none, 2, maxWords⟩
  | 0x0804 => some ⟨some .required, none, 1, 1⟩
  | 0x0901 => some ⟨some .optional, none, 2, 2⟩
  | 0x0902 => some ⟨some .optional, none, 1, 1⟩
  | 0x0A01 => some ⟨none, some .required, 1, 1⟩
  | 0x0A02 => some ⟨some .required, some .required, 2, 2⟩
  | 0x0A03 => some ⟨some .optional, some .required, 1, 25⟩
  | _ => none

/-- Opcodes that may be carried as a chain (R430). -/
def chains (op : Nat) : Bool := op == 0x0501 || op == 0x0801 || op == 0x0803

/-- Opcodes some operation of which allows ASYNC (R431). -/
def asyncOk (op : Nat) : Bool := op == 0x0303 || op == 0x0304 || op == 0x0501 || op == 0x0801 || op == 0x0803

/-- The opcodes served while the part is not in service (R29, R414). -/
def servedAlways (op : Nat) : Bool := op == 0x0101 || op == 0x0102 || op == 0x0901 || op == 0x0902

/-- RESET_DEVICE COLD on the PF: besides RESET_N the way out of FATAL, so it is served there (R472). -/
def leavesFatal (ch : Fin 17) (op : Nat) (c : Cmd) : Bool := ch = 0 && op == 0x0103 && bits (word c.payload 0) 2 0 == 1

/-! ## The envelope (R426) -/

/-- What the envelope decides. -/
inductive Gate where
  /-- Refused; whether the sequence advances. -/
  | refuse (st : Status) (advance : Bool)
  /-- OPEN_SESSION while CREATING waits (R347). -/
  | wait
  | go
  deriving DecidableEq, Repr

/-- R426 rows 1 to 9 in order. `short` marks a sealed packet with no room for its tag. -/
def gate (s : State) (ch : Fin 17) (op : Nat) (c : Cmd) (short : Bool) : Gate :=
  let chan := s.chans[ch]
  let part := s.parts[chanPart ch]
  let has := (s.keyAt (sessionSlot ch)).isSome
  if c.seq != chan.seqExpect % 65536 then .refuse .badState false
  else if c.hdrVersion != 1 || c.reserved != 0 || (!c.last && !chains op) || (c.async && !asyncOk op)
      || (c.sealed && op == 0x0204) then .refuse .badParam true
  else
    match opInfo op with
    | none => .refuse .badOpcode true
    | some info =>
      if s.boot.phase = .deviceFault && !servedAlways op then .refuse .deviceFault true
      else if s.boot.phase = .fatal && !servedAlways op && !leavesFatal ch op c then .refuse .fatal true
      else
        match if ch = 0 then info.pf else info.vf with
        | none => .refuse .notPermitted true
        | some sl =>
          if (sl = .required && !c.sealed) || (c.sealed && !has) then .refuse .notPermitted true
          else if c.partition != (if ch = 0 then 0xFFFF else ch.val - 1) then .refuse .wrongPartition true
          else if ch != 0 && part.st = .creating && op == 0x0204 then .wait
          else if ch != 0 && part.st != .active then .refuse .badState true
          else if c.payload.length < info.lo || info.hi < c.payload.length || short then .refuse .badLength true
          else if c.sealed && !c.tagOk then .refuse .authFailed true
          else .go

/-! ## Taking a command -/

/-- What a handler makes of a command that has passed R426 rows 1 to 9. -/
inductive Handled where
  /-- Refused under row 10, with no effect. -/
  | refuse (st : Status)
  /-- Finished: status, reply payload, state. -/
  | done (st : Status) (ws : List W64) (s : State)
  /-- Held by a wait of its rule (R427). -/
  | hold (why : Hold) (s : State)
  /-- Finished with its reply already placed, or with none owed. -/
  | silent (s : State)
  deriving DecidableEq, Repr

/-- A command's own rule: row 10 of R426 and its effect. -/
abbrev Handler := Fin 17 → Req → State → Handled

/-- Carry out what a handler decided. -/
def State.settle (s : State) (ch : Fin 17) (r : Req) : Handled → State
  | .refuse st => (s.count ch .cmdRefused 1).reply ch r st []
  | .done st ws s' => s'.reply ch r st ws
  | .hold why s' => s'.modChan ch (fun c => { c with held := some ⟨r, why⟩ })
  | .silent s' => s'

/-- The request that a command makes once it is taken. -/
def mkReq (s : State) (ch : Fin 17) (op : Nat) (c : Cmd) : Req :=
  { op := op, seq := c.seq, seqExt := (s.chans[ch]).seqExpect, partition := c.partition, sealed := c.sealed,
    replyKey := if c.sealed && c.tagOk then s.keyAt (sessionSlot ch) else none, payload := c.payload, last := c.last,
    async := c.async, discard := false, since := s.clock, places := (s.parts[chanPart ch]).rnd.nextPlace
    chain := if c.async then (s.chans[ch]).chain.filter (fun k => k.op == op) else none }

/-- A command of another opcode abandons a chain in progress, except OPEN_SESSION (R430). One of the chain's own opcode that a row of R426
refuses has no effect and leaves the chain standing (DESIGN CHOICE: R430 names other opcodes, R154 other commands). -/
def State.abandonChain (s : State) (ch : Fin 17) (op : Nat) : State :=
  match (s.chans[ch]).chain with
  | some k => if k.op != op && op != 0x0204 then s.modChan ch (fun c => { c with chain := none }) else s
  | none => s

/-- Refuse a part of a chain with no effect: a chain that an ASYNC command took with it returns to its channel, unless another has begun
there (DESIGN CHOICE). -/
def State.returnPart (s : State) (ch : Fin 17) (r : Req) (st : Status) : Handled :=
  .done st [] ((s.modChan ch (fun k => { k with chain := if r.async && k.chain.isNone then r.chain else k.chain })).count ch
    .cmdRefused 1)

/-! ## Turns (R344, R518) -/

/-- The first moment, from `t` on, within a turn of the RTP: those of channels 0 to 16, and 17 for housekeeping (R344). -/
def State.rtpFrom (s : State) (turn t : Nat) : Nat := turnFrom t s.boot.readyAt (180 * us) (turn * (10 * us)) (10 * us)

/-- Opcodes that are key operations, which run only in the RTP's turn of their channel (R344): those of the key chapter that make, use up or
change a key, and OPEN_SESSION, which agrees one (DESIGN CHOICE: the manual does not list them). -/
def keyOp (op : Nat) : Bool := op == 0x0204 || (0x0401 ≤ op && op ≤ 0x0407)

/-- A key operation goes through the RTP's turn of its channel and is answered in the channel's next service turn (R344, R518). -/
def State.inRtp (s : State) (ch : Fin 17) (op : Nat) : State :=
  if keyOp op then s.advance (s.serviceFrom ch (s.rtpFrom ch.val s.clock)) else s

/-- The RTP's housekeeping: wall time moves on to its turn, unless it stands in one (R344). -/
def State.inHousekeeping (s : State) : State := if s.mailboxReady then s.advance (s.rtpFrom 17 s.clock) else s

/-- Take a whole command: count it, check the envelope, advance the sequence (R425), answer ASYNC commands with ACCEPTED
(R431), and run the handler of any other. -/
def State.takeCmd (h : Handler) (ch : Fin 17) (op : Nat) (c : Cmd) (short : Bool) (s : State) : State :=
  let r := mkReq s ch op c
  let g := gate s ch op c short
  let s := s.count ch .cmdTaken 1
  let adv (s : State) : State := s.modChan ch (fun k => { k with seqExpect := (k.seqExpect + 1) % 2 ^ 64 })
  match g with
  | .refuse st a =>
    let s := if a then (adv s).abandonChain ch op else s
    (s.count ch .cmdRefused 1).reply ch { r with replyKey := none } st []
  | .wait => (adv s).modChan ch (fun k => { k with held := some ⟨r, .retry⟩ })
  | .go =>
    let s := (adv s).abandonChain ch op
    if c.async then
      (s.reply ch r .accepted []).modChan ch (fun k => { k with asyncs := k.asyncs ++ [⟨r, .retry⟩], chain := none })
    else
      let s := s.inRtp ch op
      s.settle ch r (h ch r s)

/-! ## Credits -/

/-- LENGTH of a typed command (R421). -/
def cmdLength (c : Cmd) : Nat := c.payload.length + if c.sealed then 2 else 0

/-- Words a waiting command holds in the buffer. -/
def Waiting.size : Waiting → Nat
  | .raw _ _ p => 2 + p.length
  | .typed _ c => 2 + cmdLength c

/-- Words of the command buffer in use. -/
def Channel.used (c : Channel) : Nat := c.partialCmd.length + (c.waiting.map Waiting.size).foldl (· + ·) 0

/-- MBX_CMD_CREDIT.WORDS (R415): 0 while BOOTING or CLOSED (R414). -/
def State.credits (s : State) (ch : Fin 17) : Nat :=
  if s.chState ch = 0 || s.chState ch = 2 then 0 else 16384 - (s.chans[ch]).used

/-- Lose `n` words (R419). -/
def State.loseWords (s : State) (ch : Fin 17) (n : Nat) : State :=
  ((s.modChan ch (fun c => { c with cmdLost := true })).count ch .cmdWordsLost n).raise ch irqError

/-- Raise CREDIT where WORDS has risen to 16,384 (R416). -/
def State.noteCredit (old : Nat) (s : State) (ch : Fin 17) : State :=
  if old < 16384 && s.credits ch = 16384 then s.raise ch irqCredit else s

/-- Raise CREDIT on every channel whose WORDS a transition has raised to 16,384 (R416). -/
def State.noteCredits (old s : State) : State :=
  (List.finRange 17).foldl (fun s ch => State.noteCredit (old.credits ch) s ch) s

/-- May the channel take its next command now (R427, R420, R431)? -/
def Channel.free (c : Channel) (async : Bool) : Bool :=
  c.held.isNone && c.unplaced.isEmpty && !(async && c.asyncs.length ≥ 4)

/-- The host reaches the function of a channel: it exists, the PCIe link is up and PERST# is released (R467, R507). -/
def State.reachable (s : State) (ch : Fin 17) : Bool := s.fnExists ch && s.boot.pcieUp && !s.boot.perst

/-- Write one word to MBX_CMD_DATA (R418, R419). -/
def State.writeCmdWord (s : State) (ch : Fin 17) (width : Nat) (w : W64) : State :=
  let c := s.chans[ch]
  if width != 8 || c.cmdLost || s.credits ch = 0 then s.loseWords ch 1
  else
    let ws := c.partialCmd ++ [w]
    let len := bits (ws.headD 0) 47 32
    if len > 8190 then s.loseWords ch 1
    else if ws.length = 2 + len then
      s.modChan ch (fun c => { c with partialCmd := [], waiting := c.waiting ++ [.raw (word ws 0) (word ws 1) (ws.drop 2)] })
    else s.modChan ch (fun c => { c with partialCmd := ws })

/-- The header words of a command (R421). -/
def cmdHeader (op : Nat) (c : Cmd) : List W64 :=
  [w64 (c.seq % 2 ^ 16 * 2 ^ 48 + cmdLength c % 2 ^ 16 * 2 ^ 32 + c.hdrVersion % 2 ^ 8 * 2 ^ 24 + b2n c.last * 2 ^ 18
      + b2n c.async * 2 ^ 17 + b2n c.sealed * 2 ^ 16 + op % 2 ^ 16),
   w64 (c.reserved % 2 ^ 48 * 2 ^ 16 + c.partition % 2 ^ 16)]

/-- The words in which the host writes a command (R418, R421, R423). A sealed payload whose tag verifies is sealed under the channel's session
key and the extended sequence number that SEQ stands for; another tag is a free value. -/
def State.cmdWords (s : State) (op : Nat) (ch : Fin 17) (c : Cmd) : List W64 × State :=
  let hd := cmdHeader op c
  if !c.sealed then (hd ++ c.payload, s)
  else
    match if c.tagOk then s.keyAt (sessionSlot ch) else none with
    | some k =>
      let ext := (s.chans[ch]).seqExpect / 65536 * 65536 + c.seq % 65536
      let ct := gcmSeal k (sealNonce ch.val 0 ext) (wordsToBytes hd) (wordsToBytes c.payload)
      (hd ++ bytesToWords c.payload.length ct.1 ++ bytesToWords 2 ct.2, s)
    | none =>
      let (tag, s) := s.freshBytes 16
      (hd ++ c.payload ++ bytesToWords 2 tag, s)

/-- The host writes a whole command. A channel that is free takes it in its service turn, when its credits return, and handles it (R418, R427,
R518); otherwise the command waits in the buffer. Where words of another command stand in the assembly, words are lost, or the credits do not reach, the command's words
go the way of words (R418, R419): they join what is being assembled, and are taken while WORDS is not 0. -/
def State.submit (h : Handler) (op : Nat) (ch : Fin 17) (c : Cmd) (s : State) : State :=
  let n := 2 + cmdLength c
  let chan := s.chans[ch]
  if !s.reachable ch then s
  else if chan.cmdLost || s.credits ch < n || cmdLength c > 8190 || !chan.partialCmd.isEmpty then
    let (ws, s) := s.cmdWords op ch c
    ws.foldl (fun s w => s.writeCmdWord ch 8 w) s
  else if chan.waiting.isEmpty && chan.free c.async then
    (State.noteCredit (s.credits ch - n) (s.inService ch) ch).takeCmd h ch op c false
  else s.modChan ch (fun k => { k with waiting := k.waiting ++ [.typed op c] })

/-- Set a field of a payload word: the operation that a row of the table names. -/
def cmdSel (c : Cmd) (i hi lo v : Nat) : Cmd :=
  { c with payload := setAt c.payload i (setBits (word c.payload i) hi lo v) }

/-- The typed form of a command that was written as words (R421, R423), with its opcode and whether a sealed payload is too
short for its tag. -/
def ofRaw (s : State) (ch : Fin 17) (w0 w1 : W64) (p : List W64) : Nat × Cmd × Bool :=
  let sealed := bitAt w0 16
  let base : Cmd :=
    { seq := bits w0 63 48, hdrVersion := bits w0 31 24, reserved := bits w0 23 19 + bits w1 63 16,
      last := bitAt w0 18, async := bitAt w0 17, sealed := sealed, tagOk := false, partition := bits w1 15 0,
      payload := p }
  let op := bits w0 15 0
  if !sealed then (op, base, false)
  else if p.length < 2 then (op, { base with payload := [] }, true)
  else
    let n := p.length - 2
    match s.keyAt (sessionSlot ch) with
    | none => (op, { base with payload := p.take n }, false)
    | some k =>
      match gcmOpen k (sealNonce ch.val 0 (s.chans[ch]).seqExpect) (wordsToBytes [w0, w1]) (wordsToBytes (p.take n))
          (wordsToBytes (p.drop n)) with
      | some pt => (op, { base with tagOk := true, payload := bytesToWords n pt }, false)
      | none => (op, { base with payload := p.take n }, false)

/-! ## A channel whose partition goes (R347, R353) -/

/-- The replies owed to a VF whose partition is being destroyed (R353): a command of the channel that has not finished ends with BAD_STATE,
as a command on a partition that is not ACTIVE does (R347; DESIGN CHOICE), and its chain is gone. One held for entropy is abandoned without a
reply (R301), and a DESTROY_PARTITION of the VF's own goes on to its reply. -/
def State.answerOwed (s : State) (ch : Fin 17) : State :=
  let c := s.chans[ch]
  let ours (h : Held) : Bool := match h.why with
    | .destruction _ => false
    | _ => true
  let owed := (c.asyncs ++ c.held.toList.filter ours).filter (fun h => decide (h.why ≠ .entropy))
  let s := s.modChan ch (fun c => { c with held := c.held.filter (fun h => !ours h), asyncs := [], chain := none })
  owed.foldl (fun s h => ((s.count ch .cmdRefused 1).inService ch).reply ch h.req .badState []) s

/-- Take the whole commands that still wait on a channel whose partition is not ACTIVE, in the channel's turns (R427): their credits return, and
each is refused (R347). -/
def State.refuseWaiting (s : State) (ch : Fin 17) : List Waiting → State
  | [] => s
  | w :: ws =>
    let (op, c, short) := match w with
      | .raw w0 w1 p => ofRaw s ch w0 w1 p
      | .typed op c => (op, c, false)
    let old := s.credits ch
    let s := State.noteCredit old ((s.modChan ch (fun k => { k with waiting := ws })).inService ch) ch
    (s.takeCmd (fun _ _ _ => .refuse .badState) ch op c short).refuseWaiting ch ws

/-! ## Channel registers -/

/-- MBX_ID (R412). -/
def mbxId (ch : Fin 17) : W64 :=
  w64 (0x9032 * 2 ^ 48 + 2 ^ 40 + 2 ^ 32 + (if ch = 0 then 0xFF else ch.val - 1) * 2 ^ 16 + ch.val)

/-- MBX_STATUS (R413). -/
def State.mbxStatus (s : State) (ch : Fin 17) : W64 :=
  let c := s.chans[ch]
  w64 (b2n s.power.hold.isSome * 2 ^ 7 + b2n c.cmdLost * 2 ^ 5
    + b2n (c.held.isSome || !c.asyncs.isEmpty || !c.unplaced.isEmpty) * 2 ^ 4 + s.chState ch)

/-- MBX_RPL_STATUS (R415). -/
def Channel.rplStatus (c : Channel) : W64 := w64 (b2n c.rplEmpty * 2 ^ 32 + c.replies.length * 2 ^ 16 + c.rplLevel)

/-- MBX_EVT_STATUS (R415). -/
def Channel.evtStatus (c : Channel) : W64 :=
  w64 (c.evtDropped * 2 ^ 48 + b2n c.evtEmpty * 2 ^ 32 + c.events.length * 2 ^ 16 + c.evtLevel)

/-- BOOT_PROGRESS (R411). -/
def State.bootProgress (s : State) : W64 := w64 (s.bootMs * 2 ^ 32 + s.boot.failStep * 2 ^ 8 + s.boot.step)

/-- The mask of ACTIVE partitions. -/
def State.activeMask (s : State) : Nat :=
  listMask ((allParts.filter (fun p => (s.parts[p]).st = .active)).map Fin.val)

/-- DEV_STATUS (R411). -/
def State.devStatus (s : State) : W64 :=
  w64 (s.activeMask * 2 ^ 48 + b2n s.rngAlarm * 2 ^ 10 + b2n s.power.throttle.isSome * 2 ^ 9
    + b2n s.power.hold.isSome * 2 ^ 8 + b2n s.debugAccess.unlocked * 2 ^ 4 + s.chState 0)

/-- The oldest word of a packet list, and the list without it. -/
def popWord : List (List W64) → Option (W64 × List (List W64))
  | [] => none
  | [] :: _ => none
  | (w :: ws) :: rest => some (w, if ws.isEmpty then rest else ws :: rest)

/-- Discard the partial command and clear CMD_LOST (R419). -/
def State.flushCmd (s : State) (ch : Fin 17) : State :=
  let old := s.credits ch
  State.noteCredit old (s.modChan ch (fun c => { c with partialCmd := [], cmdLost := false })) ch

/-- Write MBX_IRQ_MASK: the messages of set causes whose mask bit falls are sent (R416). -/
def State.writeIrqMask (s : State) (ch : Fin 17) (w : W64) : State :=
  (s.modChan ch (fun c => { c with irqMask := bits w 4 0 })).flushIrq ch

/-- Bits of `a` that `b` does not have, over `n` bits. -/
def clearBits (n a b : Nat) : Nat := listMask ((List.range n).filter (fun i => a.testBit i && !b.testBit i))

/-- Write MBX_IRQ_CAUSE: writing 1 clears a cause and what it had not yet sent (R416, W1C of R5). -/
def State.writeIrqCause (s : State) (ch : Fin 17) (w : W64) : State :=
  s.modChan ch (fun c =>
    { c with irqCause := clearBits 5 c.irqCause (bits w 4 0), irqUnsent := clearBits 5 c.irqUnsent (bits w 4 0) })

/-- Write the MSI-X table (R410) in the PCI layout of 16-byte entries: address, data, vector control. -/
def State.writeMsix (s : State) (ch : Fin 17) (off width : Nat) (w : W64) : State :=
  let i := (off - 0x8000) / 16
  let o := off % 16
  (s.modChan ch (fun c =>
    let e := c.msix.getD i ⟨0, 0, true⟩
    let e' : MsixEntry :=
      if o = 0 then (if width = 8 then { e with addr := w } else { e with addr := setBits e.addr 31 0 (bits w 31 0) })
      else if o = 4 then { e with addr := setBits e.addr 63 32 (bits w 31 0) }
      else if o = 8 then (if width = 8 then { e with data := bits w 31 0, masked := bitAt w 32 }
        else { e with data := bits w 31 0 })
      else if o = 12 then { e with masked := bitAt w 0 }
      else e
    { c with msix := setAt c.msix i e' })).flushIrq ch

/-! ## Meanings of the register rows -/

/-- MBX_CMD_DATA_WRITE (R418, R419). -/
def execMbxCmdDataWrite (ch : Fin 17) (width : Nat) (w : W64) (s : State) : Host.Outcome State Fault Refusal :=
  .next (if s.reachable ch then s.writeCmdWord ch width w else s)

/-- FLUSH: writing 1 to MBX_STATUS.FLUSH (R413, R419). -/
def execFlush (ch : Fin 17) (s : State) : Host.Outcome State Fault Refusal :=
  .next (if s.reachable ch then s.flushCmd ch else s)

/-- MBX_RPL_DATA_READ (R415): the oldest reply word, removed; 0 and EMPTY where there is none; 0 and no side effect for an
access that is not 64 bits wide (R408). -/
def execMbxRplDataRead (ch : Fin 17) (width : Nat) (s : State) : Host.Outcome State Fault Refusal :=
  .next (if !s.reachable ch then s
    else if width != 8 then s.emit (.readData 0)
    else
      match popWord (s.chans[ch]).replies with
      | some (w, rest) => (s.modChan ch (fun c => { c with replies := rest })).emit (.readData w)
      | none => (s.modChan ch (fun c => { c with rplEmpty := true })).emit (.readData 0))

/-- MBX_EVT_DATA_READ (R415). -/
def execMbxEvtDataRead (ch : Fin 17) (width : Nat) (s : State) : Host.Outcome State Fault Refusal :=
  .next (if !s.reachable ch then s
    else if width != 8 then s.emit (.readData 0)
    else
      match popWord (s.chans[ch]).events with
      | some (w, rest) => (s.modChan ch (fun c => { c with events := rest })).emit (.readData w)
      | none => (s.modChan ch (fun c => { c with evtEmpty := true })).emit (.readData 0))

/-- MBX_RPL_STATUS_READ (R415): the read clears EMPTY. -/
def execMbxRplStatusRead (ch : Fin 17) (width : Nat) (s : State) : Host.Outcome State Fault Refusal :=
  .next (if !s.reachable ch then s
    else if width != 8 then s.emit (.readData 0)
    else (s.modChan ch (fun c => { c with rplEmpty := false })).emit (.readData (s.chans[ch]).rplStatus))

/-- MBX_EVT_STATUS_READ (R415): the read clears DROPPED and EMPTY. -/
def execMbxEvtStatusRead (ch : Fin 17) (width : Nat) (s : State) : Host.Outcome State Fault Refusal :=
  .next (if !s.reachable ch then s
    else if width != 8 then s.emit (.readData 0)
    else (s.modChan ch (fun c => { c with evtEmpty := false, evtDropped := 0 })).emit
      (.readData (s.chans[ch]).evtStatus))

/-- MBX_IRQ_MASK_WRITE (R416). -/
def execMbxIrqMaskWrite (ch : Fin 17) (width : Nat) (w : W64) (s : State) : Host.Outcome State Fault Refusal :=
  .next (if s.reachable ch && width = 8 then s.writeIrqMask ch w else s)

/-- MBX_IRQ_CAUSE_WRITE (R416). -/
def execMbxIrqCauseWrite (ch : Fin 17) (width : Nat) (w : W64) (s : State) : Host.Outcome State Fault Refusal :=
  .next (if s.reachable ch && width = 8 then s.writeIrqCause ch w else s)

/-- The oldest finished reply that has waited is appended once it fits (R420). -/
def State.appendWaiting (s : State) (ch : Fin 17) : State :=
  let c := s.chans[ch]
  match c.unplaced with
  | pkt :: rest =>
    if c.rplLevel + pkt.length ≤ 16384 then
      (s.modChan ch (fun c => { c with unplaced := rest, replies := c.replies ++ [pkt] })).raise ch irqReply
    else s
  | [] => s

/-- What a function-level reset does to a channel (R409): it discards the command being assembled, the whole commands not
yet taken, the replies and the events, and marks the replies of commands under way as discarded; it keeps the sequence,
the session key, the partition and its work. -/
def State.flr (s : State) (ch : Fin 17) : State :=
  let n := (s.chans[ch]).events.length
  let drop (h : Held) : Held := { h with req := { h.req with discard := true } }
  (s.modChan ch (fun c =>
    { c with
        partialCmd := [], waiting := [], cmdLost := false, replies := [], unplaced := [], events := []
        irqCause := 0, irqMask := 31, irqUnsent := 0, chain := none, held := c.held.map drop,
        asyncs := c.asyncs.map drop })).count ch .evtDropped n

/-- FUNCTION_LEVEL_RESET (R409). -/
def execFunctionLevelReset (ch : Fin 17) (s : State) : Host.Outcome State Fault Refusal :=
  .next (if s.reachable ch then s.flr ch else s)

/-- Write Bus Master Enable of a function (R406, R467): where it is set, the messages withheld while it was clear are sent. -/
def State.writeBme (s : State) (ch : Fin 17) (on : Bool) : State :=
  ({ s with boot := { s.boot with bme := setAt s.boot.bme ch.val on } }).flushIrq ch

/-- BUS_MASTER_ENABLE_SET (R467). -/
def execBusMasterEnableSet (ch : Fin 17) (s : State) : Host.Outcome State Fault Refusal :=
  .next (if s.reachable ch then s.writeBme ch true else s)

/-- NUMVFS_WRITE (R407): VF n exists while NumVFs ≥ n; a value above TotalVFs is not accepted (R406). -/
def execNumvfsWrite (n : Nat) (s : State) : Host.Outcome State Fault Refusal :=
  .next (if n ≤ 16 && s.reachable 0 then { s with boot := { s.boot with numVfs := n } } else s)

end Sys2Proof.Machine
end

