-- ==== Sys2Proof/Machine/Rng.lean ====
section
/-! DEFINITION. Random-number banks: the health tests of a block, release, restart, retirement and replacement of sources
(R292 to R306), delivery to the device pool and the DRBGs (R296, R307 to R309), the two bank registers (R297, R298) and the
wait for entropy (R301). The noise itself is the operand of RNG_BLOCK_TESTED: the 8,192 bits that the latch of a source has given for a
block. -/

namespace Sys2Proof.Machine

open Sys2Proof.Machine.Crypto

/-! ## One block -/

/-- The XOR stage (R293): each successive pair of raw bits becomes one bit. -/
def xorStage : List Bool → List Bool
  | a :: b :: r => (a != b) :: xorStage r
  | _ => []

/-- The repetition count test over a block (R294): the last bit and the run count as they leave the block, and whether a run of 41 or more
identical bits ended in it, one that began in the block before included. -/
def repTest : Bool → Nat → List Bool → Bool × Nat × Bool
  | last, run, [] => (last, run, false)
  | last, run, b :: bs =>
    let run' := if b = last then run + 1 else 1
    let r := repTest b run' bs
    (r.1, r.2.1, r.2.2 || 41 ≤ run')

/-- The adaptive proportion test of one window (R294): 800 or more bits equal to the first. -/
def windowFails (w : List Bool) : Bool := (w.filter (· == w.headD false)).length ≥ 800

/-- The adaptive proportion test over the four windows of a block. -/
def propFails (b : List Bool) : Bool := (chop 1024 4 b).any windowFails

/-- The von Neumann stage (R293): 0 for the pair 01, 1 for 10, nothing for 00 or 11. -/
def vonNeumann : List Bool → List Bool
  | a :: b :: r => if a = b then vonNeumann r else a :: vonNeumann r
  | _ => []

/-- Release bits into a bank's buffer of 256 words; bits that find it full are discarded (R296). -/
def Bank.release (b : Bank) (bits : List Bool) : Bank := { b with buf := (b.buf ++ bits).take 16384 }

/-- A source of a bank. -/
def Bank.src (b : Bank) (i : Bool) : Source := if i then b.src1 else b.src0

/-- Replace a source of a bank. -/
def Bank.setSrc (b : Bank) (i : Bool) (x : Source) : Bank := if i then { b with src1 := x } else { b with src0 := x }

/-- Failures among a source's last 2^20 blocks (R303). -/
def Source.recent (x : Source) : List Nat := x.fails.filter (fun n => n + 2 ^ 20 > x.blocks)

/-- A block passes: its output is released, or held until the 1,024th startup block has passed (R295, R300). -/
def Bank.blockPasses (b : Bank) (i : Bool) (x : Source) (out : List Bool) : Bank :=
  if x.st = .running then (b.setSrc i x).release out
  else if x.passed + 1 = 1024 then
    { (b.setSrc i { x with st := .running, passed := 0, heldBits := [] }).release (x.heldBits ++ out) with started := true }
  else b.setSrc i { x with passed := x.passed + 1, heldBits := x.heldBits ++ out }

/-- A creation ends without effect, its bank gone before the cluster DRBGs had their seeds (R301, R305): everything it took is free again but
the creation number, which never repeats, and the PF is answered RNG_FAILED. What waits on the VF is refused as R347 states (DESIGN CHOICE:
the manual does not say what a failed creation leaves). -/
def State.failCreation (s : State) (p : Fin 16) (b : Fin 18) : State :=
  let old := s
  let s := (s.modPart p (fun q => { q with st := .destroying })).answerOwed (vf p)
  let s := s.refuseWaiting (vf p) (s.chans[vf p]).waiting
  let s := (s.clearKeys (partSlot p 0) (partSlot p 240)).modBank b (fun k => { k with role := .unallocated })
  let s := State.noteStates old (s.modPart p (fun _ => Partition.absent))
  match (s.chans[(0 : Fin 17)]).held with
  | some h => if h.why = .creation p.val then (s.count 0 .cmdRefused 1).finishHeld 0 .rngFailed [] else s
  | none => s

/-- RNG_FAILED: the alarm and its reports (R305). The owner's commands that wait for entropy fail, and so does a creation that still needs
words of the bank (R301). -/
def State.rngFailed (s : State) (b : Fin 18) : State :=
  let s := { s with rngAlarm := true }.log 0x0604 6 [w64 b.val]
  let s := s.post 0 0x0542 .rngFailed [w64 b.val]
  let s := s.postAll 0x0560 .deviceFault [1]
  match (s.banks[b]).role with
  | .owned p =>
    if (s.parts[pid p]).st = .creating then s.failCreation (pid p) b
    else
      match (s.chans[vf (pid p)]).held with
      | some h => if h.why = .entropy then (s.count (vf (pid p)) .cmdRefused 1).finishHeld (vf (pid p)) .rngFailed [] else s
      | none => s
  | _ => s

/-- A bank whose second source is retired is replaced by the lowest spare in STANDBY, or raises the alarm (R304, R305). A
spare leaves the spare pool. -/
def State.bankRetired (s : State) (b : Fin 18) : State :=
  let s := s.modBank b (fun k => { k with buf := [] })
  let used (s : State) (n : Fin 18) : State := { s with nvm := { s.nvm with spareBanks := s.nvm.spareBanks.filter (· != n.val) } }
  match (s.banks[b]).role with
  | .spare => used (s.modBank b (fun k => { k with role := .none })) b
  | .none => s
  | role =>
    match s.standbyBanks with
    | [] => s.rngFailed b
    | n :: _ =>
      let s := (s.modBank b (fun k => { k with role := .none })).modBank n (fun k => { k with role := role, buf := [] })
      let s := (used s n).log 0x0603 6 [w64 (b.val + n.val * 256)]
      match role with
      | .owned p => s.postPart (pid p) 0x0541 .ok []
      | _ => s

/-- A source is retired at its fourth failure (R303). -/
def State.retireSource (s : State) (b : Fin 18) (i : Bool) (x : Source) : State :=
  let s := s.modBank b (fun k => k.setSrc i { x with st := .retired, settleUntil := none, passed := 0, heldBits := [] })
  let s := { s with nvm := { s.nvm with retiredSources := s.nvm.retiredSources ++ [(b.val, b2n i)] } }
  let s := s.log 0x0602 6 [w64 (b.val + b2n i * 256)]
  let s : State := match (s.banks[b]).role with
    | .owned p => s.postPart (pid p) 0x0540 .ok [w64 (b2n i)]
    | _ => s
  if (s.banks[b]).stateCode = 4 then s.bankRetired b else s

/-- A source restarts after a failed block: it settles for 64 µs before its startup test (R300, R302, R306). -/
def State.restartSource (s : State) (b : Fin 18) (i : Bool) (x : Source) : State :=
  let s := s.modBank b (fun k => k.setSrc i
    { x with st := .restarting, settleUntil := some (s.clock + 64 * us), passed := 0, heldBits := [] })
  let s := (s.log 0x0601 6 [w64 (b.val + b2n i * 256)]).count 0 .rngRestartsAll 1
  match (s.banks[b]).role with
  | .owned p => s.count (vf (pid p)) .rngRestarts 1
  | _ => s

/-- Are the noise sources running (from +410 ms of a cold start, through every other reset; R300)? -/
def State.noiseOn (s : State) : Bool :=
  match s.boot.phase with
  | .off => false
  | .inReset => false
  | .tripped => false
  | _ => s.boot.noise

/-- RNG_BLOCK_TESTED (R293 to R295, R300, R302 to R306): a source completes a block of 4,096 XOR-stage bits, from 8,192 raw ones. -/
def execRngBlockTested (b : Fin 18) (i : Bool) (raw : List Bool) (s : State) : Host.Outcome State Fault Refusal :=
  .next (
    let x := (s.banks[b]).src i
    let block := xorStage raw
    if !s.noiseOn || x.st = .retired || x.settleUntil.isSome then s
    else
      let r := repTest x.lastBit x.run block
      let x := { x with lastBit := r.1, run := r.2.1, blocks := x.blocks + 1 }
      if r.2.2 || propFails block then
        let x := { x with fails := x.blocks :: x.recent }
        if x.recent.length ≥ 4 then s.retireSource b i x else s.restartSource b i x
      else s.modBank b (fun k => k.blockPasses i x (vonNeumann block)))

/-- RNG_SOURCE_SETTLED (R300): the 64 µs have passed and the startup test begins. -/
def execRngSourceSettled (b : Fin 18) (i : Bool) (s : State) : Host.Outcome State Fault Refusal :=
  .next (
    match ((s.banks[b]).src i).settleUntil with
    | some t => (s.advance t).modBank b (fun k => k.setSrc i { k.src i with settleUntil := none })
    | none => s)

/-! ## Delivery -/

/-- Words in a bank's output buffer (R298). -/
def Bank.level (b : Bank) : Nat := b.buf.length / 64

/-- The number that 64 bits spell, the oldest bit least significant (DESIGN CHOICE). -/
def bitsNat : List Bool → Nat
  | [] => 0
  | b :: bs => b2n b + 2 * bitsNat bs

/-- The oldest word of a bank's buffer. -/
def Bank.word (b : Bank) : W64 := w64 (bitsNat (b.buf.take 64))

/-- The buffer without its `n` oldest words. -/
def Bank.drop (b : Bank) (n : Nat) : Bank := { b with buf := b.buf.drop (64 * n) }

/-- The first cluster of a list whose reseed buffer of 384 bits is not full (R308). -/
def State.needsWord (s : State) (cs : List Nat) : Option (Fin 32) :=
  (cs.map (Fin.ofNat 32)).find? (fun c => (s.clusters[c]).reseedBuf.length < 6)

/-- RNG_WORD_DELIVERY (R296): one word leaves the buffer. Every 64th delivered word, and every word of a bank without an owner, goes to the
device pool; the others go to the owner's DRBGs, where they fill the reseed buffers, and one that no buffer has room for is let go (DESIGN
CHOICE: the rule gives the pool its share of what is delivered, and says no word of a DRBG that needs none). -/
def execRngWordDelivery (b : Fin 18) (s : State) : Host.Outcome State Fault Refusal :=
  .next (
    let k := s.banks[b]
    let w := k.word
    let took (s : State) : State := s.modBank b (fun k => { k.drop 1 with delivered := k.delivered + 1 })
    if k.level = 0 || k.stateCode = 4 then s
    else
      match k.role with
      | .owned p =>
        if (k.delivered + 1) % 64 = 0 then took { s with pool := s.pool ++ [w] }
        else
          match s.needsWord (s.parts[pid p]).clusterList with
          | some c => took (s.modCluster c (fun x => { x with reseedBuf := x.reseedBuf ++ [w] }))
          | none => took s
      | .none => s
      | _ => took { s with pool := s.pool ++ [w] })

/-- SRC_STATE as a number (R299). -/
def SrcState.code : SrcState → Nat
  | .startup => 0 | .running => 1 | .restarting => 2 | .retired => 3

/-- RNG_STATUS of a bank (R298). -/
def State.rngStatus (s : State) (b : Fin 18) : W64 :=
  let k := s.banks[b]
  let owner := match k.role with
    | .owned p => p
    | .unallocated => 0xFE
    | _ => 0xFF
  w64 (b.val * 2 ^ 48 + owner * 2 ^ 40 + k.stateCode * 2 ^ 32 + k.src1.st.code * 2 ^ 26 + k.src0.st.code * 2 ^ 24
    + k.src1.recent.length * 2 ^ 19 + k.src0.recent.length * 2 ^ 16 + k.level * 2 ^ 5 + b2n k.empty * 2
    + b2n (k.level > 0))

/-- RNG_DATA_READ (R297): the RTP reads and removes the oldest word; 0 and EMPTY where there is none. -/
def execRngDataRead (b : Fin 18) (s : State) : Host.Outcome State Fault Refusal :=
  .next (
    let k := s.banks[b]
    if k.level = 0 then (s.modBank b (fun k => { k with empty := true })).emit (.rtpRead 0)
    else (s.modBank b (fun k => k.drop 1)).emit (.rtpRead k.word))

/-- RNG_STATUS_READ (R298): the read clears EMPTY. -/
def execRngStatusRead (b : Fin 18) (s : State) : Host.Outcome State Fault Refusal :=
  .next ((s.modBank b (fun k => { k with empty := false })).emit (.rtpRead (s.rngStatus b)))

/-! ## Entropy for commands (R301) -/

/-- What a command that needs entropy finds. -/
inductive Entropy where
  | ready | wait | failed
  deriving DecidableEq, Repr

/-- Words for the DRBGs among those in the buffer: every 64th delivered goes to the device pool (R296). -/
def Bank.own (b : Bank) : Nat := b.level - ((b.delivered + b.level) / 64 - b.delivered / 64)

/-- The state of a bank's entropy: 384 bits for a DRBG in its buffer, or retired without a replacement. -/
def Bank.entropy (b : Bank) : Entropy :=
  if b.stateCode = 4 then .failed else if b.own ≥ 6 then .ready else .wait

/-- What a command of a channel finds: a partition's bank on a VF, the device pool on the PF (R301). -/
def State.entropy (s : State) (ch : Fin 17) : Entropy :=
  if ch = 0 then (if s.pool.length ≥ 6 then .ready else .wait)
  else
    match s.bankOf (chanPart ch) with
    | some b => (s.banks[b]).entropy
    | none => .failed

/-- Deliver words until `n` have gone to a DRBG or none is left: those, the ones for the device pool, and the bank after (R296). -/
def Bank.deliver : Nat → Nat → Bank → List W64 × List W64 × Bank
  | 0, _, k => ([], [], k)
  | fuel + 1, n, k =>
    if n = 0 || k.level = 0 then ([], [], k)
    else
      let k' := { k.drop 1 with delivered := k.delivered + 1 }
      if k'.delivered % 64 = 0 then
        let r := Bank.deliver fuel n k'
        (r.1, k.word :: r.2.1, r.2.2)
      else
        let r := Bank.deliver fuel (n - 1) k'
        (k.word :: r.1, r.2.1, r.2.2)

/-- Take `n` words for a DRBG from a bank: their bytes, and the state without them. -/
def State.bankWords (s : State) (b : Fin 18) (n : Nat) : List Byte × State :=
  let r := Bank.deliver 256 n (s.banks[b])
  (wordsToBytes r.1, { s.modBank b (fun _ => r.2.2) with pool := s.pool ++ r.2.1 })

/-- Reseed a partition's key instance with 384 fresh bits (R307). -/
def State.partReseed (s : State) (p : Fin 16) : State :=
  match s.bankOf p with
  | some b =>
    let (e, s) := s.bankWords b 6
    s.modPart p (fun q => { q with keyDrbg := q.keyDrbg.reseed e })
  | none => s

/-- Run the rest of a command that needs fresh entropy: hold it, refuse it, or go on with a reseeded instance (R301). -/
def withEntropy (ch : Fin 17) (s : State) (k : State → Handled) : Handled :=
  match s.entropy ch with
  | .failed => .refuse .rngFailed
  | .wait => .hold .entropy s
  | .ready => k (if ch = 0 then s else s.partReseed (chanPart ch))

/-- Draw bytes for a command of a channel: from the key instance on a VF, from the device DRBG on the PF. -/
def State.chanDraw (s : State) (ch : Fin 17) (n : Nat) : List Byte × State :=
  if ch = 0 then s.deviceDraw n else s.partDraw (chanPart ch) n

end Sys2Proof.Machine
end

