-- ==== Sys2Proof/Machine/Counters.lean ====
section
/-! DEFINITION. Counters (R266 to R271, R276 to R278): values, views, bindings and signals, and the credit rule that a
partition's release counter obeys (R93). -/

namespace Sys2Proof.Machine

/-- Length of one cluster-island cycle in clock units at a P-state (R9, R437): 2.0, 1.6, 1.2 and 0.8 GHz. -/
def cycleUnits : Nat → Nat
  | 0 => 12
  | 1 => 15
  | 2 => 20
  | _ => 30

/-- Length of one cycle of a running task in clock units. -/
def Running.cycleLen (r : Running) : Nat := cycleUnits r.pstate * if r.slow then 2 else 1

/-- The task cycle that the clock stands at, for a partition whose task runs. -/
def State.taskCycle (s : State) (p : Fin 16) : Option Nat :=
  (s.parts[p]).job.running.bind (fun r =>
    if r.start ≤ s.clock then some (r.base + (s.clock - r.start) / r.cycleLen) else none)

/-- The first device tick of a running task's clusters at or after a task cycle (R142, R271, R401). -/
def Running.tickAt (r : Running) (c : Nat) : Nat :=
  if c ≤ r.tickBase then r.tickBase else r.tickBase + ceilDiv (c - r.tickBase) 64 * 64

/-- The first device tick after a task cycle (R167). -/
def Running.tickAfter (r : Running) (c : Nat) : Nat := r.tickAt (c + 1)

/-- A counter (R266). -/
def State.counter (s : State) (c : CtrRef) : Counter :=
  (Table.get? (s.clusters[Fin.ofNat 32 c.cluster]).counters c.index).getD Counter.zero

/-- Change a counter. -/
def State.setCounter (s : State) (c : CtrRef) (k : Counter) : State :=
  s.modCluster (Fin.ofNat 32 c.cluster) (fun x => { x with counters := Table.put x.counters c.index k })

/-- The view of a counter (R267). -/
def Counter.view (k : Counter) : Nat := (k.value + 2 ^ 64 - k.base) % 2 ^ 64

/-- The counters that a partition's bindings hold (R268). -/
def Partition.heldCounters (q : Partition) : List CtrRef :=
  (match q.rnd.aq with
    | some a => if q.rnd.windows.isEmpty then [] else [a.arrival, a.release]
    | none => []) ++
  (q.net.regs.filterMap (fun e => match e.2.body with
    | .region r => r.counter
    | .window _ => none))

/-- HELD of a counter of a partition (R268). -/
def Partition.holds (q : Partition) (c : CtrRef) : Bool := q.heldCounters.contains c

/-- A core that waits on a counter has its view judged afresh from a cycle on. -/
def Core.judgeFrom (c : CtrRef) (t : Nat) (x : Core) : Core :=
  match x.wait with
  | some (.counter r n since _) => if r = c then { x with wait := some (.counter r n since t) } else x
  | _ => x

/-- A binding command makes a counter held: its EPOCH_BASE becomes 0 (R268), and from now on its waiters see the view that follows. -/
def State.bindCounter (s : State) (p : Fin 16) (c : CtrRef) : State :=
  let s : State := match s.taskCycle p with
    | some t => (s.parts[p]).clusterList.foldl (fun s d =>
        s.modCluster (Fin.ofNat 32 d) (fun x => { x with cores := x.cores.map (Core.judgeFrom c t) })) s
    | none => s
  s.setCounter c { s.counter c with base := 0 }

/-- A release counter that runs ahead of the records pushed: the excess is discarded and counted (R93). -/
def State.trimCredits (s : State) (p : Fin 16) : State :=
  match (s.parts[p]).rnd.aq with
  | none => s
  | some a =>
    let l := (s.counter a.release).value
    if l - a.l0 > a.m then
      let x := l - a.l0 - a.m
      let f (r : RoundPart) : RoundPart := { r with aq := some { a with l0 := a.l0 + x } }
      (s.modPart p (fun q => { q with rnd := f q.rnd })).count (vf p) .foldAqOver x
    else s

/-- A signal lands at a counter of a partition (R267, R270): the add saturates at 2^64 − 1. -/
def State.signal (s : State) (p : Fin 16) (c : CtrRef) (amount : Nat) (src : Signaller) : State :=
  let k := s.counter c
  let v := Nat.min (k.value + amount) (2 ^ 64 - 1)
  let s := s.setCounter c { k with value := v, last := src }
  let s := if k.value + amount > 2 ^ 64 - 1 then s.count (vf p) .syncSaturated 1 else s
  s.trimCredits p

/-! ## Ticks of the partition's clusters (R24, R25) -/

/-- The clock islands run at half clock (R460, R463). -/
def State.halfClock (s : State) : Bool := s.power.throttle.isSome || s.power.hold.isSome

/-- Length of one cycle of a partition's clusters in clock units now. -/
def State.islandCycle (s : State) (p : Fin 16) : Nat :=
  cycleUnits (s.parts[p]).acct.curP * if (s.parts[p]).job.tickSlow then 2 else 1

/-- Cycles since the tick dividers stood at 0, up to a moment. -/
def State.islandCycles (s : State) (p : Fin 16) (t : Nat) : Nat :=
  (s.parts[p]).job.tickPhase + (t - (s.parts[p]).job.tickAt) / s.islandCycle p

/-- The clock of a cycle of the partition's clusters. -/
def State.islandClock (s : State) (p : Fin 16) (n : Nat) : Nat :=
  (s.parts[p]).job.tickAt + (n - (s.parts[p]).job.tickPhase) * s.islandCycle p

/-- The tick dividers of a partition's clusters are released together (R25). -/
def State.releaseTicks (s : State) (p : Fin 16) : State :=
  s.modPart p (fun q => { q with job := { q.job with tickAt := s.clock, tickPhase := 0, tickSlow := s.halfClock } })

/-- A moment that lies ahead, where the islands' clock halves or doubles now. -/
def rescale (now t : Nat) (slow : Bool) : Nat := if t ≤ now then t else now + if slow then (t - now) * 2 else (t - now) / 2

/-- The islands of a partition go over to full or half clock: their dividers go on counting, and what waits for a tick waits as many
cycles (R10, R460, R463). -/
def State.rebaseTicks (s : State) (p : Fin 16) : State :=
  let slow := s.halfClock
  let j := (s.parts[p]).job
  if j.tickSlow = slow then s
  else
    let len := s.islandCycle p
    let rest := (s.clock - j.tickAt) % len
    s.modPart p (fun q => { q with job := { q.job with
      tickAt := s.clock - (if slow then rest * 2 else rest / 2), tickPhase := s.islandCycles p s.clock, tickSlow := slow
      stray := q.job.stray.map (fun w => { w with at' := rescale s.clock w.at' slow }) } })

/-- The first device tick after now while no task counts its cycles. -/
def State.strayTick (s : State) (p : Fin 16) : Nat := s.islandClock p ((s.islandCycles p s.clock / 64 + 1) * 64)

/-- Put a stray signal behind those that become visible no later. -/
def insStray (w : Stray) : List Stray → List Stray
  | [] => [w]
  | x :: xs => if w.at' < x.at' then w :: x :: xs else x :: insStray w xs

/-- Put a signal into a list ordered by the cycle at which it becomes visible. -/
def insTransit (w : Transit) : List Transit → List Transit
  | [] => [w]
  | x :: xs => if w.allAt < x.allAt then w :: x :: xs else x :: insTransit w xs

/-- A signal of the running task's time is on its way. -/
def State.send (s : State) (p : Fin 16) (w : Transit) : State :=
  s.modPart p (fun q => { q with job := { q.job with transit := insTransit w q.job.transit } })

/-- A signal is on its way to a tick at which no task counts its cycles. -/
def State.sendStray (s : State) (p : Fin 16) (w : Stray) : State :=
  s.modPart p (fun q => { q with job := { q.job with stray := insStray w q.job.stray } })

/-- A stray signal that lands less than 96 cycles before cycle 0 of the task being prepared: other clusters still see it only at their tick
(R272). -/
def Stray.late (w : Stray) (r : Running) : Bool := w.at' < r.start && r.start < w.at' + 96 * r.cycleLen

/-- The stray signals whose tick has come are added to their counters, with NO_TASK and no stamp (R288). -/
def State.settleStray (s : State) (p : Fin 16) : State :=
  let due := (s.parts[p]).job.stray.filter (fun w => w.at' ≤ s.clock)
  let mark (w : Stray) : Signaller := { w.src with stamp := 0, noTask := true }
  let land (s : State) (w : Stray) : State :=
    let s := s.signal p w.ctr w.amount (mark w)
    if (s.parts[p]).job.running.any w.late then s.send p ⟨w.ctr, w.amount, mark w, 0, 0, true⟩ else s
  let s := due.foldl land s
  s.modPart p (fun q => { q with job := { q.job with stray := q.job.stray.filter (fun w => !decide (w.at' ≤ s.clock)) } })

/-- An external signal (kinds 4 to 8) is on its way: it becomes visible at the first device tick of its cluster after the event (R24, R271),
which is its stamp while a task runs (R288). -/
def State.signalExternal (s : State) (p : Fin 16) (c : CtrRef) (amount kind : Nat) : State :=
  match (s.parts[p]).job.running with
  | some r =>
    match s.taskCycle p with
    | some t => s.send p ⟨c, amount, ⟨kind, 0, 0, r.tickAfter t, false⟩, r.tickAfter t, r.tickAfter t, false⟩
    | none =>
      if s.strayTick p < r.start then s.sendStray p ⟨s.strayTick p, c, amount, ⟨kind, 0, 0, 0, true⟩⟩
      else s.send p ⟨c, amount, ⟨kind, 0, 0, 0, false⟩, 0, 0, false⟩
  | none => s.sendStray p ⟨s.strayTick p, c, amount, ⟨kind, 0, 0, 0, true⟩⟩

/-- What is on its way to a counter: the sum of the amounts that have not been added to VALUE yet. -/
def Partition.onItsWay (q : Partition) (c : CtrRef) : Nat :=
  ((q.job.transit.filter (fun w => w.ctr == c && !w.landed)).map Transit.amount).foldl (· + ·) 0 +
    ((q.job.stray.filter (fun w => w.ctr == c)).map Stray.amount).foldl (· + ·) 0

/-- The signals that become visible by a task cycle are added to their counters, after the stray ones that are due. -/
def State.landSignals (s : State) (p : Fin 16) (t : Nat) : State :=
  let s := s.settleStray p
  let due := (s.parts[p]).job.transit.filter (fun w => !w.landed && w.allAt ≤ t)
  due.foldl (fun s w => s.signal p w.ctr w.amount w.src) s

end Sys2Proof.Machine
end

