-- ==== Sys2Proof/Machine/Owned.lean ====
section
/-! DEFINITION. Ownership of DRAM pages (R46): which partition addresses belong to a round, a resident program or the
context store, and what checks of ranges ask. -/

namespace Sys2Proof.Machine

/-- Two byte ranges touch a common 4 KiB page. -/
def pagesMeet (a la b lb : Nat) : Bool :=
  la > 0 && lb > 0 && a / 4096 ≤ (b + lb - 1) / 4096 && b / 4096 ≤ (a + la - 1) / 4096

/-- The partition address of accumulator chunk `j` of a window (R79). -/
def Window.chunkAddr (w : Window) (j : Nat) : Nat := w.accAddr + j * w.stride * 4096

/-- The accumulator of a window has a page that the byte range touches (R79). -/
def Window.accMeets (w : Window) (lo len : Nat) : Bool :=
  let b := w.accAddr / 4096
  let first := lo / 4096
  let last := (lo + len - 1) / 4096
  let j := if b < first then ceilDiv (first - b) w.stride else 0
  len > 0 && j < w.vecChunks && b + j * w.stride ≤ last

/-- Stride of a round's chunk bitmaps in bytes (R45). -/
def Round.bitmapStride (r : Round) : Nat := ceilDiv r.chunks 512 * 64

/-- Size of the seed table (R106). -/
def Round.seedTableSize (r : Round) : Nat := (2 * r.clients + ceilDiv (r.clients * r.degree) 2) * 64

/-- The windows that a round lists. -/
def Partition.roundWindows (q : Partition) (r : Round) : List Window := r.wins.filterMap (fun n => Table.get? q.rnd.windows n)

/-- A round owns a page that the byte range touches (R46, R105). -/
def Partition.roundOwns (q : Partition) (r : Round) (lo len : Nat) : Bool :=
  pagesMeet lo len r.bitmapAddr (r.clients * r.bitmapStride)
    || (q.roundWindows r).any (fun w => w.accMeets lo len)
    || match r.recovery with
      | some k => pagesMeet lo len k.seedTable r.seedTableSize
          || (match k.pk with
            | some a => pagesMeet lo len a (32 * r.clients)
            | none => false)
      | none => false

/-- A resident program owns a page that the byte range touches (R156). -/
def Partition.programOwns (q : Partition) (lo len : Nat) : Bool :=
  q.job.resident.any (fun e => pagesMeet lo len e.2.addr e.2.length)

/-- The context store owns a page that the byte range touches (R371). -/
def Partition.storeOwns (q : Partition) (lo len : Nat) : Bool :=
  match q.net.store with
  | some a => pagesMeet lo len a (q.qpQuota * 1024 * 256)
  | none => false

/-- A round, other than one of the tag given, owns a page of the range. -/
def Partition.anyRoundOwns (q : Partition) (skip : Option Nat) (lo len : Nat) : Bool :=
  q.rnd.rounds.any (fun r => some r.tag != skip && q.roundOwns r lo len)

/-- The range touches owned memory (R46, R335, R336, R375). -/
def State.ownedRange (s : State) (p : Fin 16) (lo len : Nat) : Bool :=
  let q := s.parts[p]
  q.anyRoundOwns none lo len || q.programOwns lo len || q.storeOwns lo len

/-- A page of a partition lies on this stack rank and within the range: what a failed site's stack takes with it (R64). -/
def Partition.stackMeets (q : Partition) (rank lo len : Nat) : Bool :=
  len > 0 &&
    let first := lo / 4096
    let last := (lo + len - 1) / 4096
    last - first + 1 ≥ q.stacks || (List.range (last - first + 1)).any (fun i => (first + i) % q.stacks == rank)

/-! ## Page epochs and writes (R328, R329, R331) -/

/-- Pages of one stack (R17: 16 GiB in pages of 4 KiB). -/
def stackPages : Nat := 2 ^ 22

/-- The epoch bit of a partition page (R124, R328). -/
def MemEpoch.epochOf (m : MemEpoch) (width page : Nat) : Bool :=
  RangeSet.mem (m.onePages.getD (page % width) []) (page / width)

/-- The lowest page of a stack, from `i` on, whose epoch bit differs from E. -/
def MemEpoch.oldPage (m : MemEpoch) (r i : Nat) : Option Nat :=
  let ones := m.onePages.getD r []
  let n := if m.epoch then RangeSet.firstGap ones i else (ones.find? (fun e => i < e.1 + e.2)).elim stackPages (fun e => Nat.max i e.1)
  if n < stackPages then some n else none

/-- Set the epoch bits of pages `lo` to `hi` − 1 of a stack to E (R329: a whole-page write). -/
def MemEpoch.mark (m : MemEpoch) (r lo hi : Nat) : MemEpoch :=
  let ones := m.onePages.getD r []
  { m with onePages := setAt m.onePages r (if m.epoch then RangeSet.add ones lo hi else RangeSet.remove ones lo hi) }

/-- Whole-page writes to partition pages `pg` to `pg + n` − 1 (R124, R329). -/
def MemEpoch.markPages (m : MemEpoch) (width pg : Nat) : Nat → MemEpoch
  | 0 => m
  | n + 1 => (m.mark (pg % width) (pg / width) (pg / width + 1)).markPages width (pg + 1) n

/-- Re-encrypt up to `n` old-epoch pages of a stack, lowest first (R331). -/
def MemEpoch.sweepPages (m : MemEpoch) (r : Nat) : Nat → MemEpoch × Nat
  | 0 => (m, 0)
  | n + 1 =>
    match m.oldPage r 0 with
    | none => (m, 0)
    | some i =>
      let (m', k) := (m.mark r i (i + 1)).sweepPages r n
      (m', k + 1)

/-- Whole-page writes to the pages that lie wholly within a range of bytes. -/
def MemEpoch.markRange (m : MemEpoch) (width a len : Nat) : MemEpoch :=
  m.markPages width (ceilDiv a 4096) ((a + len) / 4096 - ceilDiv a 4096)

/-- Write bytes to a partition's DRAM: whole-page writes where pages are whole, and a partial write of a page that is written in part, which
keeps its epoch (R329). -/
def State.writePages (s : State) (p : Fin 16) (a : Nat) (b : List Byte) : State :=
  s.modPart p (fun q => { q with dram := q.dram.writeN a b, mem := q.mem.markRange q.stacks a b.length })

/-- Write bytes as partial writes, which keep the pages' epochs (R329). -/
def State.writePartial (s : State) (p : Fin 16) (a : Nat) (b : List Byte) : State :=
  s.modPart p (fun q => { q with dram := q.dram.writeN a b })

end Sys2Proof.Machine
end

