-- ==== Sys2Proof/Machine/NetBase.lean ====
section
/-! DEFINITION. Queue pairs and their egress (R369 to R373, R381 to R384, R387): lookup, transmission, errors, the checks of an
egress descriptor, and the sealed message that a send makes of it. -/

namespace Sys2Proof.Machine

open Sys2Proof.Machine.Crypto

/-! ## Access -/

/-- Change what a partition holds of the network. -/
def State.modNet (s : State) (p : Fin 16) (f : NetPart → NetPart) : State := s.modPart p (fun q => { q with net := f q.net })

/-- Change what a partition holds of rounds. -/
def State.modRnd (s : State) (p : Fin 16) (f : RoundPart → RoundPart) : State := s.modPart p (fun q => { q with rnd := f q.rnd })

/-- Change what a partition holds of programs and tasks. -/
def State.modJob (s : State) (p : Fin 16) (f : JobPart → JobPart) : State := s.modPart p (fun q => { q with job := f q.job })

/-- A queue pair by its local index. -/
def State.qp? (s : State) (p : Fin 16) (i : Nat) : Option Qp := Table.get? (s.parts[p]).net.qps i

/-- Change a queue pair. -/
def State.modQp (s : State) (p : Fin 16) (i : Nat) (f : Qp → Qp) : State :=
  s.modNet p (fun n => { n with qps := Table.modify n.qps i f })

/-- The QPN of a local index (R369). -/
def qpnOf (p : Fin 16) (i : Nat) : Nat := 0x400000 + p.val * 2 ^ 18 + i

/-- The partition and local index that a QPN names (R369). -/
def ofQpn (n : Nat) : Option (Fin 16 × Nat) :=
  if 0x400000 ≤ n && n < 0x400000 + 16 * 2 ^ 18 then some (pid ((n - 0x400000) / 2 ^ 18), (n - 0x400000) % 2 ^ 18) else none

/-- Bytes of a path MTU code (R371). -/
def mtuBytes : Nat → Nat
  | 1 => 1024
  | 2 => 2048
  | _ => 4096

/-- The link of a queue pair. -/
def Qp.linkNo (q : Qp) : Fin 24 := Fin.ofNat 24 q.link

/-! ## Transmission -/

/-- Send a RoCEv2 packet on a link: nothing leaves a link that is not UP, and a paused priority holds it (R360, R363). -/
def State.tx (s : State) (l : Fin 24) (prio : Nat) (o : Output) : State :=
  let k := s.links[l]
  if k.st = .up && k.paused.any (fun e => e.1 == prio) then s.modLink l (fun k => { k with held := k.held ++ [(prio, o)] })
  else s.emitOn l o

/-- The headers of what a queue pair sends (R360): to the link's next-hop MAC from its own, the priority as PCP, from the link's address
to the peer's. -/
def State.roceHdr (s : State) (p : Fin 16) (i : Nat) (q : Qp) (dscp ecn : Nat) : RoceHdr :=
  let k := s.links[q.linkNo]
  { dmac := k.nextHop, smac := k.mac, vlan := if k.tagged then some (q.prio, k.vid) else none, v6 := q.ipv6
    src := if q.ipv6 then k.ipv6 else k.ipv4
    dst := if q.ipv6 then q.peer0.toNat * 2 ^ 64 + q.peer1.toNat else q.peer0.toNat % 2 ^ 32
    dscp := dscp, ecn := ecn, udpSrc := (Config.udpPort (qpnOf p i)).toNat }

/-- The ECN codepoint ECT(0) of RFC 3168. -/
def ect0 : Nat := 2

/-- A paused priority of a link resumes: what was held on it leaves in order (R360). -/
def State.unpause (s : State) (l : Fin 24) (prio : Nat) : State :=
  let k := s.links[l]
  let s := s.modLink l (fun k =>
    { k with paused := k.paused.filter (fun e => e.1 != prio), held := k.held.filter (fun e => e.1 != prio) })
  (k.held.filter (fun e => e.1 == prio)).foldl (fun s e => s.tx l prio e.2) s

/-- Send packets of a queue pair in order: data packets, marked ECT(0) (R360). -/
def State.txPackets (s : State) (p : Fin 16) (i : Nat) (q : Qp) (ps : List TxPacket) : State :=
  let h := s.roceHdr p i q (s.links[q.linkNo]).dscpData ect0
  (ps.foldl (fun s k => s.tx q.linkNo q.prio (.packet q.link h q.destQpn k)) s).count (vf p) .netTxPackets ps.length

/-- Answer as responder: an ACK or NAK with its PSN and AETH syndrome (R366 to R368), with the DSCP of data (R361) and no ECN mark. -/
def State.answer (s : State) (p : Fin 16) (i : Nat) (q : Qp) (psn syndrome : Nat) : State :=
  s.tx q.linkNo q.prio
    (.answer q.link (s.roceHdr p i q (s.links[q.linkNo]).dscpData 0) q.destQpn (psn % 2 ^ 24) (some syndrome))

/-- AETH syndromes of the InfiniBand specification: ACK, RNR NAK (with the timer code), and the three NAK codes the part
uses. The manual names the answers and not these bytes (PRESUMED). -/
def synAck : Nat := 0x1F
/-- RNR NAK. -/
def synRnr (timer : Nat) : Nat := 0x20 + timer
/-- PSN Sequence Error. -/
def synSeq : Nat := 0x60
/-- Remote Invalid Request. -/
def synInvalid : Nat := 0x61
/-- Remote Access Error. -/
def synAccess : Nat := 0x62

/-! ## The end of a send, and errors -/

/-- Post EGRESS_DONE (R387). -/
def State.egressDone (s : State) (p : Fin 16) (qp : Nat) (st : Status) (id bytes : Nat) : State :=
  s.postPart p 0x0612 st [w64 (qp * 2 ^ 32 + id), w64 bytes]

/-- A ticket of a cluster (R234). -/
def Derailleur.ticket (d : Derailleur) (t : Nat) : Ticket := (Table.get? d.tickets t).getD Ticket.zero

/-- Change a ticket. -/
def State.setTicket (s : State) (c : Fin 32) (t : Nat) (k : Ticket) : State :=
  s.modCluster c (fun x => { x with der := { x.der with tickets := Table.put x.der.tickets t k } })

/-- The data word of a refresh event (R443). -/
def ticketWord (c : Fin 32) (t : Nat) (k : Ticket) : W64 := w64 (k.epoch * 2 ^ 32 + t * 2 ^ 8 + c.val)

/-- A refresh send fails (R237): the seed is zeroed, the ticket is FREE, REFRESH_FAILED is posted. A ticket that has expired
or been opened meanwhile is not touched. -/
def State.refreshFailed (s : State) (p : Fin 16) (c : Fin 32) (t epoch : Nat) (st : Status) : State :=
  let k := (s.clusters[c]).der.ticket t
  if k.st = .sending && k.epoch = epoch then
    (s.setTicket c t { k with st := .free, seed := [] }).postPart p 0x0520 st [ticketWord c t k]
  else s

/-- A send ends without its FLUSH response: BAD_STATE (R384), or the end of the ticket (R237). -/
def State.sendFailed (s : State) (p : Fin 16) (qp : Nat) (d : Send) : State :=
  match d.kind with
  | .egress id => s.egressDone p qp .badState id d.acked
  | .refresh c t e _ _ => s.refreshFailed p (Fin.ofNat 32 c) t e .badState

/-- What waits to be sent ends without being sent: BAD_STATE (R372, R237). -/
def State.requestFailed (s : State) (p : Fin 16) (qp : Nat) : SendReq → State
  | .descriptor e => s.egressDone p qp .badState (bits (word e 0) 63 48) 0
  | .refresh r => s.refreshFailed p (Fin.ofNat 32 r.cluster) r.ticket r.epoch .badState

/-- Packets of a message still to come. -/
def InMsg.left (m : InMsg) (mtu : Nat) : Nat := ceilDiv (m.len - m.got) mtu

/-- The registration index in an rkey (R374). -/
def rkeyIndex (rkey : Nat) : Nat := rkey / 2 ^ 12 % 2 ^ 12

/-- The rkey in force for a registration index (R374). -/
def NetPart.rkey (n : NetPart) (i : Nat) : Option Nat :=
  (Table.get? n.regs i).map (fun r => ((Table.get? n.gens i).getD 0) * 2 ^ 24 + i * 2 ^ 12 + r.tag)

/-- A current region by its rkey (R374, R377). -/
def NetPart.region? (n : NetPart) (rkey : Nat) : Option Region :=
  if n.rkey (rkeyIndex rkey) = some rkey then
    match Table.get? n.regs (rkeyIndex rkey) with
    | some ⟨_, .region r⟩ => some r
    | _ => none
  else none

/-- Change the region at a registration index. -/
def NetPart.modRegion (n : NetPart) (i : Nat) (f : Region → Region) : NetPart :=
  { n with regs := Table.modify n.regs i (fun g => match g.body with
      | .region r => { g with body := .region (f r) }
      | .window _ => g) }

/-- The message under way on a queue pair is abandoned where its region is being revoked (R380). -/
def State.abandonMsg (s : State) (p : Fin 16) (i : Nat) (q : Qp) : State :=
  match q.msg with
  | some m =>
    let add (r : Region) : Region := match r.revoking with
      | some v => { r with revoking := some { v with abandoned := v.abandoned + m.left (mtuBytes q.mtu) } }
      | none => r
    let s := s.modQp p i (fun q => { q with msg := none })
    if (s.parts[p]).net.rkey (rkeyIndex m.rkey) = some m.rkey && !m.dead then
      s.modNet p (fun n => n.modRegion (rkeyIndex m.rkey) add)
    else s
  | none => s

/-- What a queue pair sends and what waits on it end with BAD_STATE (R372, R237, R384). -/
def State.failSends (s : State) (p : Fin 16) (i : Nat) (q : Qp) : State :=
  let s := s.modQp p i (fun q => { q with sending := none, egress := [] })
  let s : State := match q.sending with
    | some d => s.sendFailed p i d
    | none => s
  q.egress.foldl (fun s e => s.requestFailed p i e) s

/-- A queue pair enters ERROR (R367, R372, R387): QP_ERROR is posted, its message is abandoned, its send and its queued
egress end with BAD_STATE. One that is in ERROR already only ends what has been queued on it since. -/
def State.qpError (s : State) (p : Fin 16) (i cause syndrome : Nat) : State :=
  match s.qp? p i with
  | none => s
  | some q =>
    if q.st = .error then s.failSends p i q
    else
      let s := (s.abandonMsg p i q).modQp p i (fun q => { q with st := .error, msg := none })
      (s.postPart p 0x0610 .badState [w64 (syndrome * 2 ^ 32 + cause * 2 ^ 24 + i)]).failSends p i q

/-- Every queue pair of a link enters ERROR with cause 4 (R362, R387). -/
def State.linkErrors (s : State) (l : Fin 24) : State :=
  allParts.foldl (fun s p =>
    (s.parts[p]).net.qps.foldl (fun s e => if e.2.link = l.val then s.qpError p e.1 4 0 else s) s) s

/-- A key slot of a partition is in use by a send (R317, R330). -/
def State.slotInUse (s : State) (p : Fin 16) (loc : Nat) : Bool :=
  (s.parts[p]).net.qps.any (fun e => match e.2.sending with
    | some d => d.slots.contains loc
    | none => false)

/-! ## Egress descriptors (R382) -/

/-- Does a slot's key carry a use bit (R315)? -/
def KeySlot.may (k : KeySlot) (b : Nat) : Bool := k.policy.testBit b

/-- KEY_KIND of an allowlist entry that a seal key's kind needs (R382): 1 for ECDH_P384, 2 for X25519. -/
def entryKind : Nat → Option Nat
  | 2 => some 1
  | 3 => some 2
  | _ => none

/-- The source range of a descriptor lies in memory that this command may not read (R382, R436): owned by a round other than
the one being released, a resident program or the context store. -/
def Partition.sourceOwned (q : Partition) (skip : Option Nat) (lo len : Nat) : Bool :=
  q.anyRoundOwns skip lo len || q.programOwns lo len || q.storeOwns lo len

/-- Reserved fields of a descriptor (R382): IMMEDIATE too while USE_IMM is 0, and SIGN_SLOT while SIGN is 0 (R4). -/
def egressReserved (e : List W64) : Bool :=
  let e0 := word e 0
  nonZero e0 47 46 || nonZero e0 39 34 || nonZero (word e 1) 31 18 || nonZero (word e 2) 63 39 || nonZero (word e 3) 63 37
    || nonZero (word e 5) 63 32 || (!bitAt e0 32 && nonZero (word e 1) 63 32) || (!bitAt e0 33 && nonZero e0 31 16)

/-- A field of a descriptor is outside the range that its table gives (R382). -/
def egressRange (e : List W64) : Bool :=
  let len := bits (word e 3) 36 0
  let okSlot (n : Nat) : Bool := 16 ≤ n && n ≤ 239
  !okSlot (bits (word e 0) 15 0) || (bitAt (word e 0) 33 && !okSlot (bits (word e 0) 31 16)) || len = 0 || len > 2 ^ 36

/-- A descriptor with a reserved value, a field out of range or an unknown queue pair, or, under MODIFY_QP, with a queue pair
other than the one the command names (R382). -/
def egressMalformed (s : State) (p : Fin 16) (want : Option Nat) (e : List W64) : Bool :=
  let qp := bits (word e 1) 17 0
  egressReserved e || egressRange e || (s.qp? p qp).isNone
    || (match want with
      | some i => i != qp
      | none => false)

/-- The checks of an egress descriptor (R382): the reserved values and ranges first, then keys, ownership and kinds. -/
def checkEgress (s : State) (p : Fin 16) (skip : Option Nat) (want : Option Nat) (e : List W64) : Option Status :=
  let q := s.parts[p]
  let e0 := word e 0
  let src := bits (word e 2) 38 0
  let len := bits (word e 3) 36 0
  let sign := bitAt e0 33
  let key (n : Nat) : Option KeySlot := Table.get? s.pannier (partSlot p n)
  let sealKey := key (bits e0 15 0)
  let signKey := key (bits e0 31 16)
  let entry := ((Table.get? q.net.allow (bits e0 45 40)).map AllowEntry.kind).getD 0
  if egressMalformed s p want e || src + len > q.dramSize then some .badParam
  else if sealKey.isNone || (sign && signKey.isNone) then some .badState
  else if q.sourceOwned skip src len || sealKey.any (fun k => !k.may 0) || (sign && signKey.any (fun k => !k.may 1)) then
    some .notPermitted
  else
    match sealKey.bind (fun k => entryKind k.kind) with
    | some n => if n != entry then some .paramMismatch else none
    | none => none

/-! ## Making and sending a message (R383, R384) -/

/-- The packets of one WRITE message (R365): its bytes in packets of the path MTU, the first with the RETH, the last with the
immediate where there is one. -/
def writePackets (mtu va rkey total : Nat) (imm : Option Nat) (psn : Nat) (first : Bool) : Nat → List Byte → List TxPacket
  | 0, _ => []
  | n + 1, bs =>
    let lastPkt : Bool := bs.length ≤ mtu
    let op : RdmaOp :=
      if first then (if lastPkt then (if imm.isSome then .writeOnlyImm else .writeOnly) else .writeFirst)
      else if lastPkt then (if imm.isSome then .writeLastImm else .writeLast) else .writeMiddle
    let k : TxPacket := ⟨psn % 2 ^ 24, op, va, rkey, if first then total else 0, if lastPkt then imm else none, bs.take mtu⟩
    if lastPkt then [k] else k :: writePackets mtu va rkey total imm (psn + 1) false n (bs.drop mtu)

/-- Bytes of the largest WRITE message (R384). -/
def gib : Nat := 2 ^ 30

/-- The WRITE messages that carry a byte string to consecutive remote addresses (R384). -/
def messagePackets (mtu va rkey : Nat) (imm : Option Nat) (psn : Nat) : Nat → List Byte → List TxPacket
  | 0, _ => []
  | n + 1, bs =>
    if bs.length ≤ gib then writePackets mtu va rkey bs.length imm psn true (ceilDiv bs.length mtu) bs
    else
      let ks := writePackets mtu va rkey gib none psn true (gib / mtu) (bs.take gib)
      ks ++ messagePackets mtu (va + gib) rkey imm (psn + ks.length) n (bs.drop gib)

/-- Start sending a message with its FLUSH on a queue pair. -/
def State.startSend (s : State) (p : Fin 16) (i : Nat) (q : Qp) (kind : SendKind) (slots : List Nat) (va rkey : Nat)
    (imm : Option Nat) (bs : List Byte) : State :=
  let ks := messagePackets (mtuBytes q.mtu) va rkey imm q.sqPsn (bs.length / gib + 1) bs
  let fl : TxPacket := ⟨(q.sqPsn + ks.length) % 2 ^ 24, .flush, va, rkey, bs.length, none, []⟩
  let d : Send := ⟨kind, slots, bs.length, 0, ks ++ [fl], q.retry, q.rnrRetry, s.clock, none⟩
  (s.modQp p i (fun q =>
    { q with sqPsn := (q.sqPsn + ks.length + 1) % 2 ^ 24, sending := some d
             rate := { q.rate with bytes := q.rate.bytes + bs.length } })).txPackets p i q (ks ++ [fl])

/-- The header of an egress message (R383). -/
def egressHeader (p : Fin 16) (creation serial : Nat) (e : List W64) (sk : KeySlot) (sign : Option KeySlot) : List Byte :=
  leBytes 4 0x47454B53 ++ leBytes 2 1 ++ [byte sk.kind, byte (b2n sign.isSome)] ++ leBytes 2 p.val
    ++ leBytes 2 (bits (word e 0) 63 48) ++ zeros 4 ++ leBytes 8 (bits (word e 3) 36 0) ++ leBytes 8 creation
    ++ leBytes 8 serial ++ leBytes 8 sk.serial ++ deviceFp ++ leBytes 8 ((sign.map KeySlot.serial).getD 0) ++ zeros 24

/-- The segments of an egress message from segment `i` on (R383). -/
def egressSegments (k header : List Byte) (i : Nat) : Nat → List Byte → List Byte
  | 0, _ => []
  | n + 1, bs =>
    let (ct, tag) := gcmSeal k (leBytes 12 i) header (bs.take 65536)
    ct ++ tag ++ egressSegments k header (i + 1) n (bs.drop 65536)

/-- IKM of an egress message (R383); none where an X25519 agreement gives zero. -/
def egressIkm (sk : KeySlot) (pub : List Byte) : Option (List Byte) :=
  match sk.kind with
  | 2 => some (ecdh (beNat sk.key) pub)
  | 3 =>
    let z := x25519 sk.key (pub.take 32)
    if z.all (· == 0) then none else some z
  | _ => some sk.key

/-- The trailer of an egress message (R383), with the nonce of an ECDSA signature drawn from the partition's instance. -/
def State.egressTrailer (s : State) (p : Fin 16) (sign : Option KeySlot) (m : List Byte) : List Byte × State :=
  match sign with
  | some k =>
    if k.kind = 5 then (padTo 96 (hmac sha384Kind k.key m), s)
    else
      let (d, s) := s.partDraw p 56
      (ecdsaSign (beNat k.key) (scalarOf d) m, s)
  | none => (zeros 96, s)

/-- The checks at the start of a send (R384), and behind them the owner of the source: pages that a round or a resident copy has come to own
since the descriptor was posted are not sent (R62, R156; DESIGN CHOICE: no rule gives the status; entry 123). -/
def checkSend (s : State) (p : Fin 16) (q : Qp) (e : List W64) : Option Status :=
  let e0 := word e 0
  let sign := bitAt e0 33
  let key (n : Nat) : Option KeySlot := Table.get? s.pannier (partSlot p n)
  match key (bits e0 15 0), Table.get? (s.parts[p]).net.allow (bits e0 45 40) with
  | sk, en =>
    if q.st != .rts then some .badState
    else if sk.isNone || (sign && (key (bits e0 31 16)).isNone) then some .badState
    else if sk.any (fun k => !k.may 0) || (sign && (key (bits e0 31 16)).any (fun k => !k.may 1))
        || !en.any (fun a => a.ipv6 == q.ipv6 && a.ip0 == q.peer0 && a.ip1 == q.peer1) then some .notPermitted
    else
      let owned : Option Status :=
        if (s.parts[p]).sourceOwned none (bits (word e 2) 38 0) (bits (word e 3) 36 0) then some .notPermitted else none
      match sk.bind (fun k => entryKind k.kind), en with
      | some n, some a => if n != a.kind then some .paramMismatch else owned
      | _, _ => owned

/-- Descriptors in a queue pair's egress queue (R372), the one being sent among them: R384 works on the descriptors of a queue in order and
says of none that it leaves before its EGRESS_DONE (DEDUCED: entry 118). -/
def Qp.descriptors (q : Qp) : Nat :=
  (match q.sending.map Send.kind with
    | some (.egress _) => 1
    | _ => 0) + (q.egress.filter (fun e => match e with
    | .descriptor _ => true
    | .refresh _ => false)).length

/-- A request leaves its queue pair's queue. -/
def State.popEgress (s : State) (p : Fin 16) (i : Nat) : State := s.modQp p i (fun q => { q with egress := q.egress.drop 1 })

/-- Start the send of the oldest descriptor of a queue pair (R383, R384). -/
def State.sendEgress (s : State) (p : Fin 16) (i : Nat) (q : Qp) (e : List W64) : State :=
  let s := s.popEgress p i
  let e0 := word e 0
  let id := bits e0 63 48
  let pt := s.parts[p]
  match checkSend s p q e, Table.get? s.pannier (partSlot p (bits e0 15 0)) with
  | some st, _ => s.egressDone p i st id 0
  | none, none => s.egressDone p i .badState id 0
  | none, some sk =>
    let sign := if bitAt e0 33 then Table.get? s.pannier (partSlot p (bits e0 31 16)) else none
    let pub := ((Table.get? pt.net.allow (bits e0 45 40)).map AllowEntry.pub).getD []
    match egressIkm sk pub with
    | none => s.egressDone p i .badParam id 0
    | some ikm =>
      let serial := pt.net.egressSerial
      let len := bits (word e 3) 36 0
      let k := hkdf sha384Kind ikm (leBytes 8 pt.creation ++ leBytes 8 serial) (ascii "skv9032 egress" ++ deviceFp) 32
      let header := egressHeader p pt.creation serial e sk sign
      let body := header ++ egressSegments k header 0 (ceilDiv len 65536) (pt.dram.readN (bits (word e 2) 38 0) len)
      let (tr, s) := s.egressTrailer p sign body
      let s := s.modNet p (fun n => { n with egressSerial := serial + 1 })
      let slots := bits e0 15 0 :: (if bitAt e0 33 then [bits e0 31 16] else [])
      s.startSend p i q (.egress id) slots (word e 4).toNat (bits (word e 5) 31 0)
        (if bitAt e0 32 then some (bits (word e 1) 63 32) else none) (body ++ tr)

/-- The checks of a refresh send (R237): the peer is on the allowlist, and the queue pair is connected to it and may send. A message that a
round or a resident copy has come to own meanwhile is not sent (R62, R156; DESIGN CHOICE: entry 123). -/
def checkRefresh (s : State) (p : Fin 16) (q : Qp) (r : RefreshSend) : Option Status :=
  if q.st != .rts then some .badState
  else
    match Table.get? (s.parts[p]).net.allow r.peer with
    | some a =>
      if a.ipv6 != q.ipv6 || a.ip0 != q.peer0 || a.ip1 != q.peer1 || (s.parts[p]).sourceOwned none r.addr r.length then
        some .notPermitted
      else none
    | none => some .notPermitted

/-- Start a refresh send (R237): WRITEs, the last with the immediate, and a FLUSH. -/
def State.sendRefresh (s : State) (p : Fin 16) (i : Nat) (q : Qp) (r : RefreshSend) : State :=
  let s := s.popEgress p i
  match checkRefresh s p q r with
  | some st => s.refreshFailed p (Fin.ofNat 32 r.cluster) r.ticket r.epoch st
  | none =>
    s.startSend p i q (.refresh r.cluster r.ticket r.epoch r.sentCtr r.task) [] r.va r.rkey (some r.imm)
      ((s.parts[p]).dram.readN r.addr r.length)

/-- Start what waits first on a queue pair that sends nothing (R237, R384). -/
def State.startNext (s : State) (p : Fin 16) (i : Nat) : State :=
  match s.qp? p i with
  | some q =>
    if q.sending.isSome then s
    else
      match q.egress with
      | .descriptor e :: _ => s.sendEgress p i q e
      | .refresh r :: _ => s.sendRefresh p i q r
      | [] => s
  | none => s

/-- Queue an egress descriptor on its queue pair (R372, R436). -/
def State.queueEgress (s : State) (p : Fin 16) (e : List W64) : State :=
  s.modQp p (bits (word e 1) 17 0) (fun q => { q with egress := q.egress ++ [.descriptor e] })

end Sys2Proof.Machine
end

