-- ==== Sys2Proof/Machine/TaskBase.lean ====
section
/-! DEFINITION. What other families ask of a partition's running task: whether one runs, its ticks and frames, and its stop
(R140, R164, R167). -/

namespace Sys2Proof.Machine

/-- A task runs, or is being prepared (R158, R161). -/
def State.taskRunning (s : State) (p : Fin 16) : Bool := (s.parts[p]).job.running.isSome

/-- The number of resident programs (R352). -/
def State.residentCount (s : State) (p : Fin 16) : Nat := (s.parts[p]).job.resident.length

/-- Cycles of a program frame (R21, R140). -/
def frameCycles : Nat := 1728

/-- The first program-frame start after a task cycle (R164). -/
def nextProgramFrame (c : Nat) : Nat := (c / frameCycles + 1) * frameCycles

/-- The clock of a task cycle. -/
def Running.clockOf (r : Running) (c : Nat) : Nat := r.start + (c - r.base) * r.cycleLen

/-- Of two stops the first to come stands. At one cycle a fault stands against a cancel, and of two faults the one noted first, which is that of
the instruction sent first (DESIGN CHOICE: R164 and R167 name no order; log 146). -/
def Stop.over (x old : Stop) : Bool := x.atCycle < old.atCycle || (x.atCycle == old.atCycle && old.cancel && !x.cancel)

/-- Note a stop of the running task. -/
def State.noteStop (s : State) (p : Fin 16) (x : Running → Stop) : State :=
  s.modJob p (fun j =>
    { j with running := j.running.map (fun r => if r.stop.all (fun old => (x r).over old) then { r with stop := some (x r) } else r) })

/-- Stop the running tenant task at the next device tick, as a fault stops it, with a status and fault kind 0 (R402, R405). -/
def State.stopTenant (s : State) (p : Fin 16) (st : Status) : State :=
  match (s.parts[p]).job.running with
  | some r =>
    match r.what with
    | .tenant _ =>
      let c := (s.taskCycle p).getD 0
      s.noteStop p (fun r => ⟨r.tickAfter c, false, st, 0, 0, 0, 0, 0⟩)
    | .recovery _ => s
  | none => s

end Sys2Proof.Machine
end

