-- ==== Sys2Proof/Machine/ActTables.lean ====
section
/-! DEFINITION. The node values of the activation tables (R258): the fp32 RNE values, as bit patterns, of the exact GELU at
−8 + i ÷ 32 and of the exact SILU at −16 + i ÷ 16, for i = 0 to 512, computed from the functions of R257 in 80 decimal
digits. -/

namespace Sys2Proof.Machine

/-- Node values of GELU, part 0. -/
def geluNodes0 : List Nat :=
  [2641023300, 2646363801, 2652274974, 2658125768, 2663276428, 2669061557, 2674762571, 2679820528, 2685559368,
   2690951338, 2696020612, 2701795841, 2706747498, 2711929346, 2717728926, 2722235796, 2727619733, 2732694455,
   2737518398, 2743175167, 2747490707, 2752701879, 2757506391, 2762247127, 2767529952, 2771784263, 2777075555,
   2781284309, 2786228989, 2790717178, 2795324288, 2800053036, 2804340831, 2809263753, 2813259705, 2818324312,
   2822064672, 2827087495, 2830743001, 2835633723, 2839286120, 2844082515, 2847690034, 2852432717, 2855955482,
   2860686508, 2864087823, 2868794509, 2872096671, 2876565496, 2879995314, 2884191642, 2887799951, 2891697463,
   2895528827, 2899109720, 2903201309, 2906456113, 2910826994, 2913764047, 2917674067, 2921059515, 2924520727,
   2928366182]

/-- Node values of GELU, part 1. -/
def geluNodes1 : List Nat :=
  [2931398397, 2935396559, 2938333846, 2941782884, 2945348702, 2948293987, 2952128565, 2954949248, 2958174889,
   2961760936, 2964447610, 2967902472, 2970950790, 2973786499, 2977406575, 2979986369, 2982915091, 2986485835,
   2988832832, 2991793642, 2995126567, 2997466139, 3000397064, 3003591020, 3005875141, 3008717022, 3011877570,
   3014062340, 3016762311, 3019995218, 3022043269, 3024557523, 3027637354, 3029844634, 3032140257, 3034934068,
   3037501505, 3039557285, 3042043280, 3045043202, 3046860218, 3049030816, 3051633851, 3054101187, 3055961465,
   3058178723, 3060816133, 3062894471, 3064749117, 3066942041, 3069529837, 3071404081, 3073195372, 3075296907,
   3077757679, 3079626367, 3081303729, 3083256664, 3085526183, 3087583220, 3089107180, 3090868372, 3092900010,
   3095239367]

/-- Node values of GELU, part 2. -/
def geluNodes2 : List Nat :=
  [3096662274, 3098204757, 3099971340, 3101991002, 3104040450, 3105353408, 3106846610, 3108541871, 3110463240,
   3112405368, 3113633131, 3115017604, 3116576184, 3118327858, 3120293305, 3121528591, 3122759763, 3124134460,
   3125666949, 3127372618, 3129109406, 3130160876, 3131325646, 3132613917, 3134036581, 3135605241, 3137332238,
   3138285028, 3139326888, 3140468718, 3141718240, 3143083580, 3144573264, 3145962113, 3146844898, 3147803853,
   3148844038, 3149970699, 3151189269, 3152505353, 3153924718, 3154784946, 3155606859, 3156489492, 3157435986,
   3158449524, 3159533319, 3160690602, 3161924607, 3162871888, 3163570436, 3164312132, 3165098521, 3165931106,
   3166811336, 3167740601, 3168720211, 3169751391, 3170835265, 3171433333, 3172029413, 3172653155, 3173304848,
   3173984694]

/-- Node values of GELU, part 3. -/
def geluNodes3 : List Nat :=
  [3174692805, 3175429185, 3176193730, 3176986217, 3177806296, 3178653481, 3179404788, 3179854469, 3180316528,
   3180790413, 3181275484, 3181771009, 3182276162, 3182790022, 3183311566, 3183839668, 3184373099, 3184910520,
   3185450487, 3185991444, 3186531726, 3187069555, 3187603047, 3187900622, 3188159982, 3188414016, 3188661569,
   3188901432, 3189132350, 3189353018, 3189562091, 3189758179, 3189939857, 3190105663, 3190254104, 3190383660,
   3190492788, 3190579925, 3190643494, 3190681911, 3190693586, 3190676929, 3190630359, 3190552306, 3190441217,
   3190295563, 3190113843, 3189894594, 3189636390, 3189337852, 3188997653, 3188614524, 3188187257, 3187714711,
   3186720597, 3185588133, 3184359170, 3183032056, 3181605315, 3180077656, 3177613515, 3174148289, 3170057728,
   3162086963]

/-- Node values of GELU, part 4. -/
def geluNodes4 : List Nat :=
  [0, 1015230694, 1023828224, 1028544319, 1032633242, 1035197864, 1037864509, 1040409732, 1041843327,
   1043325997, 1044856918, 1046435177, 1048059783, 1049152834, 1050009845, 1050888322, 1051787629, 1052707103,
   1053646054, 1054603771, 1055579520, 1056572551, 1057273354, 1057786000, 1058306124, 1058833330, 1059367222,
   1059907403, 1060453475, 1061005045, 1061561722, 1062123120, 1062688860, 1063258567, 1063831877, 1064408434,
   1064987889, 1065461561, 1065753688, 1066046776, 1066340674, 1066635238, 1066930330, 1067225817, 1067521575,
   1067817487, 1068113441, 1068409332, 1068705065, 1069000549, 1069295699, 1069590440, 1069884700, 1070178416,
   1070471530, 1070763991, 1071055753, 1071346776, 1071637025, 1071926471, 1072215089, 1072502861, 1072789770,
   1073075806]

/-- Node values of GELU, part 5. -/
def geluNodes5 : List Nat :=
  [1073360962, 1073645234, 1073835224, 1073976478, 1074117296, 1074257682, 1074397641, 1074537181, 1074676309,
   1074815035, 1074953366, 1075091315, 1075228892, 1075366107, 1075502974, 1075639503, 1075775708, 1075911600,
   1076047193, 1076182499, 1076317530, 1076452299, 1076586819, 1076721101, 1076855159, 1076989003, 1077122645,
   1077256097, 1077389370, 1077522474, 1077655419, 1077788215, 1077920872, 1078053398, 1078185804, 1078318096,
   1078450283, 1078582373, 1078714371, 1078846287, 1078978125, 1079109891, 1079241592, 1079373233, 1079504819,
   1079636353, 1079767842, 1079899288, 1080030695, 1080162068, 1080293409, 1080424721, 1080556007, 1080687269,
   1080818510, 1080949732, 1081080936, 1081212126, 1081343301, 1081474464, 1081605616, 1081736759, 1081867892,
   1081999018]

/-- Node values of GELU, part 6. -/
def geluNodes6 : List Nat :=
  [1082130137, 1082195841, 1082261395, 1082326947, 1082392496, 1082458044, 1082523590, 1082589134, 1082654678,
   1082720220, 1082785762, 1082851302, 1082916842, 1082982382, 1083047921, 1083113459, 1083178997, 1083244535,
   1083310072, 1083375610, 1083441147, 1083506684, 1083572220, 1083637757, 1083703294, 1083768830, 1083834366,
   1083899903, 1083965439, 1084030975, 1084096511, 1084162047, 1084227584, 1084293120, 1084358656, 1084424192,
   1084489728, 1084555264, 1084620800, 1084686336, 1084751872, 1084817408, 1084882944, 1084948480, 1085014016,
   1085079552, 1085145088, 1085210624, 1085276160, 1085341696, 1085407232, 1085472768, 1085538304, 1085603840,
   1085669376, 1085734912, 1085800448, 1085865984, 1085931520, 1085997056, 1086062592, 1086128128, 1086193664,
   1086259200]

/-- Node values of GELU, part 7. -/
def geluNodes7 : List Nat :=
  [1086324736, 1086390272, 1086455808, 1086521344, 1086586880, 1086652416, 1086717952, 1086783488, 1086849024,
   1086914560, 1086980096, 1087045632, 1087111168, 1087176704, 1087242240, 1087307776, 1087373312, 1087438848,
   1087504384, 1087569920, 1087635456, 1087700992, 1087766528, 1087832064, 1087897600, 1087963136, 1088028672,
   1088094208, 1088159744, 1088225280, 1088290816, 1088356352, 1088421888, 1088487424, 1088552960, 1088618496,
   1088684032, 1088749568, 1088815104, 1088880640, 1088946176, 1089011712, 1089077248, 1089142784, 1089208320,
   1089273856, 1089339392, 1089404928, 1089470464, 1089536000, 1089601536, 1089667072, 1089732608, 1089798144,
   1089863680, 1089929216, 1089994752, 1090060288, 1090125824, 1090191360, 1090256896, 1090322432, 1090387968,
   1090453504]

/-- Node values of GELU, part 8. -/
def geluNodes8 : List Nat :=
  [1090519040]

/-- Node values of GELU. -/
def geluNodes : List Nat :=
  geluNodes0 ++ geluNodes1 ++ geluNodes2 ++ geluNodes3 ++ geluNodes4 ++ geluNodes5 ++ geluNodes6 ++ geluNodes7 ++ geluNodes8

/-- Node values of SILU, part 0. -/
def siluNodes0 : List Nat :=
  [3052514012, 3053461462, 3053967955, 3054504852, 3055073970, 3055677231, 3056316672, 3056994451, 3057712853,
   3058474298, 3059281351, 3060136728, 3061043303, 3061923022, 3062432169, 3062971760, 3063543604, 3064149617,
   3064791828, 3065472386, 3066193565, 3066957775, 3067767566, 3068625638, 3069534851, 3070364381, 3070874759,
   3071415520, 3071988462, 3072595484, 3073238601, 3073919944, 3074641766, 3075406457, 3076216543, 3077074699,
   3077983756, 3078782923, 3079292934, 3079833156, 3080405366, 3081011442, 3081653372, 3082333261, 3083053334,
   3083815946, 3084623590, 3085478902, 3086384672, 3087175796, 3087683650, 3088221419, 3088790849, 3089393789,
   3090032192, 3090708124, 3091423771, 3092181444, 3092983586, 3093832782, 3094731766, 3095539890, 3096043586,
   3096576764]

/-- Node values of SILU, part 1. -/
def siluNodes1 : List Nat :=
  [3097141131, 3097738492, 3098370756, 3099039939, 3099748175, 3100497716, 3101290946, 3102130380, 3103018681,
   3103871809, 3104369122, 3104895328, 3105452086, 3106041148, 3106664365, 3107323692, 3108021195, 3108759054,
   3109539575, 3110365191, 3111238473, 3112162133, 3112656303, 3113172891, 3113719211, 3114296950, 3114907889,
   3115553905, 3116236983, 3116959216, 3117722812, 3118530103, 3119383549, 3120285744, 3120900802, 3121404831,
   3121937572, 3122500631, 3123095702, 3123724573, 3124389128, 3125091353, 3125833342, 3126617305, 3127445567,
   3128320582, 3129097859, 3129586066, 3130101738, 3130646387, 3131221606, 3131829070, 3132470548, 3133147897,
   3133863078, 3134618150, 3135415284, 3136256763, 3137144991, 3137710944, 3138205666, 3138727755, 3139278684,
   3139859999]

/-- Node values of SILU, part 2. -/
def siluNodes2 : List Nat :=
  [3140473327, 3141120378, 3141802950, 3142522931, 3143282306, 3144083158, 3144927678, 3145773082, 3146242515,
   3146737404, 3147259079, 3147808934, 3148388432, 3148999107, 3149642567, 3150320497, 3151034665, 3151786920,
   3152579199, 3153413534, 3154204327, 3154666782, 3155153599, 3155665993, 3156205234, 3156772648, 3157369622,
   3157997602, 3158658097, 3159352684, 3160083003, 3160850765, 3161657753, 3162505519, 3162951058, 3163419106,
   3163910705, 3164426936, 3164968924, 3165537833, 3166134870, 3166761283, 3167418364, 3168107447, 3168829910,
   3169587172, 3170380698, 3171052907, 3171488208, 3171943958, 3172420967, 3172920065, 3173442097, 3173987925,
   3174558425, 3175154484, 3175776998, 3176426871, 3177105010, 3177812323, 3178549715, 3179300256, 3179700368,
   3180116841]

/-- Node values of SILU, part 3. -/
def siluNodes3 : List Nat :=
  [3180550097, 3181000539, 3181468553, 3181954500, 3182458713, 3182981492, 3183523097, 3184083745, 3184663598,
   3185262760, 3185881270, 3186519090, 3187176097, 3187761556, 3188108868, 3188465284, 3188830521, 3189204225,
   3189585963, 3189975219, 3190371386, 3190773754, 3191181509, 3191593717, 3192009323, 3192427134, 3192845820,
   3193263896, 3193679719, 3194091478, 3194497187, 3194894673, 3195281577, 3195655341, 3196013205, 3196205927,
   3196364409, 3196510184, 3196641457, 3196756333, 3196852817, 3196928821, 3196982166, 3197010591, 3197011761,
   3196983277, 3196922689, 3196827507, 3196695217, 3196523295, 3196309229, 3196041420, 3195429897, 3194719500,
   3193905669, 3192984061, 3191950595, 3190801492, 3189533313, 3188142996, 3185584743, 3182300532, 3178235219,
   3170369707]

/-- Node values of SILU, part 4. -/
def siluNodes4 : List Nat :=
  [0, 1023672235, 1032322390, 1037169292, 1041230541, 1043909740, 1046713727, 1049107926, 1050630527,
   1052210946, 1053847294, 1055537530, 1057122046, 1058017741, 1058936969, 1059878513, 1060841128, 1061823558,
   1062824543, 1063842825, 1064877160, 1065639768, 1066171162, 1066708787, 1067252076, 1067800485, 1068353492,
   1068910598, 1069471330, 1070035238, 1070601901, 1071170922, 1071741931, 1072314582, 1072888556, 1073463557,
   1073890570, 1074178703, 1074466976, 1074755288, 1075043545, 1075331665, 1075619572, 1075907200, 1076194492,
   1076481397, 1076767869, 1077053872, 1077339372, 1077624344, 1077908764, 1078192615, 1078475883, 1078758558,
   1079040634, 1079322107, 1079602975, 1079883239, 1080162903, 1080441972, 1080720453, 1080998354, 1081275684,
   1081552453]

/-- Node values of SILU, part 5. -/
def siluNodes5 : List Nat :=
  [1081828673, 1082104357, 1082254974, 1082392297, 1082529372, 1082666205, 1082802803, 1082939173, 1083075322,
   1083211258, 1083346986, 1083482515, 1083617852, 1083753002, 1083887973, 1084022772, 1084157404, 1084291877,
   1084426196, 1084560368, 1084694398, 1084828292, 1084962056, 1085095695, 1085229214, 1085362618, 1085495912,
   1085629101, 1085762190, 1085895182, 1086028082, 1086160895, 1086293623, 1086426271, 1086558843, 1086691341,
   1086823770, 1086956132, 1087088430, 1087220668, 1087352849, 1087484974, 1087617047, 1087749069, 1087881045,
   1088012975, 1088144861, 1088276707, 1088408514, 1088540283, 1088672017, 1088803718, 1088935386, 1089067024,
   1089198633, 1089330214, 1089461770, 1089593300, 1089724807, 1089856291, 1089987754, 1090119197, 1090250621,
   1090382026]

/-- Node values of SILU, part 6. -/
def siluNodes6 : List Nat :=
  [1090513414, 1090581913, 1090647591, 1090713261, 1090778925, 1090844581, 1090910232, 1090975876, 1091041515,
   1091107148, 1091172776, 1091238400, 1091304018, 1091369633, 1091435243, 1091500849, 1091566452, 1091632050,
   1091697646, 1091763238, 1091828828, 1091894414, 1091959998, 1092025580, 1092091158, 1092156735, 1092222309,
   1092287882, 1092353452, 1092419021, 1092484587, 1092550152, 1092615716, 1092681278, 1092746839, 1092812398,
   1092877956, 1092943513, 1093009069, 1093074623, 1093140177, 1093205730, 1093271281, 1093336832, 1093402382,
   1093467932, 1093533480, 1093599028, 1093664575, 1093730122, 1093795668, 1093861214, 1093926759, 1093992303,
   1094057847, 1094123391, 1094188934, 1094254477, 1094320019, 1094385561, 1094451103, 1094516644, 1094582185,
   1094647726]

/-- Node values of SILU, part 7. -/
def siluNodes7 : List Nat :=
  [1094713267, 1094778807, 1094844347, 1094909887, 1094975427, 1095040966, 1095106505, 1095172044, 1095237583,
   1095303122, 1095368660, 1095434199, 1095499737, 1095565275, 1095630813, 1095696351, 1095761889, 1095827427,
   1095892965, 1095958502, 1096024040, 1096089577, 1096155114, 1096220651, 1096286189, 1096351726, 1096417263,
   1096482800, 1096548337, 1096613873, 1096679410, 1096744947, 1096810484, 1096876020, 1096941557, 1097007094,
   1097072630, 1097138167, 1097203703, 1097269240, 1097334776, 1097400313, 1097465849, 1097531386, 1097596922,
   1097662458, 1097727995, 1097793531, 1097859067, 1097924603, 1097990140, 1098055676, 1098121212, 1098186748,
   1098252285, 1098317821, 1098383357, 1098448893, 1098514429, 1098579965, 1098645502, 1098711038, 1098776574,
   1098842110]

/-- Node values of SILU, part 8. -/
def siluNodes8 : List Nat :=
  [1098907646]

/-- Node values of SILU. -/
def siluNodes : List Nat :=
  siluNodes0 ++ siluNodes1 ++ siluNodes2 ++ siluNodes3 ++ siluNodes4 ++ siluNodes5 ++ siluNodes6 ++ siluNodes7 ++ siluNodes8

end Sys2Proof.Machine
end

