-- ==== Sys2Proof/Machine/Float.lean ====
section
/-! DEFINITION. Exact values and roundings of the tensor engine (R244, R245, R252, R257, R259, R260): the element formats,
exact sums and products, rounding to nearest even, and the conversion of outputs. -/

namespace Sys2Proof.Machine

/-! ## Formats -/

/-- A binary float format: fraction bits, exponent bias, exponent bits, and how its top exponent is used: 0 IEEE 754
(infinities and NaNs), 1 E4M3 (one NaN, no infinity), 2 E2M1 (neither). -/
structure FltFmt where
  frac : Nat
  bias : Nat
  ebits : Nat
  top : Nat
  deriving DecidableEq, Repr

/-- The formats by their code (R244); the MX formats by that of their elements. -/
def fltFmt : Nat → FltFmt
  | 0 => ⟨23, 127, 8, 0⟩
  | 1 => ⟨7, 127, 8, 0⟩
  | 2 => ⟨10, 15, 5, 0⟩
  | 3 => ⟨3, 7, 4, 1⟩
  | 4 => ⟨2, 15, 5, 0⟩
  | 5 => ⟨3, 7, 4, 1⟩
  | 6 => ⟨2, 15, 5, 0⟩
  | _ => ⟨1, 1, 2, 2⟩

/-- The fp32 format. -/
def f32 : FltFmt := fltFmt 0

/-- Bits of a format. -/
def FltFmt.width (f : FltFmt) : Nat := 1 + f.ebits + f.frac

/-- The exponent of the smallest step of a format. -/
def FltFmt.qmin (f : FltFmt) : Int := 1 - (f.bias : Int) - (f.frac : Int)

/-- The largest finite value of a format as m × 2^e. -/
def FltFmt.maxFinite (f : FltFmt) : Nat × Int :=
  match f.top with
  | 0 => (2 ^ (f.frac + 1) - 1, (2 ^ f.ebits : Int) - 2 - f.bias - f.frac)
  | 1 => (2 ^ (f.frac + 1) - 2, (2 ^ f.ebits : Int) - 1 - f.bias - f.frac)
  | _ => (2 ^ (f.frac + 1) - 1, (2 ^ f.ebits : Int) - 1 - f.bias - f.frac)

/-- The exact value of a bit pattern (R245). -/
def FltFmt.decode (f : FltFmt) (b : Nat) : Fp :=
  let neg := b.testBit (f.ebits + f.frac)
  let e := b / 2 ^ f.frac % 2 ^ f.ebits
  let m := b % 2 ^ f.frac
  if f.top = 0 ∧ e = 2 ^ f.ebits - 1 then (if m = 0 then .inf neg else .nan)
  else if f.top = 1 ∧ e = 2 ^ f.ebits - 1 ∧ m = 2 ^ f.frac - 1 then .nan
  else if e = 0 then .num neg m f.qmin
  else .num neg (2 ^ f.frac + m) (f.qmin + e - 1)

/-- The bit pattern of a value that the format can hold: m × 2^e with m of at most frac + 1 bits and e at or above qmin. -/
def FltFmt.encodeNum (f : FltFmt) (neg : Bool) (m : Nat) (e : Int) : Nat :=
  let s := if neg then 2 ^ (f.ebits + f.frac) else 0
  let up := Nat.min (e - f.qmin).toNat (f.frac + 1 - (Nat.log2 m + 1))
  let m' := if m = 0 then 0 else m * 2 ^ up
  let e' := (e - up - f.qmin).toNat
  if m' < 2 ^ f.frac then s + m' else s + (e' + 1) * 2 ^ f.frac + (m' - 2 ^ f.frac)

/-- The canonical NaN (R259); S.1111.111 with sign 0 for E4M3. -/
def FltFmt.nanBits (f : FltFmt) : Nat :=
  match f.top with
  | 1 => 2 ^ (f.ebits + f.frac) - 1
  | _ => (2 ^ f.ebits - 1) * 2 ^ f.frac + 2 ^ (f.frac - 1)

/-- The pattern of an infinity. -/
def FltFmt.infBits (f : FltFmt) (neg : Bool) : Nat :=
  (if neg then 2 ^ (f.ebits + f.frac) else 0) + (2 ^ f.ebits - 1) * 2 ^ f.frac

/-- The largest finite pattern of a sign. -/
def FltFmt.maxBits (f : FltFmt) (neg : Bool) : Nat := f.encodeNum neg f.maxFinite.1 f.maxFinite.2

/-! ## Rounding -/

/-- m × 2^e is above the largest finite value of the format. -/
def FltFmt.over (f : FltFmt) (m : Nat) (e : Int) : Bool :=
  let (a, b) := f.maxFinite
  let c := min e b
  m * 2 ^ (e - c).toNat > a * 2 ^ (b - c).toNat

/-- The exponent of a format's step around m × 2^e, without an upper end. -/
def FltFmt.step (f : FltFmt) (m : Nat) (e : Int) : Int := max f.qmin (e + (Nat.log2 m : Int) - f.frac)

/-- m × 2^e cut to the format's step: the quotient, the rest and the divisor as numbers, and the step's exponent; the rest is
0 exactly where the format's spacing holds the value. -/
def FltFmt.cut (f : FltFmt) (m : Nat) (e : Int) : Nat × Nat × Nat × Int :=
  let q := f.step m e
  if q ≤ e then (m * 2 ^ (e - q).toNat, 0, 1, q)
  else (m / 2 ^ (q - e).toNat, m % 2 ^ (q - e).toNat, 2 ^ (q - e).toNat, q)

/-- Round m × 2^e to nearest, ties to even, without an upper end. -/
def FltFmt.near (f : FltFmt) (m : Nat) (e : Int) : Nat × Int :=
  if m = 0 then (0, f.qmin)
  else
    let (n, r, d, q) := f.cut m e
    (if 2 * r > d ∨ (2 * r = d ∧ n % 2 = 1) then n + 1 else n, q)

/-- RNE of an exact value to fp32 (R252): a finite value beyond the range becomes an infinity. -/
def Fp.rne (x : Fp) : Fp :=
  match x with
  | .num neg m e =>
    let (n, q) := f32.near m e
    if f32.over n q then .inf neg else .num neg n q
  | y => y

/-- The fp32 bits of a value that fp32 can hold. -/
def Fp.bits32 : Fp → Nat
  | .nan => f32.nanBits
  | .inf neg => f32.infBits neg
  | .num neg m e => f32.encodeNum neg (f32.near m e).1 (f32.near m e).2

/-- The value of fp32 bits. -/
def ofBits32 (b : Nat) : Fp := f32.decode b

/-! ## Exact arithmetic -/

/-- +0. -/
def Fp.zero : Fp := .num false 0 0

/-- The exact product (R252): an infinity times zero is NaN. -/
def Fp.mul : Fp → Fp → Fp
  | .nan, _ => .nan
  | _, .nan => .nan
  | .inf a, .inf b => .inf (a != b)
  | .inf a, .num b m _ => if m = 0 then .nan else .inf (a != b)
  | .num a m _, .inf b => if m = 0 then .nan else .inf (a != b)
  | .num a m e, .num b n f => .num (a != b) (m * n) (e + f)

/-- The opposite. -/
def Fp.neg : Fp → Fp
  | .nan => .nan
  | .inf a => .inf (!a)
  | .num a m e => .num (!a) m e

/-- A finite value as a signed multiple of 2^c, for c at or below its exponent. -/
def Fp.scaled (c : Int) : Fp → Int
  | .num neg m e => (if neg then -1 else 1) * (m : Int) * 2 ^ (e - c).toNat
  | _ => 0

/-- The exponent of a value. -/
def Fp.expo : Fp → Int
  | .num _ _ e => e
  | _ => 0

/-- The exact sum of terms (R252): NaN where a term is NaN or both infinities appear, an infinity where one appears, and an
exact zero is +0 unless every term is −0. -/
def fpSum (ts : List Fp) : Fp :=
  if ts.any (fun t => t == .nan) || (ts.any (fun t => t == .inf true) && ts.any (fun t => t == .inf false)) then .nan
  else if ts.any (fun t => t == .inf true) then .inf true
  else if ts.any (fun t => t == .inf false) then .inf false
  else
    let c := ts.foldl (fun c t => min c t.expo) 0
    let v := ts.foldl (fun a t => a + t.scaled c) 0
    if v = 0 then
      .num (!ts.isEmpty && ts.all (fun t => match t with
        | .num neg m _ => neg && m == 0
        | _ => false)) 0 0
    else .num (decide (v < 0)) v.natAbs c

/-- RNE(x + y). -/
def Fp.add (x y : Fp) : Fp := (fpSum [x, y]).rne

/-- x < y for values that are not NaN. -/
def Fp.lt (x y : Fp) : Bool :=
  match x, y with
  | .nan, _ => false
  | _, .nan => false
  | .inf a, .inf b => a && !b
  | .inf a, .num _ _ _ => a
  | .num _ _ _, .inf b => !b
  | x, y =>
    let c := min x.expo y.expo
    decide (x.scaled c < y.scaled c)

/-- The floor of a finite value, as an integer. -/
def Fp.floor : Fp → Int
  | .num neg m e =>
    if e ≥ 0 then (if neg then -1 else 1) * (m : Int) * 2 ^ e.toNat
    else (if neg then -(m : Int) else (m : Int)) / (2 ^ (-e).toNat : Int)
  | _ => 0

/-! ## Conversion of outputs (R259, R260) -/

/-- Round a finite value to an integer, to nearest and ties to even. -/
def Fp.toIntNear : Fp → Int
  | .num neg m e =>
    let n : Nat := if e ≥ 0 then m * 2 ^ e.toNat
      else
        let d := 2 ^ (-e).toNat
        let r := m % d
        if 2 * r > d ∨ (2 * r = d ∧ m / d % 2 = 1) then m / d + 1 else m / d
    if neg then -(n : Int) else n
  | _ => 0

/-- Saturate to −128…127, as a byte. -/
def s8Sat (i : Int) : Nat := ((max (-128) (min 127 i)) % 256).toNat

/-- S8 under rounding to nearest (R259). -/
def toS8 : Fp → Nat
  | .nan => 0
  | .inf neg => if neg then 128 else 127
  | x => s8Sat x.toIntNear

/-- What a finite value that has been rounded to m × 2^e becomes in the format, under the overflow rule (R259). -/
def FltFmt.place (f : FltFmt) (sat neg : Bool) (m : Nat) (e : Int) : Nat :=
  if f.over m e then
    (if sat then f.maxBits neg else if f.top = 0 then f.infBits neg else f.nanBits)
  else f.encodeNum neg m e

/-- Conversion under ROUND = 0 (R259). -/
def FltFmt.convert (f : FltFmt) (sat : Bool) : Fp → Nat
  | .nan => f.nanBits
  | .inf neg => if f.top = 0 then f.infBits neg else if sat then f.maxBits neg else f.nanBits
  | .num neg m e => f.place sat neg (f.near m e).1 (f.near m e).2

/-- Conversion under ROUND = 1 with the drawn number ρ (R260). -/
def FltFmt.convertStochastic (f : FltFmt) (sat : Bool) (rho : Nat) : Fp → Nat
  | .num neg m e =>
    if m = 0 then f.convert sat (.num neg m e)
    else
      let (n, r, d, q) := f.cut m e
      if r = 0 then f.convert sat (.num neg m e)
      else f.place sat neg (if rho * d < r * 2 ^ 24 then n + 1 else n) q
  | x => f.convert sat x

/-- S8 under ROUND = 1 (R260). -/
def toS8Stochastic (rho : Nat) : Fp → Nat
  | .num neg m e =>
    if e ≥ 0 then toS8 (.num neg m e)
    else
      let d := 2 ^ (-e).toNat
      let n := if m % d ≠ 0 ∧ rho * d < m % d * 2 ^ 24 then m / d + 1 else m / d
      s8Sat (if neg then -(n : Int) else n)
  | x => toS8 x

end Sys2Proof.Machine
end

