-- ==== Sys2Proof/Machine/Tensor.lean ====
section
/-! DEFINITION. The tensor engine (R243 to R260): the configuration block, the tile, product steps, the adder tree, preloads
and drains, as functions on an engine and the local store. -/

namespace Sys2Proof.Machine

open Sys2Proof.Machine.Crypto

/-! ## Undefined data (R224, R250) -/

/-- Free values from a number on, as bytes. -/
def freeBytes (base n : Nat) : List Byte := (List.range n).map (fun i => byte (Config.freeValue (base + i)))

/-- A job holds its SRAM at a cycle. -/
def JobHold.covers (h : JobHold) (t : Nat) : Bool := h.begins ≤ t && t < h.ends

/-- An operand touches the part of a store that jobs hold (R224). -/
def jobSram (sp : Space) (a len : Nat) : Bool :=
  let lo := match sp with
    | .core => 0x80000
    | .shared => 0x200000
  len > 0 && a + len > lo

/-! ## Configuration (R244 to R248) -/

/-- The group of an input format (R245); none for a reserved code. -/
def fmtGroup : Nat → Option Nat
  | 0 => some 0 | 1 => some 1 | 2 => some 1 | 3 => some 2 | 4 => some 2 | 5 => some 3 | 6 => some 3 | 7 => some 4
  | 8 => some 5 | 9 => some 5 | _ => none

/-- Bytes of an output element; none for a format that is no output format (R245). -/
def outSize : Nat → Option Nat
  | 0 => some 4 | 1 => some 2 | 2 => some 2 | 3 => some 1 | 4 => some 1 | 8 => some 1 | _ => none

/-- kd (R244). -/
def kdOf : Nat → Nat
  | 0 => 2 | 1 => 8 | 2 => 8 | 7 => 32 | _ => 16

/-- Half-bytes of an input element. -/
def nibblesOf : Nat → Nat
  | 0 => 8 | 1 => 4 | 2 => 4 | 7 => 1 | _ => 2

/-- The format carries block scales (R244). -/
def isMx (f : Nat) : Bool := f == 5 || f == 6 || f == 7

/-- The cell block BR × BC by GROUP_LOG2 (R248). -/
def cellBlock : Nat → Nat × Nat
  | 0 => (4, 4) | 1 => (4, 2) | 2 => (4, 1) | 3 => (2, 1) | _ => (1, 1)

/-- TN by GROUP_LOG2 (R248). -/
def tileN (g : Nat) : Nat := 16 * (cellBlock g).2

/-- TM by GROUP_LOG2 (R248). -/
def tileM (g : Nat) : Nat := 8 * (cellBlock g).1

/-- The configuration that a block spells, if it is valid (R246, R247). -/
def parseCfg (b : List W64) : Option TnCfg :=
  let c0 := word b 0
  let fa := bits c0 3 0
  let fb := bits c0 7 4
  let g := bits c0 10 8
  let out := bits c0 15 12
  let act := bits c0 22 20
  let stride := bits c0 43 32 * 64
  let alpha := bits (word b 1) 31 0
  let lo := bits (word b 2) 31 0
  let hi := bits (word b 2) 63 32
  match fmtGroup fa, fmtGroup fb, outSize out with
  | some x, some y, some sz =>
    if nonZero c0 63 44 || nonZero c0 31 24 || nonZero c0 11 11 || nonZero (word b 1) 63 32 || word b 3 != 0 || x != y || g > 4
        || act > 5 || stride < tileN g * sz || (act == 2 && ofBits32 alpha == .nan)
        || (act == 3 && (ofBits32 lo == .nan || ofBits32 hi == .nan || (ofBits32 hi).lt (ofBits32 lo))) then none
    else
      some ⟨fa, fb, g, out, bitAt c0 16, bitAt c0 17, bitAt c0 18, bitAt c0 19, act, bitAt c0 23, stride, alpha, lo, hi,
        wordsToBytes ((b.drop 4).take 4)⟩
  | _, _, _ => none

/-- The valid configuration of an engine; none while it is invalid or UNSET. -/
def Engine.cfg (e : Engine) : Option TnCfg := e.block.bind parseCfg

/-- S8 and U8 accumulate in int32 (R245). -/
def TnCfg.isInt (c : TnCfg) : Bool := c.fmtA ≥ 8

/-- G (R248). -/
def TnCfg.g (c : TnCfg) : Nat := 2 ^ c.groupLog2
/-- TM. -/
def TnCfg.tm (c : TnCfg) : Nat := tileM c.groupLog2
/-- TN. -/
def TnCfg.tn (c : TnCfg) : Nat := tileN c.groupLog2
/-- kd. -/
def TnCfg.kd (c : TnCfg) : Nat := kdOf c.fmtA

/-- A tn.mmac works in compensated pairs (R250). -/
def TnCfg.pairs (c : TnCfg) (comp : Bool) : Bool := comp && !c.isInt && c.groupLog2 ≥ 1

/-- H (R250): slices of a sweep. -/
def TnCfg.h (c : TnCfg) (comp : Bool) : Nat := if c.pairs comp then c.g / 2 else c.g

/-- Output (i, j) of output number `o` in a cell (R249). -/
def TnCfg.place (c : TnCfg) (cell o : Nat) : Nat × Nat :=
  let (br, bc) := cellBlock c.groupLog2
  (cell / 16 * br + o / bc, cell % 16 * bc + o % bc)

/-! ## Panels (R251) -/

/-- Size of the local store. -/
def localSize : Nat := 2 ^ 21

/-- One byte of the local store, addresses taken modulo 2 MiB (R251). -/
def tnByte (m : Mem) (a : Nat) : Nat := (m.read (a % localSize)).toNat

/-- A little-endian number of `n` bytes at an address modulo 2 MiB. -/
def tnNum (m : Mem) (a : Nat) : Nat → Nat
  | 0 => 0
  | n + 1 => tnByte m a + 256 * tnNum m (a + 1) n

/-- The raw element number `k` of a panel. -/
def rawElem (m : Mem) (base fmt k : Nat) : Nat :=
  match nibblesOf fmt with
  | 1 => tnByte m (base + k / 2) / 16 ^ (k % 2) % 16
  | n => tnNum m (base + k * (n / 2)) (n / 2)

/-- The exact value of a raw element without its scale (R245). -/
def elemValue (fmt raw : Nat) : Fp :=
  match fmt with
  | 8 => .num (raw ≥ 128) (if raw ≥ 128 then 256 - raw else raw) 0
  | 9 => .num false raw 0
  | f => (fltFmt f).decode raw

/-- An E8M0 scale (R245). -/
def scaleValue (b : Nat) : Fp := if b = 255 then .nan else .num false 1 ((b : Int) - 127)

/-- Values of a panel's rows that one scale covers: S_p (R251). -/
def scalesPer (n : Nat) : Nat := Nat.max 1 (n / 32)

/-- A value with the E8M0 scale at an address, where the format has scales. -/
def withScale (m : Mem) (fmt a : Nat) (x : Fp) : Fp := if isMx fmt then x.mul (scaleValue (tnByte m a)) else x

/-- A(i, kk) of a sweep whose A panel lies at `base` (R251). -/
def TnCfg.elemA (c : TnCfg) (comp : Bool) (m : Mem) (base i kk : Nat) : Fp :=
  let n := c.h comp * c.kd
  withScale m c.fmtA (base + c.tm * n * nibblesOf c.fmtA / 2 + i * scalesPer n + kk / 32)
    (elemValue c.fmtA (rawElem m base c.fmtA (i * n + kk)))

/-- B(kk, j) of a sweep whose B panel lies at `base` (R251). -/
def TnCfg.elemB (c : TnCfg) (comp : Bool) (m : Mem) (base kk j : Nat) : Fp :=
  let n := c.h comp * c.kd
  withScale m c.fmtB (base + n * c.tn * nibblesOf c.fmtB / 2 + kk / 32 * c.tn + j)
    (elemValue c.fmtB (rawElem m base c.fmtB (kk * c.tn + j)))

/-- Rounded up to a multiple of 64. -/
def up64 (n : Nat) : Nat := ceilDiv n 64 * 64

/-- Size of an A panel. -/
def TnCfg.sizeA (c : TnCfg) (comp : Bool) : Nat :=
  let n := c.h comp * c.kd
  up64 (c.tm * n * nibblesOf c.fmtA / 2 + if isMx c.fmtA then c.tm * scalesPer n else 0)

/-- Size of a B panel. -/
def TnCfg.sizeB (c : TnCfg) (comp : Bool) : Nat :=
  let n := c.h comp * c.kd
  up64 (n * c.tn * nibblesOf c.fmtB / 2 + if isMx c.fmtB then scalesPer n * c.tn else 0)

/-! ## Product steps (R250 to R253) -/

/-- The register that a step visits in every cell (the lower one of a pair), its output number and its slice (R250). -/
def TnCfg.visit (c : TnCfg) (comp : Bool) (p : Nat) : Nat × Nat × Nat :=
  if c.pairs comp then (p / 2 * 2, p / 2 / c.h comp, p / 2 % c.h comp) else (p, p / c.g, p % c.g)

/-- The products of one step in one cell. -/
def TnCfg.products (c : TnCfg) (comp : Bool) (m : Mem) (pa pb p cell : Nat) : Nat × List Fp :=
  let (r, o, b) := c.visit comp p
  let (i, j) := c.place cell o
  (cell * 16 + r,
   (List.range c.kd).map (fun k => (c.elemA comp m pa i (b * c.kd + k)).mul (c.elemB comp m pb (b * c.kd + k) j)))

/-- How far P advances in a step (R250). -/
def TnCfg.advance (c : TnCfg) (comp : Bool) : Nat := if c.pairs comp then 2 else 1

/-- What the next step of a run reads (R251), as addresses and lengths: the elements it uses and their scales. -/
def MmaRun.reads (r : MmaRun) : List (Nat × Nat) :=
  let c := r.cfg
  let pos := r.p0 + r.next * c.advance r.comp
  let pa := r.ra + pos / 16 * c.sizeA r.comp
  let pb := r.rb + pos / 16 * c.sizeB r.comp
  let n := c.h r.comp * c.kd
  let (_, o, b) := c.visit r.comp (pos % 16)
  let rows := (List.range 8).map (fun x => (c.place (16 * x) o).1)
  let cols := (List.range 16).map (fun x => (c.place x o).2)
  let ks := (List.range c.kd).map (fun k => b * c.kd + k)
  ks.flatMap (fun k =>
    rows.flatMap (fun i => ((pa + (i * n + k) * nibblesOf c.fmtA / 2, ceilDiv (nibblesOf c.fmtA) 2) ::
      if isMx c.fmtA then [(pa + c.tm * n * nibblesOf c.fmtA / 2 + i * scalesPer n + k / 32, 1)] else [])) ++
    cols.flatMap (fun j => ((pb + (k * c.tn + j) * nibblesOf c.fmtB / 2, ceilDiv (nibblesOf c.fmtB) 2) ::
      if isMx c.fmtB then [(pb + n * c.tn * nibblesOf c.fmtB / 2 + k / 32 * c.tn + j, 1)] else [])))

/-- The next step of a run reads SRAM of the part that jobs hold. -/
def MmaRun.touchesSram (r : MmaRun) : Bool := r.reads.any (fun e => jobSram .core (e.1 % localSize) e.2)

/-- The first free value of the next step's sums, where the part defines none of them: under a mix of step kinds (R250), or where the step reads
SRAM that a job holds (R224). -/
def MmaRun.junkNow (r : MmaRun) : Option Nat :=
  match r.held with
  | some h =>
    if h.covers (r.start + r.next * r.pace) && r.touchesSram then some (h.free + r.next * 2048)
    else r.junk.map (fun n => n + r.next * 2048)
  | none => r.junk.map (fun n => n + r.next * 2048)

/-- Make the next step of a run: its products enter the adder tree. -/
def MmaRun.step (r : MmaRun) (m : Mem) : TreeStep :=
  let pos := r.p0 + r.next * r.cfg.advance r.comp
  let pa := r.ra + pos / 16 * r.cfg.sizeA r.comp
  let pb := r.rb + pos / 16 * r.cfg.sizeB r.comp
  { land := r.start + r.next * r.pace + (if r.comp then 15 else 12), comp := r.cfg.pairs r.comp, int := r.cfg.isInt
    sums := (List.range 128).map (r.cfg.products r.comp m pa pb (pos % 16)), junk := r.junkNow }

/-- An accumulator's bits. -/
def Engine.reg (e : Engine) (i : Nat) : Nat := (Table.get? e.acc i).getD 0

/-- Set an accumulator's bits; a register that holds 0 is not listed. -/
def Engine.setReg (e : Engine) (i v : Nat) : Engine :=
  { e with acc := if v = 0 then Table.del e.acc i else Table.put e.acc i v }

/-- An exact integer modulo 2^32. -/
def int32 (x : Int) : Nat := (x % 2 ^ 32).toNat

/-- The sum of one register (or pair) with its products (R252, R253). -/
def Engine.addProducts (e : Engine) (comp int : Bool) (t : Nat × List Fp) : Engine :=
  let (i, ps) := t
  if int then e.setReg i (int32 ((e.reg i : Int) + ps.foldl (fun a x => a + x.scaled 0) 0))
  else
    let total := fpSum (ofBits32 (e.reg i) :: ps)
    let s := total.rne
    let e := e.setReg i s.bits32
    if !comp then e
    else
      match s with
      | .num _ _ _ =>
        let err := (fpSum [total, s.neg]).rne
        e.setReg (i + 1) ((ofBits32 (e.reg (i + 1))).add err).bits32
      | _ => e.setReg (i + 1) 0

/-- A register (or pair) takes free values instead of a sum that the part does not define. -/
def Engine.addJunk (e : Engine) (comp : Bool) (free i : Nat) : Engine :=
  let e := e.setReg i (Config.freeValue (free + i) % 2 ^ 32)
  if comp then e.setReg (i + 1) (Config.freeValue (free + i + 1) % 2 ^ 32) else e

/-- The sums of a step reach the registers. -/
def Engine.landStep (e : Engine) (t : TreeStep) : Engine :=
  match t.junk with
  | some n => t.sums.foldl (fun e x => e.addJunk t.comp n x.1) e
  | none => t.sums.foldl (fun e x => e.addProducts t.comp t.int x) e

/-- Every sum due by a cycle reaches its register. -/
def Engine.landTree (e : Engine) (c : Nat) : Engine :=
  (e.tree.filter (fun t => t.land ≤ c)).foldl Engine.landStep { e with tree := e.tree.filter (fun t => c < t.land) }

/-! ## Activations (R257, R258) -/

/-- A table activation: node values at lo + i × h ÷ 2 for lo = −128 × h, with h = 2^(−n). -/
def tableAct (nodes : List Nat) (n : Nat) (y : Fp) : Fp :=
  let h : Int := -(n : Int)
  let lo : Fp := .num true 128 h
  let hi : Fp := .num false 128 h
  if y.lt lo then .zero
  else if !y.lt hi then y
  else
    let s := ((y.mul (.num false 1 n)).floor + 128).toNat
    let f (i : Nat) : Fp := ofBits32 (nodes.getD (2 * s + i) 0)
    let k (neg : Bool) (v : Nat) (x : Fp) : Fp := x.mul (.num neg v 0)
    let c1 := (fpSum [k true 3 (f 0), k false 4 (f 1), k true 1 (f 2)]).rne
    let c2 := (fpSum [k false 2 (f 0), k true 4 (f 1), k false 2 (f 2)]).rne
    let xs : Fp := .num (s < 128) ((s : Int) - 128).natAbs h
    let t := ((fpSum [y, xs.neg]).rne).mul (.num false 1 n)
    let u := (fpSum [c2.mul t, c1]).rne
    (fpSum [u.mul t, f 0]).rne

/-- An activation (R257). -/
def TnCfg.activate (c : TnCfg) (y : Fp) : Fp :=
  if y = .nan then .nan
  else
    match c.act with
    | 0 => y
    | 1 => if Fp.zero.lt y then y else .zero
    | 2 => if y.lt .zero then ((ofBits32 c.alpha).mul y).rne else y
    | 3 =>
      let y := if y.lt (ofBits32 c.lo) then ofBits32 c.lo else y
      if (ofBits32 c.hi).lt y then ofBits32 c.hi else y
    | 4 => tableAct geluNodes 4 y
    | _ => tableAct siluNodes 3 y

/-! ## Preload, reset and drain (R254 to R256, R259, R260) -/

/-- Every accumulator +0 and P 0 (tn.zero). -/
def Engine.zeroAcc (e : Engine) : Engine := { e with acc := [], p := 0, stepKind := none, mixed := false }

/-- One register of tn.pre (R254): `add` for the ADD modes. -/
def Engine.preReg (e : Engine) (int add : Bool) (i v : Nat) : Engine :=
  if !add then e.setReg i v
  else if int then e.setReg i ((e.reg i + v) % 2 ^ 32)
  else e.setReg i ((ofBits32 (e.reg i)).add (ofBits32 v)).bits32

/-- tn.pre under a valid configuration (R254). -/
def Engine.preload (e : Engine) (c : TnCfg) (m : Mem) (ra mode : Nat) : Engine :=
  let add := mode ≥ 3
  let e := if add then e else { e with acc := [] }
  let outs := (List.range 128).flatMap (fun cell => (List.range (16 / c.g)).map (fun o => (cell, o)))
  let e := outs.foldl (fun e x =>
    let (i, j) := c.place x.1 x.2
    let off := if mode % 2 = 1 then (i * c.tn + j) * 4 else 4 * j
    e.preReg c.isInt add (x.1 * 16 + x.2 * c.g) (tnNum m (ra + off) 4)) e
  { e with p := 0, stepKind := none, mixed := false }

/-- Sum adjacent pairs. -/
def pairSum {α : Type} (f : α → α → α) : List α → List α
  | a :: b :: r => f a b :: pairSum f r
  | l => l

/-- The pairwise tree of `n` levels (R256). -/
def treeSum {α : Type} (f : α → α → α) : Nat → List α → List α
  | 0, l => l
  | n + 1, l => treeSum f n (pairSum f l)

/-- The group sum of an output as an fp32 value (R256 steps 1 and 2). -/
def Engine.groupSum (e : Engine) (c : TnCfg) (cell o : Nat) : Fp :=
  let rs := (List.range c.g).map (fun b => e.reg (cell * 16 + o * c.g + b))
  if c.isInt then
    let v := (treeSum (fun a b => (a + b) % 2 ^ 32) c.groupLog2 rs).headD 0
    (Fp.num (v ≥ 2 ^ 31) (if v ≥ 2 ^ 31 then 2 ^ 32 - v else v) 0).rne
  else (treeSum Fp.add c.groupLog2 (rs.map ofBits32)).headD .zero

/-- The number ρ of output element `n` (R260). -/
def roundRho (seed : List Byte) (stream dcount n : Nat) : Nat :=
  let b := ctrBlocks (aesKeys seed) 0 128 1 ((stream * 2 ^ 64 + dcount * 512 + n / 4) % 2 ^ 128)
  leNat ((b.drop (4 * (n % 4))).take 3)

/-- The bytes of one output (R256 steps 3 to 6). -/
def Engine.output (e : Engine) (c : TnCfg) (m : Mem) (ra rb cell o : Nat) : List Byte :=
  let (i, j) := c.place cell o
  let y := e.groupSum c cell o
  let y := if c.useScale then (y.mul (ofBits32 (tnNum m (ra + 4 * j) 4))).rne else y
  let y := if c.useBias then y.add (ofBits32 (tnNum m (rb + 4 * j) 4)) else y
  let y := c.activate y
  let rho := if c.stochastic then roundRho c.seed e.stream e.dcount (i * c.tn + j) else 0
  let v :=
    if c.outFmt = 8 then (if c.stochastic then toS8Stochastic rho y else toS8 y)
    else if c.stochastic then (fltFmt c.outFmt).convertStochastic c.sat rho y
    else (fltFmt c.outFmt).convert c.sat y
  leBytes ((outSize c.outFmt).getD 1) v

/-- The vectors that a drain reads for a column (R256). -/
def DrainRun.vectors (d : DrainRun) (j : Nat) : List Nat :=
  (if d.cfg.useScale then [d.ra + 4 * j] else []) ++ (if d.cfg.useBias then [d.rb + 4 * j] else [])

/-- A drain reads SRAM of the part that jobs hold. -/
def DrainRun.readsSram (d : DrainRun) : Bool := (List.range d.cfg.tn).any (fun j => (d.vectors j).any (fun a => jobSram .core a 4))

/-- The address of an output of a drain (R256). -/
def DrainRun.target (d : DrainRun) (i j : Nat) : Nat := (d.rd + i * d.cfg.stride + j * (outSize d.cfg.outFmt).getD 1) % localSize

/-- A drain writes SRAM of the part that jobs hold. -/
def DrainRun.writesSram (d : DrainRun) : Bool :=
  (List.range d.cfg.tm).any (fun i => (List.range d.cfg.tn).any (fun j =>
    jobSram .core (d.target i j) ((outSize d.cfg.outFmt).getD 1)))

/-- The bytes that a drain writes for an output: those of R256, or free values where it reads what a job holds. -/
def DrainRun.bytes (d : DrainRun) (e : Engine) (m : Mem) (cell o : Nat) : List Byte :=
  match d.junk with
  | some n =>
    if (d.vectors (d.cfg.place cell o).2).any (fun a => jobSram .core a 4) then
      freeBytes (n + 16 * (cell * 16 + o)) ((outSize d.cfg.outFmt).getD 1)
    else e.output d.cfg m d.ra d.rb cell o
  | none => e.output d.cfg m d.ra d.rb cell o

/-- A drain at its start (R256): the writes of its outputs, which stand at the end of its 64 cycles, and the engine after
it. -/
def Engine.runDrain (e : Engine) (d : DrainRun) (m : Mem) : Engine × List PendingWrite :=
  let c := d.cfg
  let outs := (List.range 128).flatMap (fun cell => (List.range (16 / c.g)).map (fun o => (cell, o)))
  let ws := outs.map (fun x =>
    let (i, j) := c.place x.1 x.2
    (⟨d.start + 64, 2, .core, d.target i j, d.bytes e m x.1 x.2⟩ : PendingWrite))
  let e := { e with dcount := (e.dcount + 1) % 2 ^ 32, drain := none }
  (if c.drainClear then e.zeroAcc else e, ws)

end Sys2Proof.Machine
end

