-- ==== Sys2Proof/Machine/DrDesc.lean ====
section
/-! DEFINITION. The descriptor of a derailleur job (R223) and what a job loads in its first frame (R225, R308). -/

namespace Sys2Proof.Machine

open Sys2Proof.Machine.Crypto

/-! ## The descriptor (R223) -/

/-- A job descriptor: its sixteen words. -/
abbrev Desc := List W64

/-- KIND. -/
def Desc.kind (d : Desc) : Nat := bits (word d 0) 3 0
/-- CT_PRIMES. -/
def Desc.ctPrimes (d : Desc) : Nat := bits (word d 0) 55 48
/-- SP_PRIMES. -/
def Desc.spPrimes (d : Desc) : Nat := bits (word d 0) 47 43
/-- LOG_N. -/
def Desc.logN (d : Desc) : Nat := bits (word d 0) 42 38
/-- N. -/
def Desc.n (d : Desc) : Nat := 2 ^ Desc.logN d
/-- LEVEL. -/
def Desc.level (d : Desc) : Nat := bits (word d 0) 37 32
/-- TICKET. -/
def Desc.ticket (d : Desc) : Nat := bits (word d 0) 30 24
/-- MASK_BITS. -/
def Desc.maskBits (d : Desc) : Nat := bits (word d 0) 22 16
/-- A partition address of the descriptor. -/
def Desc.addr (d : Desc) (i : Nat) : Nat := bits (word d i) 38 0
/-- DST_SCALE and IN_SCALE, as their 16 bits. -/
def Desc.dstScale (d : Desc) : Nat := bits (word d 10) 63 48
/-- IN_SCALE. -/
def Desc.inScale (d : Desc) : Nat := bits (word d 10) 47 32
/-- BR_BASIS. -/
def Desc.brBasis (d : Desc) : Nat := bits (word d 14) 22 0

/-- Words of a descriptor are zero. -/
def zeroWords (d : Desc) (is : List Nat) : Bool := is.all (fun i => word d i == 0)

/-- The reserved fields of the descriptor. -/
def Desc.reserved (d : Desc) : Bool :=
  nonZero (word d 0) 63 56 || nonZero (word d 0) 31 31 || nonZero (word d 0) 23 23 || nonZero (word d 0) 15 15
    || nonZero (word d 0) 7 4 || (List.range 5).any (fun i => nonZero (word d (i + 1)) 63 39) || nonZero (word d 10) 31 23
    || nonZero (word d 11) 15 6 || nonZero (word d 14) 63 59 || nonZero (word d 14) 47 23

/-- A position field k of two words of four (R223). -/
def Desc.pos (d : Desc) (first k : Nat) : Nat := bits (word d (first + k / 4)) (16 * (k % 4) + 15) (16 * (k % 4))

/-- Bytes of an object at a level with two polynomials (R185). -/
def objBytes (n level : Nat) : Nat := 4096 + 16 * n * (level + 1)

/-- BC_LWE (R225). -/
def bcLwe (n : Nat) : Nat := ceilDiv (1539 * n) 8184

/-- BC_BLIND (R225). -/
def bcBlind (n k : Nat) : Nat := ceilDiv (67108864 + 24 * (1 + k) * n) 8184

/-- BODY_LENGTH of a refresh message (R235). -/
def Desc.bodyLength (d : Desc) (level : Nat) : Nat := objBytes d.n level

/-- The ranges of partition memory that a job reads or writes, as (address, bytes, alignment). -/
def Desc.ranges (d : Desc) : List (Nat × Nat × Nat) :=
  (d.addr 1, 5184, 4096) ::
    match d.kind with
    | 0 =>
      [(d.addr 2, objBytes d.n 0, 4096), (d.addr 3, objBytes d.n 0, 4096), (d.addr 4, 65536 * bcLwe d.n, 4096),
       (d.addr 5, 65536 * bcBlind d.n d.spPrimes, 4096)]
    | 1 =>
      [(d.addr 2, objBytes d.n d.level, 4096), (d.addr 3, 80 + d.bodyLength d.level, 64),
       (d.addr 4, objBytes d.n (d.ctPrimes - 1), 4096)]
    | 2 =>
      [(d.addr 2, 80 + d.bodyLength (d.ctPrimes - 1), 64), (d.addr 3, objBytes d.n (d.ctPrimes - 1), 4096)]
    | _ => []

/-- A field of the descriptor is out of range or non-zero where its kind does not use it (R223), without what the key set's
scheme decides. -/
def Desc.fieldsBad (d : Desc) : Bool :=
  let common := d.reserved || d.ctPrimes < 1 || d.ctPrimes > 64 || d.spPrimes > 16 || d.logN < 14 || d.logN > 16
  let w0 := word d 0
  common ||
    match d.kind with
    | 0 =>
      d.spPrimes < 1 || d.level != 0 || d.ticket != 0 || d.maskBits != 0 || bits w0 11 8 < 8 || bits w0 11 8 > 12
        || (List.range 8).any (fun k => d.pos 6 k ≥ d.n || d.pos 8 k ≥ d.n)
        || bits (word d 10) 22 0 % 64 != 0 || bits (word d 10) 22 0 ≥ 0x200000 || d.brBasis % 64 != 0 || d.brBasis ≥ 0x200000
        || !zeroWords d [11, 12, 13] || nonZero (word d 14) 58 48
    | 1 =>
      d.level ≥ d.ctPrimes || nonZero w0 14 8 || !zeroWords d [5, 6, 7, 8, 9] || d.dstScale != 0
        || nonZero (word d 10) 22 0 || bits (word d 13) 31 0 < 1 || bits (word d 13) 31 0 > 600000 || d.brBasis != 0
    | 2 =>
      d.level != 0 || d.maskBits != 0 || nonZero w0 14 8 || !zeroWords d [4, 5, 6, 7, 8, 9, 11, 12, 13, 14]
        || d.inScale != 0 || nonZero (word d 10) 22 0
    | _ => true

/-! ## The first frame (R224, R225, R308) -/

/-- A job runs at some cycle from `t` to `u`. -/
def DrJob.spans (j : DrJob) (t u : Nat) : Bool := j.begins ≤ u && t < j.ends

/-- TABLE of a LOOKUP. -/
def Desc.table (d : Desc) : Nat := bits (word d 10) 22 0
/-- E of a LOOKUP. -/
def Desc.tableSize (d : Desc) : Nat := 2 ^ bits (word d 0) 11 8

/-- Row 2 of R227: a page of the job is owned. -/
def State.rowOwned (s : State) (p : Fin 16) (d : Desc) : Bool := (Desc.ranges d).any (fun x => s.ownedRange p x.1 x.2.1)

/-- A cluster's instance cannot serve a BLIND (R305, R308): its bank is retired without a spare, or its reseed buffer is not full. -/
def State.blindRng (s : State) (p : Fin 16) (c : Fin 32) : Option Status :=
  if (s.bankOf p).all (fun b => (s.banks[b]).stateCode == 4) then some .rngFailed
  else if (s.clusters[c]).reseedBuf.length < 6 then some .rngNotReady
  else none

/-- A result of a core that is still to become visible falls into the SRAM of a job while it runs (R224). -/
def PendingWrite.within (w : PendingWrite) (j : DrJob) : Bool := j.spans w.at' w.at' && jobSram w.space w.addr w.data.length

/-- A move to DRAM has not read all of its source. -/
def Move.unread (m : Move) : Bool := m.store && m.units < 16 * m.pages.length

/-- Some 256 bytes that a move reads while a job runs lie in SRAM that the job holds. -/
def Move.readsInto (m : Move) (j : DrJob) : Bool :=
  m.store && (List.range (16 * m.pages.length)).any (fun u =>
    m.units ≤ u && j.spans (m.issue + u) (m.issue + u) && jobSram m.space ((m.pages.getD (u / 16) (0, 0)).1 + u % 16 * 256) 256)

/-- A product step that a run makes while a job runs reads SRAM that the job holds. -/
def MmaRun.readsInto (r : MmaRun) (j : DrJob) : Bool :=
  (List.range r.rep).any (fun n =>
    r.next ≤ n && j.spans (r.start + n * r.pace) (r.start + n * r.pace) && { r with next := n }.touchesSram)

/-- A drain that starts or ends while a job runs reads or writes SRAM that the job holds. -/
def DrainRun.reachesInto (d : DrainRun) (j : DrJob) : Bool :=
  (j.spans d.start d.start && d.readsSram) || (j.spans (d.start + 64) (d.start + 64) && d.writesSram)

/-- Accesses that began before a job and reach the SRAM it holds while it runs: results still to become visible, moves to DRAM that have
not read all of their source, product steps still to be made, and a drain still to start. -/
def Cluster.strayInto (x : Cluster) (j : DrJob) : Bool :=
  x.sharedPending.any (fun w => w.within j) || x.cores.any (fun k =>
    k.pending.any (fun w => w.within j) || k.moves.any (fun m => m.readsInto j) || k.eng.mma.any (fun r => r.readsInto j)
      || k.eng.drain.any (fun d => d.reachesInto j))

/-- What a core has under way finds undefined data in the SRAM that a job holds, from a free value on; the number of the next free value. -/
def Core.holdFor (j : DrJob) (x : Core) (free : Nat) : Core × Nat :=
  let ms := x.moves.zipIdx.map (fun e =>
    if e.1.unread then { e.1 with held := some ⟨j.begins, j.ends, free + 32768 * e.2⟩ } else e.1)
  let free := free + 32768 * x.moves.length
  let mma := x.eng.mma.map (fun r => { r with held := some ⟨j.begins, j.ends, free⟩ })
  let free := free + (x.eng.mma.elim 0 MmaRun.rep) * 2048
  let drain := x.eng.drain.map (fun d => if j.spans d.start d.start then { d with junk := some free } else d)
  ({ x with moves := ms, eng := { x.eng with mma := mma, drain := drain } }, free + 32768)

/-- A job meets what its cluster's cores have under way (R224): they find undefined data, and where they reach the SRAM it holds, its own result
is undefined. -/
def State.holdSram (s : State) (c : Fin 32) (j : DrJob) : State :=
  let hit := (s.clusters[c]).strayInto j
  let s := s.modCluster c (fun x =>
    { x with der := { x.der with jobs := x.der.jobs.map (fun k =>
        if k.begins = j.begins then { k with spoiled := k.spoiled || hit } else k) } })
  (List.finRange 8).foldl (fun s k =>
    let (x, free) := (s.clusters[c]).cores[k].holdFor j s.free
    { s.modCluster c (fun y => { y with cores := y.cores.set k x }) with free := free }) s

/-- K_ref (R235). -/
def State.refreshKey (s : State) (p : Fin 16) (fp : List Byte) : List Byte :=
  hkdf sha256Kind ((s.keyAt (partSlot p 0)).getD []) fp (ascii "skv9032 refresh") 32

/-- The keystream engines of a BLIND or an UNBLIND take a masked copy of K_ref (R312), under the mask of the tenant session key that it comes from
(DESIGN CHOICE: the manual names no mask; log 150). -/
def State.loadJobKey (s : State) (p : Fin 16) (c : Fin 32) (fp : List Byte) : State :=
  let key := s.refreshKey p fp
  { s with pannier := Table.modify s.pannier (partSlot p 0) (fun k =>
      { k with copies := k.copies ++ [(.keystream c.val, xorBytes key k.shareB, k.shareB)] }) }

/-- The copy is gone with its job. -/
def State.dropJobKey (s : State) (p : Fin 16) (c : Fin 32) : State :=
  { s with pannier := Table.modify s.pannier (partSlot p 0) (fun k =>
      { k with copies := k.copies.filter (fun e => e.1 != .keystream c.val) }) }

/-- K_ref as the engines of a job compute it from their copy. -/
def State.jobKey (s : State) (p : Fin 16) (c : Fin 32) (fp : List Byte) : List Byte :=
  (s.engineKey (partSlot p 0) (.keystream c.val)).getD (s.refreshKey p fp)

/-- The first frame of a job (R225): it loads the parameter set, the headers, the constants and the table, and finds which of its pages are
owned and how its ticket stands. A BLIND consumes the reseed buffer of its cluster's instance (R307, R308), and it and an UNBLIND take the key of refresh
messages (R312). -/
def State.loadJob (s : State) (p : Fin 16) (c : Fin 32) (j : DrJob) : State :=
  let d : Desc := j.desc
  let x := s.clusters[c]
  let m := (s.parts[p]).dram
  let l : JobLoad :=
    { pset := m.readN (d.addr 1) 5184, inHdr := m.readN (d.addr 2) 64, outHdr := m.readN (d.addr 3) 64, keyHdr := m.readN (d.addr 4) 32
      br := x.shared.readN d.brBasis 128, table := x.shared.readN d.table (4 * d.tableSize), owned := s.rowOwned p d
      ticket := (Table.get? x.der.tickets d.ticket).getD Ticket.zero, rng := s.blindRng p c }
  let s := if d.kind = 1 || d.kind = 2 then s.loadJobKey p c ((l.pset.drop 8).take 8) else s
  s.modCluster c (fun x =>
    { x with
      der := { x.der with jobs := x.der.jobs.map (fun k =>
        if k.begins = j.begins then { k with load := some l } else k) }
      reseedBuf := if d.kind = 1 then [] else x.reseedBuf
      drbg := if d.kind = 1 && x.reseedBuf.length ≥ 6 then x.drbg.reseed (wordsToBytes (x.reseedBuf.take 6)) else x.drbg })

end Sys2Proof.Machine
end

