-- ==== Sys2Proof/Machine/RingMath.lean ====
section
/-! DEFINITION. Arithmetic of the ring engine as functions on lists of residues (R168 to R178): the checks of a basis entry,
the transforms, the automorphism, and the pointwise operations. -/

namespace Sys2Proof.Machine

open Sys2Proof.Machine.Crypto

/-- The 64-bit words of a byte string, as numbers. -/
def wordNats (bs : List Byte) : List Nat := (chop 8 (bs.length / 8) bs).map leNat

/-- Bytes of 64-bit words given as numbers. -/
def natsBytes (ws : List Nat) : List Byte := (ws.map (leBytes 8)).flatten

/-- The `n` low bits of a number in reverse order (R177). -/
def brv : Nat → Nat → Nat
  | 0, _ => 0
  | n + 1, k => k % 2 * 2 ^ n + brv n (k / 2)

/-- The entry of eight words is acceptable (R171, R172). -/
def entryOk (w : List W64) : Bool :=
  let q := bits (word w 0) 60 0
  let psi := bits (word w 1) 60 0
  let l := bits (word w 2) 4 0
  !nonZero (word w 0) 63 61 && !nonZero (word w 1) 63 61 && !nonZero (word w 2) 63 5 && (w.drop 3).all (· == 0)
    && 2 ^ 20 < q && 11 ≤ l && l ≤ 16 && q % 2 ^ (l + 1) == 1 && 0 < psi && psi < q && powMod q 17 psi (2 ^ l) == q - 1

/-- The Barrett constant of a modulus of β bits: floor(2^(2β) ÷ Q) (R172). -/
def barrett (q : Nat) : Nat := 2 ^ (2 * (Nat.log2 q + 1)) / q

/-- N^(−1) modulo q for q ≡ 1 modulo N = 2^n. -/
def invN (q n : Nat) : Nat := (q - (q - 1) / 2 ^ n) % q

/-- The slot that an entry makes, with the constants that the cell derives (R172). The inverse of the root is its power 2^(LOGN_MAX + 1) − 1,
the root having that order. -/
def entrySlot (w : List W64) : BasisSlot :=
  let q := bits (word w 0) 60 0
  let psi := bits (word w 1) 60 0
  let l := bits (word w 2) 4 0
  if entryOk w then
    .valid q psi l (barrett q) (powMod q (l + 1) psi (2 ^ (l + 1) - 1)) ((List.range (l - 10)).map (fun i => invN q (11 + i)))
  else .rejected

/-- ψ_N of a slot's root (R177). -/
def psiFor (q psi logn n : Nat) : Nat := powMod q 17 psi (2 ^ (logn - n))

/-- Σ a[j] × x^j modulo q. -/
def horner (q x : Nat) (a : List Nat) : Nat := a.foldr (fun c acc => (acc * x + c) % q) 0

/-- The forward transform (R177): position k holds the value at ψ_N^(2 × brv(k) + 1). -/
def nttFwd (q psiN n : Nat) (a : List Nat) : List Nat :=
  (List.range (2 ^ n)).map (fun k => horner q (powMod q (n + 1) psiN (2 * brv n k + 1)) a)

/-- A list read through a map of positions. -/
def permuted (n : Nat) (f : Nat → Nat) (a : List Nat) : List Nat :=
  let v := a.toArray
  (List.range (2 ^ n)).map (fun k => v.getD (f k) 0)

/-- The inverse transform (R177), with ψ_N^(−x) = ψ_N^(2N − x). -/
def nttInv (q psiN n : Nat) (a : List Nat) : List Nat :=
  let b := permuted n (brv n) a
  let inv (x : Nat) : Nat := powMod q (n + 1) psiN ((2 * 2 ^ n - x % (2 * 2 ^ n)) % (2 * 2 ^ n))
  (List.range (2 ^ n)).map (fun j => invN q n * inv j % q * horner q (inv (2 * j)) b % q)

/-- The position that ring.auto reads for position k (R178). -/
def autoPos (n gal k : Nat) : Nat := brv n (gal * (2 * brv n k + 1) % (2 * 2 ^ n) / 2)

/-- floor(a × 2^32 ÷ q) added to a 64-bit word (R176). -/
def bceWord (q d a : Nat) : Nat := (d + a % q * 2 ^ 32 / q) % 2 ^ 64

/-- (a − b) mod q. -/
def subWord (q a b : Nat) : Nat := (a % q + (q - b % q)) % q

/-- Combine two vectors word by word. -/
def zip2 (f : Nat → Nat → Nat) (a b : List Nat) : List Nat := List.zipWith f a b

end Sys2Proof.Machine
end

