-- ==== Sys2Proof/Machine/CoreBase.lean ====
section
/-! DEFINITION. What every Aqcon instruction rests on: results that become visible at their cycles (R128), DRAM moves in the
order of their slots (R142), signals and views (R267, R271, R272), the cycle at which a bundle issues (R128, R143, R224), and
the issue of one instruction of a core's next bundle. -/

namespace Sys2Proof.Machine

/-! ## Access -/

/-- A core. -/
def State.core (s : State) (c : Fin 32) (k : Fin 8) : Core := (s.clusters[c]).cores[k]

/-- Change a core. -/
def State.modCore (s : State) (c : Fin 32) (k : Fin 8) (f : Core → Core) : State :=
  s.modCluster c (fun x => { x with cores := x.cores.set k (f x.cores[k]) })

/-- Change the engine of a core. -/
def State.modEng (s : State) (c : Fin 32) (k : Fin 8) (f : Engine → Engine) : State :=
  s.modCore c k (fun x => { x with eng := f x.eng })

/-- Change the running task. -/
def State.modRunning (s : State) (p : Fin 16) (f : Running → Running) : State :=
  s.modJob p (fun j => { j with running := j.running.map f })

/-- The clusters of a partition. -/
def Partition.clusterFins (q : Partition) : List (Fin 32) := q.clusterList.map (Fin.ofNat 32)

/-- All cores of a partition. -/
def Partition.coreList (q : Partition) : List (Fin 32 × Fin 8) :=
  q.clusterFins.flatMap (fun c => (List.finRange 8).map (fun k => (c, k)))

/-- The rank of a cluster in a partition (R123). -/
def Partition.rankOf (q : Partition) (c : Fin 32) : Nat := (q.clusterList.filter (fun d => d < c.val)).length

/-- The logical cluster of a rank. -/
def Partition.ofRank (q : Partition) (n : Nat) : Fin 32 := Fin.ofNat 32 (q.clusterList.getD n 0)

/-- Book engine occupancy or DRAM slots of the running task (R452). -/
def State.book (s : State) (p : Fin 16) (b : Booking) : State :=
  s.modRunning p (fun r => { r with booked := r.booked ++ [b] })

/-- Meter `n` occupancy cycles of an instruction class, or a DRAM slot, from a cycle on (R452). -/
def State.meter (s : State) (p : Fin 16) (coeff start n : Nat) : State := s.book p ⟨coeff, start, start + n, none⟩

/-! ## Trace records (R439) -/

/-- Append a trace record of a tenant task; the last 4,096 are kept. -/
def State.traceAt (s : State) (p : Fin 16) (cycle task kind cluster core bundle value : Nat) : State :=
  let t : TraceRec := ⟨w64 cycle, w64 (task * 2 ^ 48 + kind * 2 ^ 32 + cluster * 2 ^ 24 + core * 2 ^ 16 + bundle), w64 value,
    w64 s.nvm.life.seconds⟩
  s.modPart p (fun q =>
    let l := q.trace ++ [t]
    { q with trace := l.drop (l.length - 4096), traceCount := q.traceCount + 1 })

/-- The task ID of a running tenant task; 65,536 for a recovery task, which has none. -/
def Running.taskId (r : Running) : Nat :=
  match r.what with
  | .tenant t => t.id
  | .recovery _ => 65536

/-- The task ID of the partition's running task. -/
def State.runningId (s : State) (p : Fin 16) : Nat := ((s.parts[p]).job.running.map Running.taskId).getD 65536

/-! ## Results that become visible (R128, R251) -/

/-- Put a write into a list ordered by cycle, the lower slot first where two complete together (R128). -/
def insWrite (w : PendingWrite) : List PendingWrite → List PendingWrite
  | [] => [w]
  | x :: xs => if w.at' < x.at' || (w.at' == x.at' && w.slot < x.slot) then w :: x :: xs else x :: insWrite w xs

/-- Land the writes due by a cycle in a memory, and keep the others; the list is in order. -/
def landWrites (c : Nat) : Mem → List PendingWrite → Mem × List PendingWrite
  | m, [] => (m, [])
  | m, w :: ws => if w.at' ≤ c then landWrites c (m.writeN w.addr w.data) ws else (m, w :: ws)

/-- The move reads the next 256 bytes of its source: 16 × pages cycles read the pages of 4,096 bytes in order (R132; that every cycle reads as
much is DEDUCED). What a job holds in that cycle gives undefined data (R224). -/
def Move.readUnit (mem : Mem) (m : Move) : Move :=
  let a := (m.pages.getD (m.units / 16) (0, 0)).1 + m.units % 16 * 256
  let b := match m.held with
    | some h =>
      if h.covers (m.issue + m.units) && jobSram m.space a 256 then freeBytes (h.free + 256 * m.units) 256 else mem.readN a 256
    | none => mem.readN a 256
  { m with data := m.data ++ b, units := m.units + 1 }

/-- The cycle and the issue of the move of a core that reads next from a store, if it does so by a cycle. -/
def Core.nextRead (x : Core) (sp : Space) (c : Nat) : Option (Nat × Nat) :=
  (x.moves.find? (fun m => m.unread && decide (m.space = sp) && decide (m.issue + m.units ≤ c))).map (fun m => (m.issue + m.units, m.issue))

/-- One read by the move that issued at a cycle. -/
def Core.readMove (x : Core) (issue : Nat) (mem : Mem) : Core :=
  { x with moves := x.moves.map (fun m => if m.issue = issue && m.store then m.readUnit mem else m) }

/-- The reads of a core's moves from its local store by a cycle, each of the store as it is in its own cycle. -/
def Core.readSources (x : Core) (c : Nat) : Nat → Core
  | 0 => x
  | n + 1 =>
    match x.nextRead .core c with
    | none => x
    | some (t, i) =>
      let (m, ws) := landWrites t x.loc x.pending
      ({ x with loc := m, pending := ws }.readMove i m).readSources c n

/-- Land a core's writes due by a cycle. -/
def Core.land (x : Core) (c : Nat) : Core :=
  let x := x.readSources c 1024
  let (m, ws) := landWrites c x.loc x.pending
  { x with loc := m, pending := ws }

/-- Make the product steps whose cycle has come, at most `n` of them (R250): a step reads what was in the store before its
cycle, the first one what an instruction issued there reads. -/
def Core.runSteps (x : Core) (c : Nat) : Nat → Core
  | 0 => x
  | n + 1 =>
    match x.eng.mma with
    | none => x
    | some r =>
      let t := r.start + r.next * r.pace
      if r.rep ≤ r.next then { x with eng := { x.eng with mma := none } }
      else if c < t then x
      else
        let x := x.land (if r.next = 0 then t else t - 1)
        let e := x.eng
        ({ x with eng := { e with tree := e.tree ++ [r.step x.loc], mma := some { r with next := r.next + 1 } } }).runSteps c n

/-- Start the drain whose start has come (R135, R256). -/
def Core.startDrain (x : Core) (c : Nat) : Core :=
  match x.eng.drain with
  | none => x
  | some d =>
    if c < d.start then x
    else
      let x := x.land d.start
      let (e, ws) := (x.eng.landTree d.start).runDrain d x.loc
      { x with eng := e, pending := ws.foldl (fun l w => insWrite w l) x.pending }

/-- Bring a core's store and engine to a cycle. -/
def Core.settle (x : Core) (c : Nat) : Core :=
  let x := x.runSteps c 4096
  let x := x.startDrain c
  ({ x with eng := x.eng.landTree c }).land c

/-- The core of a cluster whose move reads next from the shared store by a cycle, with that cycle and the move's issue. -/
def Cluster.nextRead (x : Cluster) (c : Nat) : Option (Fin 8 × Nat × Nat) :=
  (List.finRange 8).foldl (fun best k =>
    match x.cores[k].nextRead .shared c, best with
    | none, b => b
    | some (t, i), none => some (k, t, i)
    | some (t, i), some (l, u, j) => if t < u then some (k, t, i) else some (l, u, j)) none

/-- The reads of moves from the shared store by a cycle, each of the store as it is in its own cycle. -/
def Cluster.readSources (x : Cluster) (c : Nat) : Nat → Cluster
  | 0 => x
  | n + 1 =>
    match x.nextRead c with
    | none => x
    | some (k, t, i) =>
      let (m, ws) := landWrites t x.shared x.sharedPending
      ({ x with shared := m, sharedPending := ws, cores := x.cores.set k (x.cores[k].readMove i m) }).readSources c n

/-- Bring a cluster's shared store to a cycle. -/
def Cluster.settleShared (x : Cluster) (c : Nat) : Cluster :=
  let x := x.readSources c 8192
  let (m, ws) := landWrites c x.shared x.sharedPending
  { x with shared := m, sharedPending := ws }

/-- A result of a core that becomes visible at a cycle. -/
def State.later (s : State) (c : Fin 32) (k : Fin 8) (w : PendingWrite) : State :=
  match w.space with
  | .core => s.modCore c k (fun x => { x with pending := insWrite w x.pending })
  | .shared => s.modCluster c (fun x => { x with sharedPending := insWrite w x.sharedPending })

/-! ## DRAM moves in slot order (R142) -/

/-- The cycle at which a move meets DRAM: a load reads in its slot, and a store is seen from 27 cycles after its slot. -/
def Move.event (m : Move) : Nat := if m.store then m.slot + 27 else m.slot

/-- The move is to be handled before another one. -/
def Move.before (m n : Move) : Bool := m.event < n.event || (m.event == n.event && m.store && !n.store)

/-- The first move of some cores whose moment with DRAM has come and not passed. -/
def State.firstMove (s : State) (t : Nat) (cs : List (Fin 32 × Fin 8)) : Option (Fin 32 × Fin 8 × Move) :=
  cs.foldl (fun best x =>
    (s.core x.1 x.2).moves.foldl (fun best m =>
      if m.passed || t < m.event then best
      else
        match best with
        | some (_, _, b) => if m.before b then some (x.1, x.2, m) else best
        | none => some (x.1, x.2, m)) best) none

/-- Mark a move as past its slot. -/
def Core.passMove (x : Core) (m : Move) : Core :=
  { x with moves := x.moves.map (fun n => if n.issue = m.issue && n.slot = m.slot then { n with passed := true } else n) }

/-- Read the rest of a move's source. -/
def Move.readRest (mem : Mem) (m : Move) : Nat → Move
  | 0 => m
  | n + 1 => if m.unread then (m.readUnit mem).readRest mem n else m

/-- The bytes that a move to DRAM writes. What it has not read of its source by the cycle from which DRAM holds its data, it reads then
(DESIGN CHOICE: R132 lets a long move read on and R142 lets others see the data). -/
def State.moveData (s : State) (c : Fin 32) (k : Fin 8) (m : Move) : List Byte × State :=
  let s := (s.modCore c k (fun x => x.settle m.event)).modCluster c (fun x => x.settleShared m.event)
  let now := ((s.core c k).moves.find? (fun n => n.issue = m.issue && n.slot = m.slot)).getD m
  let mem := match m.space with
    | .core => (s.core c k).loc
    | .shared => (s.clusters[c]).shared
  ((now.readRest mem 128).data, s)

/-- A move meets DRAM (R142). -/
def State.passMove (s : State) (p : Fin 16) (c : Fin 32) (k : Fin 8) (m : Move) : State :=
  if m.store then
    let (data, s) := s.moveData c k m
    let s := s.modCore c k (fun x => x.passMove m)
    (m.pages.zip (chop 4096 m.pages.length data)).foldl (fun s e => s.writePages p e.1.2 e.2) s
  else
    let data := m.pages.map (fun e => (s.parts[p]).dram.readN e.2 4096)
    let s := s.modCore c k (fun x => x.passMove m)
    (m.pages.zip data).foldl (fun s e => s.later c k ⟨m.done, 1, m.space, e.1.1, e.2⟩) s

/-- Every move of the partition whose moment has come by a cycle, in order. -/
def State.settleMoves (s : State) (p : Fin 16) (t : Nat) : Nat → State
  | 0 => s
  | n + 1 =>
    match s.firstMove t (s.parts[p]).coreList with
    | some (c, k, m) => (s.passMove p c k m).settleMoves p t n
    | none => s

/-- How many moves a partition has outstanding. -/
def State.moveCount (s : State) (p : Fin 16) : Nat :=
  ((s.parts[p]).coreList.map (fun x => (s.core x.1 x.2).moves.length)).foldl (· + ·) 0

/-! ## First frames of jobs (R225) -/

/-- The job of a partition that begins first of those that have begun by a cycle and have not loaded. -/
def State.nextLoad (s : State) (p : Fin 16) (t : Nat) : Option (Fin 32 × DrJob) :=
  (s.parts[p]).clusterFins.foldl (fun best c =>
    (s.clusters[c]).der.jobs.foldl (fun best j =>
      if j.load.isSome || t < j.begins || best.any (fun b => b.2.begins ≤ j.begins) then best else some (c, j)) best) none

/-- A job takes the SRAM of its cluster (R224): what the cluster's cores have read and written before its first cycle stands, and what they still
have under way meets the job. -/
def State.beginJob (s : State) (p : Fin 16) (c : Fin 32) (j : DrJob) : State :=
  let t := j.begins - 1
  let s := (List.finRange 8).foldl (fun s k => s.modCore c k (fun x => x.settle t)) (s.settleMoves p t (s.moveCount p))
  (s.modCluster c (fun x => x.settleShared t)).holdSram c j

/-- Jobs that have begun by a cycle load, each from the memory as it stands at its beginning. What reaches DRAM from outside lets them load
before it (`State.syncDram`). -/
def State.loadJobs (s : State) (p : Fin 16) (t : Nat) : Nat → State
  | 0 => s
  | n + 1 =>
    match s.nextLoad p t with
    | some (c, j) =>
      let s := s.beginJob p c j
      let s := (s.settleMoves p j.begins (s.moveCount p)).modCluster c (fun x => x.settleShared j.begins)
      (s.loadJob p c j).loadJobs p t n
    | none => s

/-- Moves and first frames of a partition up to a cycle. -/
def State.settleDram (s : State) (p : Fin 16) (t : Nat) : State :=
  let s := s.loadJobs p t 64
  s.settleMoves p t (s.moveCount p)

/-- The running task's moves and jobs have met DRAM up to now, or up to the cycle at which the task stops: what reads or writes it from outside
the task comes after them (R142, R225). -/
def State.syncDram (s : State) (p : Fin 16) : State :=
  match (s.parts[p]).job.running, s.taskCycle p with
  | some r, some t => s.settleDram p (r.stop.elim t (fun x => Nat.min t x.atCycle))
  | _, _ => s

/-! ## Signals and views (R267, R271, R272) -/

/-- A core of the partition waits on a counter. -/
def State.waitedFor (s : State) (p : Fin 16) (ctr : CtrRef) : Bool :=
  (s.parts[p]).coreList.any (fun x => match (s.core x.1 x.2).wait with
    | some (.counter r _ _ _) => r == ctr
    | _ => false)

/-- The cycle from which other clusters see a signal (R271, R272): the first tick 96 cycles after it is visible in its counter's own. One that
landed at the last tick before cycle 0 is kept as of cycle 0, and is seen 96 cycles after that tick. -/
def Transit.farAt (w : Transit) (r : Running) : Nat := r.tickAt (w.allAt + if w.src.noTask then 32 else 96)

/-- The signals that become visible by a cycle are added to their counters; those that no waiter can still ask about are
forgotten. -/
def State.settleSignals (s : State) (p : Fin 16) (t : Nat) : State :=
  let s := s.landSignals p t
  let old (w : Transit) : Bool :=
    w.landed && !s.waitedFor p w.ctr && ((s.parts[p]).job.running.all (fun r => w.farAt r ≤ t))
  let land (l : List Transit) : List Transit := l.map (fun w => if w.allAt ≤ t then { w with landed := true } else w)
  s.modJob p (fun j => { j with transit := (land j.transit).filter (fun w => !old w) })

/-- Bring a partition's counters to the present moment (R266). -/
def State.catchUp (s : State) (p : Fin 16) : State := s.settleSignals p ((s.taskCycle p).getD 0)

/-- A partition's counters and its DRAM as they stand now (R142, R225, R266). -/
def State.present (s : State) (p : Fin 16) : State := (s.catchUp p).syncDram p

/-- Wall time moves on to the first device tick of a partition's clusters after now, and its counters with it (R24, R289). -/
def State.toTick (s : State) (p : Fin 16) : State :=
  let t := match (s.parts[p]).job.running, s.taskCycle p with
    | some r, some t => r.clockOf (r.tickAfter t)
    | _, _ => s.strayTick p
  (s.advance t).catchUp p

/-- The cycle from which a core sees a signal (R271, R272). -/
def Transit.seenBy (w : Transit) (r : Running) (c : Fin 32) (k : Fin 8) : Nat :=
  if w.ctr.cluster != c.val then w.farAt r
  else if w.src.kind = 1 && w.src.cluster = c.val && w.src.core = k.val then w.ownAt
  else w.allAt

/-- The view of a counter that a core has at a cycle. -/
def State.viewAt (s : State) (p : Fin 16) (r : Running) (ctr : CtrRef) (c : Fin 32) (k : Fin 8) (t : Nat) : Nat :=
  let v := s.counter ctr
  let ws := (s.parts[p]).job.transit.filter (fun w => w.ctr == ctr)
  let sum (l : List Transit) : Nat := (l.map Transit.amount).foldl (· + ·) 0
  let total := v.value + sum (ws.filter (fun w => !w.landed)) - sum (ws.filter (fun w => t < w.seenBy r c k))
  (Nat.min total (2 ^ 64 - 1) + 2 ^ 64 - v.base) % 2 ^ 64

/-- The first cycle from `t` on at which a core's view of a counter is at or above a value, as far as signals are on their
way (R270, R272), with whether an external signal released it (R145). -/
def State.releaseAt (s : State) (p : Fin 16) (r : Running) (ctr : CtrRef) (c : Fin 32) (k : Fin 8) (expect t : Nat) :
    Option (Nat × Bool) :=
  let ws := (s.parts[p]).job.transit.filter (fun w => w.ctr == ctr)
  let moments := t :: (ws.map (fun w => w.seenBy r c k)).filter (fun n => t < n)
  let good := moments.filter (fun n => decide (expect ≤ s.viewAt p r ctr c k n))
  match good with
  | [] => none
  | g :: gs =>
    let n := gs.foldl Nat.min g
    some (n, ws.any (fun w => w.seenBy r c k == n && w.src.kind ≥ 4))

/-! ## The next bundle (R126, R128, R143, R224) -/

/-- The bundle at a position of the instruction store. -/
def Core.bundle (x : Core) : Nat := x.code.readLE (32 * x.ptr) 32

/-- The first cycle from `t` on at which the move queue is not full (R128, R132): it holds eight moves, each from its issue to its completion. -/
def Core.queueFree (x : Core) (t : Nat) : Nat :=
  match x.moves.filter (fun m => t < m.done) with
  | [] => t
  | m :: ms => if ms.length ≥ 7 then ms.foldl (fun n m => Nat.min n m.done) m.done else t

/-- Pass over empty bundles, each of which takes one cycle and waits, as every bundle does, while the move queue is full. -/
def Core.skip (x : Core) : Nat → Core
  | 0 => x
  | n + 1 =>
    if x.done = 0 && x.bundle = 0 then
      ({ x with ptr := (x.ptr + 1) % 8192, issueAt := x.queueFree x.issueAt + 1 }).skip n
    else x

/-- The next slot of the bundle whose instruction has not issued, from the highest bits down. -/
def Core.nextSlot (x : Core) : Option Nat := [4, 3, 2, 1, 0].find? (fun i => slotVal x.bundle i != 0 && !x.done.testBit i)

/-- The end of the job, if one holds the engines at a cycle (R224); the cycle itself otherwise. -/
def jobFree (jobs : List DrJob) (t : Nat) : Nat := jobs.foldl (fun t j => if j.begins ≤ t && t < j.ends then j.ends else t) t

/-- The first cycle from `t` on at which a fold instruction may issue (R143); `len` is its occupancy. -/
def foldSlot (k len t : Nat) : Nat :=
  if 11 * k ≤ t % frameCycles && t % frameCycles + len ≤ frameCycles then t else (t / frameCycles + 1) * frameCycles + 11 * k

/-- The least cycle from `t` on that the move queue and each engine of the bundle allow by themselves (R128, R132, R143, R224). A ctl.mode waits
until the ring engine is free before its change (DESIGN CHOICE: the manual does not say; log 127). -/
def Core.engineCycle (x : Core) (r : Running) (jobs : List DrJob) (t : Nat) : Nat :=
  let b := x.bundle
  let mode := slotClass 0 (slotVal b 0) = 7 && slotOp 0 (slotVal b 0) = 9
  let aux := slotClass 3 (slotVal b 3)
  let t := x.queueFree t
  let t := if slotVal b 2 != 0 || mode then jobFree jobs (Nat.max t x.eng.free) else t
  let t := if aux = 3 then foldSlot r.foldK (nfield (slotVal b 3) 40 28) (jobFree jobs (Nat.max t x.foldFree)) else t
  let t := if aux = 4 then jobFree jobs (Nat.max t x.ksFree) else t
  let t := if aux = 5 then (jobs.filter (fun j => t < j.begins)).foldl (fun t j => Nat.max t j.begins) (Nat.max t x.drFree) else t
  if slotVal b 1 = 0 then t else Nat.max t x.mvFree

/-- The issue cycle of the bundle at the pointer; none where it can never issue. -/
def Core.bundleCycle (x : Core) (r : Running) (jobs : List DrJob) : Nat → Nat → Option Nat
  | 0, _ => none
  | n + 1, t =>
    let t' := x.engineCycle r jobs t
    if t' = t then some t else x.bundleCycle r jobs n t'

/-! ## Issue -/

/-- An instruction at its issue: its partition, cluster and core, the running task, its cycle and its slot's value. -/
structure Issue where
  p : Fin 16
  c : Fin 32
  k : Fin 8
  r : Running
  t : Nat
  v : Nat

/-- The cycle limit of a running task (R159); none for no limit and for a recovery task. -/
def Running.limit (r : Running) : Option Nat :=
  match r.what with
  | .tenant t => if t.maxCycles = 0 then none else some (t.maxCycles * 65536)
  | .recovery _ => none

/-- The task has stopped by a cycle (R164, R166, R167). -/
def Running.stopped (r : Running) (t : Nat) : Bool := r.stop.any (fun x => x.atCycle ≤ t) || r.limit.any (fun n => n ≤ t)

/-- A scalar register (R122). -/
def Core.reg (x : Core) (i : Nat) : W64 := x.a.getD i 0

/-- Everything of a partition that shows at a cycle to an instruction of a core. -/
def State.settleFor (s : State) (p : Fin 16) (c : Fin 32) (k : Fin 8) (t : Nat) : State :=
  let s := (s.settleSignals p t).settleDram p t
  (s.modCore c k (fun x => x.settle t)).modCluster c (fun x => x.settleShared t)

/-- After an instruction has issued: a bundle whose instructions have all issued gives way to the next. -/
def Core.finishBundle (x : Core) : Core :=
  if x.nextSlot.isNone then { x with ptr := x.nextPtr, issueAt := x.nextAt, done := 0 } else x

/-- Issue the instruction that a row names (R126 to R128): it must be the next one of the core's next bundle, in a task that
has not stopped. Its bundle's cycle is fixed when its first instruction issues. Otherwise nothing happens. -/
def State.issue (s : State) (c : Fin 32) (k : Fin 8) (slot cls op : Nat) (run : Issue → State → State) : State :=
  match s.ownerOf c.val with
  | none => s
  | some p =>
    match (s.parts[p]).job.running with
    | none => s
    | some r =>
      let x := (s.core c k).skip 8192
      let v := slotVal x.bundle slot
      if !x.active || x.ended.isSome || (x.done = 0 && x.wait.isSome) || x.nextSlot != some slot
          || slotClass slot v != cls || slotOp slot v != op then s
      else
        match if x.done = 0 then x.bundleCycle r (s.clusters[c]).der.jobs 64 x.issueAt else some x.issueAt with
        | none => s
        | some t =>
          if r.stopped t then s
          else
            let x := if x.done = 0 then { x with issueAt := t, nextPtr := (x.ptr + 1) % 8192, nextAt := t + 1 } else x
            let s := (s.advance (r.clockOf t)).modCore c k (fun _ => { x with done := x.done ||| 2 ^ slot })
            let s := s.settleFor p c k t
            (run ⟨p, c, k, r, t, v⟩ s).modCore c k Core.finishBundle

/-- A fault (R166, R167): the instruction has no effect, its core issues nothing more, and every core stops at the next
device tick. -/
def State.fault (s : State) (i : Issue) (st : Status) (kind addr : Nat) : State :=
  (s.noteStop i.p (fun r => ⟨r.tickAfter i.t, false, st, kind, i.c.val, i.k.val, (s.core i.c i.k).ptr, addr⟩)).modCore i.c i.k
    (fun x => { x with wait := some .halted })

/-- Register field of an instruction as an address. -/
def State.regNat (s : State) (i : Issue) (hi lo : Nat) : Nat := ((s.core i.c i.k).reg (nfield i.v hi lo)).toNat

/-- Results of the core's engines are complete at a cycle (R274). -/
def State.fenceTo (s : State) (i : Issue) (t : Nat) : State :=
  s.modCore i.c i.k (fun x => { x with fence := Nat.max x.fence t })

/-! ## Store operands (R125, R166) -/

/-- Size of the shared store. -/
def sharedSize : Nat := 2 ^ 23

/-- Size of a store. -/
def Space.size : Space → Nat
  | .core => localSize
  | .shared => sharedSize

/-- The fault of a store operand of `len` bytes, aligned to `al`: 1 ADDRESS or 2 ALIGN with its address (R125, R166). -/
def badOperand (sp : Space) (al a len : Nat) : Option (Nat × Nat) :=
  if a + len > sp.size then some (1, a) else if a % al != 0 then some (2, a) else none

/-- A job holds the part of a store that an operand touches, at some cycle from `t` to `u` (R224). -/
def inJobSpan (jobs : List DrJob) (t u : Nat) (sp : Space) (a len : Nat) : Bool := jobSram sp a len && jobs.any (fun j => j.spans t u)

/-- The same at one cycle. -/
def inJobSram (jobs : List DrJob) (t : Nat) (sp : Space) (a len : Nat) : Bool := inJobSpan jobs t t sp a len

/-- A program touches SRAM that a running job holds, at some cycle from `t` to `u`: the job's result is undefined (R224). -/
def State.spoil (s : State) (i : Issue) (t u : Nat) : State :=
  s.modCluster i.c (fun x =>
    { x with der := { x.der with jobs := x.der.jobs.map (fun j => if j.spans t u then { j with spoiled := true } else j) } })

/-- The SRAM that a running job holds, for an access of `n` bytes or sums that goes on after its issue: as many free values are set aside. -/
def State.runningHold (s : State) (i : Issue) (n : Nat) : Option JobHold × State :=
  match (s.clusters[i.c]).der.jobs.find? (fun j => j.spans i.t i.t) with
  | some j => (some ⟨j.begins, j.ends, s.free⟩, { s with free := s.free + n })
  | none => (none, s)

/-- Read a store operand at an instruction's issue: undefined data where a job holds it (R224). -/
def State.readStore (s : State) (i : Issue) (sp : Space) (a len : Nat) : List Byte × State :=
  if inJobSram (s.clusters[i.c]).der.jobs i.t sp a len then (s.spoil i i.t i.t).freshBytes len
  else
    (match sp with
      | .core => (s.core i.c i.k).loc.readN a len
      | .shared => (s.clusters[i.c]).shared.readN a len, s)

/-- Write a store operand with a result that becomes visible at a cycle, which is when it touches SRAM that a job may hold (R224). -/
def State.writeStore (s : State) (i : Issue) (slot at' : Nat) (sp : Space) (a : Nat) (data : List Byte) : State :=
  let s := if inJobSram (s.clusters[i.c]).der.jobs at' sp a data.length then s.spoil i at' at' else s
  (s.later i.c i.k ⟨at', slot, sp, a, data⟩).fenceTo i at'

end Sys2Proof.Machine
end

