-- ==== Sys2Proof/Machine/Rounds.lean ====
section
/-! DEFINITION. Rounds and the client ledger (R33 to R69, R101, R102): graphs, bitmaps, survivor sets, what recovery needs,
round states, counts and endings. The commands and events of rounds stand in RoundCommands.lean. -/

namespace Sys2Proof.Machine

open Sys2Proof.Machine.Crypto

/-! ## Access -/

/-- Change a partition's round by its tag. -/
def State.modRound (s : State) (p : Fin 16) (tag : Nat) (f : Round → Round) : State :=
  s.modRnd p (fun r => { r with rounds := r.rounds.map (fun x => if x.tag = tag then f x else x) })

/-- The round of a partition that carries a tag and is not final (R520). -/
def State.round? (s : State) (p : Fin 16) (tag : Nat) : Option Round := (s.parts[p]).rnd.rounds.find? (fun r => r.tag == tag)

/-- A ledger entry (R40). -/
def RoundPart.entry (r : RoundPart) (i : Nat) : LedgerEntry := (Table.get? r.ledger i).getD LedgerEntry.reset

/-- A range of a round by its position in the order of closing. -/
def Round.range? (r : Round) (i : Nat) : Option ClosedRange := r.ranges[i]?

/-- Change a range of a round. -/
def Round.modRange (r : Round) (i : Nat) (f : ClosedRange → ClosedRange) : Round :=
  match r.ranges[i]? with
  | some x => { r with ranges := setAt r.ranges i (f x) }
  | none => r

/-! ## The neighbour graph (R50, R51) -/

/-- The graph header (R50): form, DEGREE, SETS; none where it is malformed or its client count differs. A reserved field that is not 0 makes
it malformed (DESIGN CHOICE: R4 says what a reserved field does in a command, not in a table in memory). -/
def graphHeader (m : Mem) (a clients : Nat) : Option (Bool × Nat × Nat) :=
  let w (i : Nat) : W64 := w64 (m.readLE (a + 8 * i) 8)
  let form := bits (w 0) 39 32
  let degree := bits (w 1) 40 32
  let sets := bits (w 2) 16 0
  if bits (w 0) 31 0 != 0x4E534554 || nonZero (w 0) 63 40 || nonZero (w 1) 63 41 || nonZero (w 2) 63 17
      || (List.range 5).any (fun i => w (3 + i) != 0) || form > 1 || degree = 0 || degree > 256
      || bits (w 1) 31 0 != clients || (if form = 0 then sets = 0 || sets > 65536 else sets != 0) then none
  else some (form == 1, degree, sets)

/-- Bytes of a graph's body (R51). -/
def graphBody (explicit : Bool) (degree sets clients : Nat) : Nat :=
  if explicit then clients * degree * 4 else sets * degree * 4 + if sets > 1 then clients * 2 else 0

/-- A 32-bit word of a graph's body. -/
def graphWord (b : List Byte) (i : Nat) : Nat := leNat ((b.drop (4 * i)).take 4)

/-- The set that a client at a position uses (R51). -/
def assignment (b : List Byte) (degree sets pos : Nat) : Nat :=
  if sets ≤ 1 then 0 else leNat ((b.drop (sets * degree * 4 + 2 * pos)).take 2)

/-- A graph's body breaks R51: an assignment of SETS or more, or a position of CLIENTS or more. -/
def graphBad (explicit : Bool) (b : List Byte) (degree sets clients : Nat) : Bool :=
  if explicit then (List.range (clients * degree)).any (fun i => graphWord b i ≥ clients)
  else sets > 1 && (List.range clients).any (fun i => assignment b degree sets i ≥ sets)

/-- The neighbours of a client, as positions of the round's range (R51). -/
def Round.neighbours (r : Round) (pos : Nat) : List Nat :=
  if r.explicit then (List.range r.degree).map (fun d => graphWord r.graph (pos * r.degree + d))
  else
    let a := assignment r.graph r.degree r.sets pos
    (List.range r.degree).map (fun d =>
      let v := graphWord r.graph (a * r.degree + d)
      let off : Int := if v < 2 ^ 31 then (v : Int) else (v : Int) - 2 ^ 32
      ((pos + off) % (r.clients : Int)).toNat)

/-- A list without its later repeats. -/
def dedup : List Nat → List Nat
  | [] => []
  | x :: xs => if xs.contains x then dedup xs else x :: dedup xs

/-- A number put in its place of a rising list. -/
def insertRising (n : Nat) : List Nat → List Nat
  | [] => [n]
  | x :: xs => if n ≤ x then n :: x :: xs else x :: insertRising n xs

/-- Numbers in rising order. -/
def rising (l : List Nat) : List Nat := l.foldr insertRising []

/-- The neighbours of a client at higher positions, rising, each once. -/
def Round.above (r : Round) (pos : Nat) : List Nat := rising (dedup ((r.neighbours pos).filter (fun j => pos < j)))

/-! ## Bitmaps and survivors (R44, R45, R59) -/

/-- Address of the byte of a chunk's bitmap bit. -/
def Round.bitAddr (r : Round) (pos c : Nat) : Nat := r.bitmapAddr + pos * r.bitmapStride + c / 8

/-- A client's bitmap bit (R44). -/
def Partition.bit (q : Partition) (r : Round) (pos c : Nat) : Bool := (q.dram.read (r.bitAddr pos c)).toNat.testBit (c % 8)

/-- Set a client's bitmap bit. -/
def Partition.setBit (q : Partition) (r : Round) (pos c : Nat) : Partition :=
  let a := r.bitAddr pos c
  { q with dram := q.dram.write a (byte ((q.dram.read a).toNat ||| 2 ^ (c % 8))) }

/-- A chunk index is closed. -/
def Round.closed (r : Round) (c : Nat) : Bool := r.ranges.any (fun x => RangeSet.mem x.idx c)

/-- A chunk index is in a running mend window (R57). -/
def Round.mending (r : Round) (c : Nat) : Bool := r.ranges.any (fun x => RangeSet.mem x.idx c && x.endId.isNone)

/-- A chunk index is final. -/
def Round.isFinal (r : Round) (c : Nat) : Bool := r.ranges.any (fun x => RangeSet.mem x.idx c && x.final)

/-- The final chunk indices. -/
def Round.finals (r : Round) : List Nat := (List.range r.chunks).filter r.isFinal

/-- Every chunk index is closed. -/
def Round.allClosed (r : Round) : Bool := (r.ranges.map (fun x => RangeSet.size x.idx)).foldl (· + ·) 0 == r.chunks

/-- Every chunk index is final. -/
def Round.allFinal (r : Round) : Bool := r.allClosed && r.ranges.all ClosedRange.final

/-- |S_c|: clients whose bit `c` is set (R59). -/
def Partition.survivors (q : Partition) (r : Round) (c : Nat) : Nat := countBelow r.clients (fun i => q.bit r i c)

/-- A closed chunk index that the client misses (R53). -/
def Partition.missesClosed (q : Partition) (r : Round) (pos : Nat) : Bool :=
  (List.range r.chunks).any (fun c => r.closed c && !q.bit r pos c)

/-- The client has a chunk past its ledger stage, not refused as late, that has not committed (R87). -/
def RoundPart.underway (x : RoundPart) (tag client : Nat) : Bool :=
  x.inFlight.any (fun k => k.tag == tag && k.client == client && k.outcome != 2)

/-! ## What recovery needs (R101, R102) -/

/-- The jobs that R101 requires at a final chunk index: each secret, and whether its mask is subtracted. -/
def Partition.jobs (q : Partition) (r : Round) (c : Nat) : List (Secret × Bool) :=
  let cl (i : Nat) : Nat := r.base + i
  ((List.range r.clients).map (fun i =>
    (if q.bit r i c then [(Secret.self (cl i), true)] else []) ++
      (r.above i).filterMap (fun j =>
        if q.bit r i c != q.bit r j c then some (Secret.pair (cl i) (cl j), q.bit r i c) else none))).flatten

/-- Clients whose self seed some final chunk index needs, rising. -/
def Partition.needSelf (q : Partition) (r : Round) (cs : List Nat) : List Nat :=
  ((List.range r.clients).filter (fun i => cs.any (fun c => q.bit r i c))).map (r.base + ·)

/-- Pairs that some final chunk index splits, rising by lower and higher index. -/
def Partition.needPair (q : Partition) (r : Round) (cs : List Nat) : List (Nat × Nat) :=
  ((List.range r.clients).map (fun i =>
    ((r.above i).filter (fun j => cs.any (fun c => q.bit r i c != q.bit r j c))).map (fun j => (r.base + i, r.base + j)))).flatten

/-- The key of a pair in the tables of `Recovery`. -/
def pairKey (lo hi : Nat) : Nat := lo * 2 ^ 21 + hi

/-- A self seed is held. -/
def Round.hasSelf (r : Round) (i : Nat) : Bool := r.recovery.any (fun k => Table.has k.self i)

/-- A pair seed is held. -/
def Round.hasPair (r : Round) (lo hi : Nat) : Bool := r.recovery.any (fun k => Table.has k.pair (pairKey lo hi))

/-- A pair seed can be derived from held material (R113). -/
def Round.derivable (r : Round) (lo hi : Nat) : Bool :=
  r.recovery.any (fun k => k.pk.isSome && (Table.has k.keys lo || Table.has k.keys hi) && !k.badPoint.contains (pairKey lo hi))

/-- Missing self seeds over some final chunk indices (R118). -/
def Partition.missingSelf (q : Partition) (r : Round) (cs : List Nat) : List Nat :=
  (q.needSelf r cs).filter (fun i => !r.hasSelf i)

/-- Missing pair seeds: neither held nor derivable (R118). -/
def Partition.missingPair (q : Partition) (r : Round) (cs : List Nat) : List (Nat × Nat) :=
  (q.needPair r cs).filter (fun e => !r.hasPair e.1 e.2 && !r.derivable e.1 e.2)

/-- Word 0 of a NEEDS reply (R118). -/
def Partition.missingWord (q : Partition) (r : Round) (cs : List Nat) : W64 :=
  w64 ((q.missingPair r cs).length * 2 ^ 32 + (q.missingSelf r cs).length)

/-- A secret has been applied to a chunk index. -/
def Recovery.applied (k : Recovery) (x : Secret) (c : Nat) : Bool :=
  match x with
  | .self i => RangeSet.mem ((Table.get? k.selfDone i).getD []) c
  | .pair lo hi => RangeSet.mem ((Table.get? k.pairDone (pairKey lo hi)).getD []) c

/-- A chunk index has all its jobs done (R117). -/
def Partition.recovered (q : Partition) (r : Round) (c : Nat) : Bool :=
  match r.recovery with
  | some k => r.isFinal c && (q.jobs r c).all (fun j => k.applied j.1 c)
  | none => false

/-! ## Round states and counts (R33, R68) -/

/-- The state of a round that holds a slot, as R33 numbers it. -/
def Round.state (r : Round) : Nat :=
  if r.opening then 0
  else if !r.allClosed then 1
  else if !r.allFinal || r.recovery.isNone then 2
  else if !r.ready then 3
  else 4

/-- Clients of the round in a state. -/
def RoundPart.clientsIn (x : RoundPart) (r : Round) (st : ClientState) : Nat :=
  countBelow r.clients (fun i => decide ((x.entry (r.base + i)).st = st))

/-- S1 of R68. -/
def RoundPart.s1 (x : RoundPart) (r : Round) : W64 := w64 (x.clientsIn r .arriving * 2 ^ 32 + x.clientsIn r .complete)

/-- S2 of R68. -/
def RoundPart.s2 (x : RoundPart) (r : Round) : W64 := w64 (x.clientsIn r .absent * 2 ^ 32 + x.clientsIn r .torn)

/-- Milliseconds since a round's ROUND_OPENED, as 32 bits. -/
def State.roundMs (s : State) (r : Round) : Nat := if r.opening then 0 else Nat.min ((s.clock - r.openedAt) / ms) (2 ^ 32 - 1)

/-- The words of a SUMMARY reply (R68). -/
def Partition.summary (q : Partition) (r : Round) (st cause readyMs : Nat) : List W64 :=
  let recovered := (r.finals.filter (fun c => q.recovered r c)).length
  [w64 (st * 2 ^ 32 + cause * 2 ^ 16 + r.tag), q.rnd.s1 r, q.rnd.s2 r, w64 r.accepted, w64 r.duplicates, w64 r.late,
   w64 (r.least.getD 0xFFFFFFFF * 2 ^ 32 + r.early), w64 (recovered * 2 ^ 32 + r.finals.length),
   w64 (r.closeMs * 2 ^ 32 + readyMs)]

/-! ## Ending (R63 to R66) -/

/-- A round begins to end, unless it is ending already: its windows are dead, its recovery work stops (R64). -/
def State.endRound (s : State) (p : Fin 16) (tag : Nat) (e : Ending) : State :=
  match s.round? p tag with
  | some r =>
    if r.ending.isSome then s
    else
      let s := s.modRound p tag (fun r => { r with ending := some e })
      let keep (c : Cassette) : Bool := match c with
        | .recovery k => k.tag != tag
        | .tenant _ => true
      (s.modJob p (fun j => { j with cassettes := j.cassettes.filter keep })).modRnd p (fun x =>
        { x with seedJobs := x.seedJobs.filter (fun k => k.tag != tag) })
  | none => s

/-- Cause and status of ROUND_ENDED, and the final state (R33, R69). -/
def Ending.report : Ending → Nat × Status × Nat
  | .released => (0, .ok, 5)
  | .torn c => (c, .roundTorn, 6)
  | .aborted c => (c, .ok, 7)

/-- A window's registration advances to the next generation (R73). -/
def NetPart.nextGen (n : NetPart) (reg : Nat) : NetPart :=
  { n with gens := Table.put n.gens reg (((Table.get? n.gens reg).getD 0 + 1) % 256) }

/-- Zero the accumulator of a window. -/
def Window.zeroAcc (w : Window) (m : Mem) : Mem := (List.range w.vecChunks).foldl (fun m j => m.zero (w.chunkAddr j) 4096) m

/-- The whole-page writes that zero the accumulator of a window (R329). -/
def Window.markAcc (w : Window) (width : Nat) (m : MemEpoch) : MemEpoch :=
  (List.range w.vecChunks).foldl (fun m j => m.markRange width (w.chunkAddr j) 4096) m

/-- The memory a round leaves behind: accumulators zeroed unless released, the seed table zeroed (R63, R64, R121). -/
def Partition.roundMemory (q : Partition) (r : Round) (e : Ending) : Mem :=
  let m := if e = .released then q.dram else (q.roundWindows r).foldl (fun m w => w.zeroAcc m) q.dram
  match r.recovery with
  | some k => m.zero k.seedTable r.seedTableSize
  | none => m

/-- The page epochs after that: whole pages zeroed take the current one (R329). -/
def Partition.roundEpochs (q : Partition) (r : Round) (e : Ending) : MemEpoch :=
  let m := if e = .released then q.mem else (q.roundWindows r).foldl (fun m w => w.markAcc q.stacks m) q.mem
  match r.recovery with
  | some k => m.markRange q.stacks k.seedTable r.seedTableSize
  | none => m

/-- The data words of the kickstand record ROUND_ENDED (R66). -/
def State.endedRecord (s : State) (p : Fin 16) (r : Round) (cause : Nat) (sum : List W64) : List W64 :=
  w64 (cause * 2 ^ 32 + r.tag * 2 ^ 16 + p.val) :: ((sum.drop 1).take 5 ++ [w64 r.openedSec, w64 s.nvm.life.seconds])

/-- Answer the ASYNC command of a channel that waits for a supply's seed-unit work (R431), in a turn of the channel (R427). -/
def State.answerAsync (s : State) (ch : Fin 17) (id : Nat) (st : Status) (ws : List W64) : State :=
  match (s.chans[ch]).asyncs.find? (fun h => decide (h.why = .seedUnits id)) with
  | some h =>
    ((s.inService ch).modChan ch (fun c =>
      { c with asyncs := c.asyncs.filter (fun h => decide (h.why ≠ .seedUnits id)) })).reply ch h.req st ws
  | none => s

/-- Answer the command that waits for a supply's seed-unit work (R111). -/
def State.answerSupply (s : State) (p : Fin 16) (k : Supply) (st : Status) : State :=
  let ws := [w64 (k.duplicates * 2 ^ 32 + k.held), w64 (k.inconsistent * 2 ^ 32 + k.discarded)]
  let s := s.modRnd p (fun x => { x with supplies := x.supplies.filter (fun y => y.id != k.id) })
  match (s.chans[vf p]).held with
  | some h => if h.why = .seedUnits k.id then s.finishHeld (vf p) st ws else s.answerAsync (vf p) k.id st ws
  | none => s.answerAsync (vf p) k.id st ws

/-- A round becomes final (R63 to R66, R73, R121). -/
def State.finishRound (s : State) (p : Fin 16) (r : Round) (e : Ending) : State :=
  let (cause, st, final) := e.report
  let s := s.syncDram p
  let q := s.parts[p]
  let sum := q.summary r final cause (if r.ready then r.readyMs else s.roundMs r)
  let s := r.egress.foldl (fun s d => s.queueEgress p d) s
  let s := s.modPart p (fun q =>
    { q with
      dram := q.roundMemory r e
      mem := q.roundEpochs r e
      net := (q.roundWindows r).foldl (fun n w => n.nextGen w.reg) q.net
      rnd := { q.rnd with
        ledger := Table.delRange q.rnd.ledger r.base (r.base + r.clients)
        rounds := q.rnd.rounds.filter (fun x => x.tag != r.tag)
        ended := (⟨r.tag, sum⟩ :: q.rnd.ended).take 8 } })
  let s := (s.log 0x0403 4 (s.endedRecord p r cause sum)).postPart p 0x0314 st [w64 (cause * 2 ^ 16 + r.tag)]
  (q.rnd.supplies.filter (fun k => k.tag == r.tag)).foldl
    (fun s k => s.answerSupply p k (if st = .roundTorn then .roundTorn else .ok)) s

/-- Every round of a partition that is being destroyed is aborted, and its supply commands are answered; nothing of it is in flight any more
(R65, R353). -/
def State.abortRounds (s : State) (p : Fin 16) (cause : Nat) : State :=
  let s := s.modRnd p (fun x => { x with inFlight := [], foldQ := [], seedJobs := [] })
  let s := (s.parts[p]).rnd.rounds.foldl (fun s r => s.finishRound p r (.aborted cause)) s
  s.modRnd p (fun x => { x with supplies := [] })

/-- Rounds of a partition that are not final. -/
def State.roundsOpen (s : State) (p : Fin 16) : Nat := (s.parts[p]).rnd.rounds.length

/-! ## Progress of recovery (R61, R62, R117, R119) -/

/-- Every job of R101 that involves a client is done, and there is one. -/
def Partition.repaired (q : Partition) (r : Round) (k : Recovery) (i : Nat) : Bool :=
  let mine := (r.finals.map (fun c => ((q.jobs r c).filter (fun j => match j.1 with
    | .self a => a == i
    | .pair a b => a == i || b == i)).map (fun j => (j.1, c)))).flatten
  !mine.isEmpty && mine.all (fun e => k.applied e.1 e.2)

/-- Set a flag of a ledger entry (R42). -/
def RoundPart.setFlag (x : RoundPart) (i b : Nat) : RoundPart :=
  let e := x.entry i
  { x with ledger := Table.put x.ledger i { e with flags := e.flags ||| 2 ^ b } }

/-- REPAIRED of every client whose jobs are done, once every range is final (R117). -/
def State.markRepaired (s : State) (p : Fin 16) (r : Round) (k : Recovery) : State :=
  let q := s.parts[p]
  (List.range r.clients).foldl (fun s i =>
    if q.repaired r k (r.base + i) then s.modRnd p (fun x => x.setFlag (r.base + i) 7) else s) s

/-- READY and ROUND_READY once every final chunk index is recovered and every range is final (R62, R117). -/
def State.roundProgress (s : State) (p : Fin 16) (tag : Nat) : State :=
  match s.round? p tag with
  | some r =>
    match r.recovery with
    | some k =>
      if !r.allFinal || r.ending.isSome then s
      else
        let s := s.markRepaired p r k
        if !r.ready && r.finals.all (fun c => (s.parts[p]).recovered r c) then
          (s.modRound p tag (fun x => { x with ready := true, readyMs := s.roundMs r })).postPart p 0x0313 .ok [w64 tag]
        else s
    | none => s
  | none => s

/-- MATERIAL_COMPLETE where every secret the final ranges need is held or derivable, once for each set of final ranges
(R119, R443). -/
def State.materialCheck (s : State) (p : Fin 16) (tag : Nat) : State :=
  match s.round? p tag with
  | some r =>
    let cs := r.finals
    let q := s.parts[p]
    if r.ending.isNone && !cs.isEmpty && r.complete != cs.length && (q.missingSelf r cs).isEmpty && (q.missingPair r cs).isEmpty then
      (s.modRound p tag (fun x => { x with complete := cs.length })).postPart p 0x0316 .ok [w64 tag, w64 (cs.length * 2 ^ 32)]
    else s
  | none => s

/-! ## Commands that read DRAM (R378) -/

/-- The oldest region packet of a queue, and the queue without it. -/
def takePlace : List QItem → Option (QItem × List QItem)
  | [] => none
  | x :: xs =>
    match x with
    | .place _ _ _ _ _ _ _ => some (x, xs)
    | .fold _ _ _ _ _ _ _ _ => (takePlace xs).map (fun r => (r.1, x :: r.2))

/-- Every region packet that the part had taken for the partition when it accepted a command is placed (R378; those taken are the ones
acknowledged, or about to be). -/
def State.placed (s : State) (p : Fin 16) (r : Req) : Bool :=
  (takePlace (s.parts[p]).rnd.foldQ).all (fun x => match x.1 with
    | .place id _ _ _ _ _ _ => r.places ≤ id
    | .fold _ _ _ _ _ _ _ _ => true)

end Sys2Proof.Machine
end

