-- ==== Sys2Proof/Machine/SeedUnits.lean ====
section
/-! DEFINITION. Seed units (R112 to R114): which work waits, which unit takes it, how long it lasts, and what its end does. -/

namespace Sys2Proof.Machine

open Sys2Proof.Machine.Crypto

/-! ## Assigning work (R114) -/

/-- THRESHOLD lowest holders of a bundle and the rest, by rising HOLDER (R112). -/
def Bundle.split (b : Bundle) (t : Nat) : List (Nat × List Byte) × List (Nat × List Byte) :=
  let hs := rising (b.shares.map Prod.fst)
  let all := hs.filterMap (fun h => b.shares.find? (fun e => e.1 == h))
  (all.take t, all.drop t)

/-- The points at which a bundle is evaluated: 0 and each further holder. -/
def Bundle.points (b : Bundle) (t : Nat) : List Nat := 0 :: (b.split t).2.map Prod.fst

/-- Cycles for which a piece of work holds a unit that keeps these coefficient sets (R114). -/
def workCycles (t : Nat) (kept : List (List Nat × Nat)) : SeedWork → Nat
  | .agree _ _ _ => 32000
  | .rebuild _ b =>
    let hs := (b.split t).1.map Prod.fst
    let ps := b.points t
    t * ps.length + 24 * t * (ps.filter (fun x => !kept.contains (hs, x))).length

/-- Cycles from then until the work's result is there: the HKDF of a pair seed runs beside the unit's next work (R114). -/
def tailCycles : SeedWork → Nat
  | .agree _ _ _ => 320
  | .rebuild _ _ => 0

/-- The coefficient sets that a unit keeps after a piece of work: its 16 most recently used (R114). -/
def keptAfter (t : Nat) (kept : List (List Nat × Nat)) : SeedWork → List (List Nat × Nat)
  | .agree _ _ _ => kept
  | .rebuild _ b =>
    let hs := (b.split t).1.map Prod.fst
    (b.points t).foldl (fun k x => ((hs, x) :: k.filter (fun e => e != (hs, x))).take 16) kept

/-- THRESHOLD of the round a job belongs to. -/
def Partition.threshold (q : Partition) (tag : Nat) : Nat :=
  ((q.rnd.rounds.find? (fun r => r.tag == tag)).bind Round.recovery).elim 0 Recovery.threshold

/-- The clock from which a seed unit is free of its last work. -/
def RoundPart.freeAt (x : RoundPart) (u : Nat) : Nat := (Table.get? x.unitFree u).getD 0

/-- The first of two free units for work that waits since `t`: the one free first, of two that are free at once the lower (R114). -/
def RoundPart.first (x : RoundPart) (t u v : Nat) : Nat :=
  if Nat.max t (x.freeAt u) < Nat.max t (x.freeAt v) || (Nat.max t (x.freeAt u) = Nat.max t (x.freeAt v) && u < v) then u else v

/-- The seed unit that takes work waiting since `t`: the first that is free by now (R114). -/
def RoundPart.unitFor (x : RoundPart) (units now t : Nat) : Option Nat :=
  match (List.range units).filter (fun u => x.freeAt u ≤ now) with
  | [] => none
  | u :: us => some (us.foldl (x.first t) u)

/-- The client whose key an agreement uses: the lower of the pair, where its key is held (R113). -/
def Round.keyOf (r : Round) (lo hi : Nat) : Nat := if r.recovery.any (fun k => Table.has k.keys lo) then lo else hi

/-- Waiting work as it stands when a unit takes it: none where an agreement's pair seed has come meanwhile (R113). -/
def RoundPart.stillDue (x : RoundPart) (j : SeedJob) : Option SeedJob :=
  match j.work with
  | .rebuild _ _ => some j
  | .agree lo hi _ =>
    match x.rounds.find? (fun r => r.tag == j.tag) with
    | some r => if r.hasPair lo hi then none else some { j with work := .agree lo hi (r.keyOf lo hi) }
    | none => some j

/-- Give waiting work, oldest first, to the units as they become free (R114). -/
def assignJobs (q : Partition) (now len : Nat) (x : RoundPart) : List SeedJob → RoundPart
  | [] => x
  | j :: js =>
    if j.unit.isSome then assignJobs q now len { x with seedJobs := x.seedJobs ++ [j] } js
    else
      match x.stillDue j with
      | none => assignJobs q now len x js
      | some j =>
        match x.unitFor q.stacks now j.since with
        | none => assignJobs q now len { x with seedJobs := x.seedJobs ++ [j] } js
        | some u =>
          let t := q.threshold j.tag
          let k := (Table.get? x.kept u).getD []
          let free := Nat.max j.since (x.freeAt u) + workCycles t k j.work * len
          assignJobs q now len
            { x with
              seedJobs := x.seedJobs ++ [{ j with unit := some u, ends := free + tailCycles j.work * len }]
              kept := Table.put x.kept u (keptAfter t k j.work), unitFree := Table.put x.unitFree u free } js

/-- Give out whatever seed-unit work can start, at the pace of the cluster island (R10). -/
def State.assignSeedJobs (s : State) (p : Fin 16) : State :=
  let q := s.parts[p]
  s.modRnd p (fun x => assignJobs q s.clock (s.islandCycle p) { x with seedJobs := [] } x.seedJobs)

/-- Agreements that are due and not yet asked for: needed pairs that are not held and can be derived (R113). -/
def Partition.newAgreements (q : Partition) (now : Nat) (r : Round) : List SeedJob :=
  let queued (lo hi : Nat) : Bool := q.rnd.seedJobs.any (fun j => match j.work with
    | .agree a b _ => j.tag == r.tag && a == lo && b == hi
    | .rebuild _ _ => false)
  (q.needPair r r.finals).filterMap (fun e =>
    if !r.hasPair e.1 e.2 && r.derivable e.1 e.2 && !queued e.1 e.2 then
      some ⟨r.tag, .agree e.1 e.2 (r.keyOf e.1 e.2), now, none, 0⟩
    else none)

/-- Ask for the agreements a round now needs. -/
def State.scheduleAgreements (s : State) (p : Fin 16) (tag : Nat) : State :=
  match s.round? p tag with
  | some r =>
    let js := (s.parts[p]).newAgreements s.clock r
    (s.modRnd p (fun x => { x with seedJobs := x.seedJobs ++ js })).assignSeedJobs p
  | none => s

/-! ## Results (R111 to R113) -/

/-- Change the recovery state of a round. -/
def State.modRecovery (s : State) (p : Fin 16) (tag : Nat) (f : Recovery → Recovery) : State :=
  s.modRound p tag (fun r => { r with recovery := r.recovery.map f })

/-- Change the counts of a supply command. -/
def State.modSupply (s : State) (p : Fin 16) (id : Nat) (f : Supply → Supply) : State :=
  s.modRnd p (fun x => { x with supplies := x.supplies.map (fun k => if k.id = id then f k else k) })

/-- What became of a record (R111). -/
inductive Taken where
  | held | duplicate | discarded | conflict
  deriving DecidableEq, Repr

/-- Compare a value with the one held, if there is one. -/
def meets (held : Option (List Byte)) (v : List Byte) : Taken :=
  match held with
  | none => .held
  | some w => if w = v then .duplicate else .conflict

/-- A client lies in a round's range. -/
def Round.has (r : Round) (i : Nat) : Bool := r.base ≤ i && i < r.base + r.clients

/-- A pair is an edge of the round's graph (R111). -/
def Round.edge (r : Round) (lo hi : Nat) : Bool :=
  r.has lo && r.has hi && ((r.neighbours (lo - r.base)).contains (hi - r.base) || (r.neighbours (hi - r.base)).contains (lo - r.base))

/-- A secret of a client (KIND 0 its self seed, 1 its X25519 key) that is held, or that a SUPPLY_SHARES not yet answered has brought (R111). -/
def State.secretOf (s : State) (p : Fin 16) (r : Round) (kind i : Nat) : Option (List Byte) :=
  let tab := (r.recovery.map (fun k => if kind = 0 then k.self else k.keys)).getD []
  ((Table.get? tab i).toList ++ ((s.parts[p]).rnd.supplies.filter (fun k => k.tag == r.tag)).flatMap (fun k =>
    (k.kept.filter (fun e => e.1 == kind && e.2.1 == i)).map (fun e => e.2.2))).head?

/-- What a secret of a client meets (R111). -/
def State.judge (s : State) (p : Fin 16) (r : Round) (kind i : Nat) (v : List Byte) : Taken :=
  if !r.has i then .discarded else meets (s.secretOf p r kind i) v

/-- Hold a secret of a client for use; SELF_SEED is set for a self seed (R117). -/
def State.useSecret (s : State) (p : Fin 16) (tag : Nat) (e : Nat × Nat × List Byte) : State :=
  if e.1 = 0 then
    (s.modRecovery p tag (fun k => { k with self := Table.put k.self e.2.1 e.2.2 })).modRnd p (fun x => x.setFlag e.2.1 6)
  else s.modRecovery p tag (fun k => { k with keys := Table.put k.keys e.2.1 e.2.2 })

/-- A ready self seed (R111). -/
def State.holdSelf (s : State) (p : Fin 16) (r : Round) (i : Nat) (v : List Byte) : Taken × State :=
  let t := s.judge p r 0 i v
  (t, if t = .held then s.useSecret p r.tag (0, i, v) else s)

/-- Hold a pair seed. -/
def State.holdPair (s : State) (p : Fin 16) (r : Round) (lo hi : Nat) (v : List Byte) : Taken × State :=
  if !r.edge lo hi then (.discarded, s)
  else
    match meets (r.recovery.bind (fun k => Table.get? k.pair (pairKey lo hi))) v with
    | .held => (.held, s.modRecovery p r.tag (fun k => { k with pair := Table.put k.pair (pairKey lo hi) v }))
    | t => (t, s)

/-- Symbol `k` of a 32-byte secret or share (R112). -/
def symbol (v : List Byte) (k : Nat) : Nat := leNat ((v.drop (2 * k)).take 2)

/-- Symbol `k` of the polynomials through some shares, at a point (R112). -/
def interpolate (shares : List (Nat × List Byte)) (at' k : Nat) : Nat :=
  shamir0 (shares.map (fun e => (e.1 ^^^ at', symbol e.2 k)))

/-- The secret of a bundle; none where a further share does not agree (R112). -/
def Bundle.secret (b : Bundle) (t : Nat) : Option (List Byte) :=
  let (lo, more) := b.split t
  if more.all (fun e => (List.range 16).all (fun k => interpolate lo e.1 k == symbol e.2 k)) then
    some (((List.range 16).map (fun k => leBytes 2 (interpolate lo 0 k))).flatten)
  else none

/-- Add one to the count of a supply command that a record's fate names. -/
def Supply.add (k : Supply) : Taken → Supply
  | .held => { k with held := k.held + 1 }
  | .duplicate => { k with duplicates := k.duplicates + 1 }
  | .discarded => { k with discarded := k.discarded + 1 }
  | .conflict => k

/-- A conflict ends the round at once with cause 1 (R111). -/
def State.ifConflict (s : State) (p : Fin 16) (tag : Nat) : Taken → State
  | .conflict => s.endRound p tag (.torn 1)
  | _ => s

/-- A supply command for the round, accepted by a moment, is not finished (R120). -/
def State.supplyPending (s : State) (p : Fin 16) (tag t : Nat) : Bool :=
  let mine (h : Held) : Bool :=
    (h.req.op == 0x0303 || h.req.op == 0x0304) && bits (word h.req.payload 0) 10 0 == tag && h.req.since ≤ t
  (s.chans[vf p]).asyncs.any mine || (s.chans[vf p]).held.any mine

/-- A deadline that has passed is judged: the round is torn where a secret that the range needs is missing or START was never accepted
(R120). -/
def State.judgeRange (s : State) (p : Fin 16) (tag i : Nat) (x : ClosedRange) : State :=
  let s := s.modRound p tag (fun r => r.modRange i (fun x => { x with deadline := none, overdue := false }))
  match s.round? p tag with
  | some r =>
    let q := s.parts[p]
    let cs := (List.range r.chunks).filter (RangeSet.mem x.idx)
    if r.recovery.isNone || !(q.missingSelf r cs).isEmpty || !(q.missingPair r cs).isEmpty then s.endRound p tag (.torn 1) else s
  | none => s

/-- Ranges whose deadline has passed are judged once the supply commands accepted before it are finished (R120). -/
def State.judgeOverdue (s : State) (p : Fin 16) (tag : Nat) : State :=
  match s.round? p tag with
  | some r =>
    (List.range r.ranges.length).foldl (fun s i =>
      match (s.round? p tag).bind (fun r => (r.range? i).map (fun x => (r, x))) with
      | some (r, x) =>
        if x.overdue && r.ending.isNone && x.deadline.all (fun t => !s.supplyPending p tag t) then s.judgeRange p tag i x else s
      | none => s) s
  | none => s

/-- A supply command whose last bundle is finished: its secrets become usable with its reply (R111), and the round goes on with what it brought
(R119, R120). -/
def State.supplyDone (s : State) (p : Fin 16) (id tag : Nat) : State :=
  match (s.parts[p]).rnd.supplies.find? (fun k => k.id == id) with
  | some k =>
    if k.remaining = 0 then
      let s := (k.kept.foldl (fun s e => s.useSecret p tag e) s).answerSupply p k .ok
      ((s.scheduleAgreements p tag).materialCheck p tag).judgeOverdue p tag
    else s
  | none => s

/-- The end of a reconstruction (R111, R112): the secret waits for the command's reply. -/
def State.rebuilt (s : State) (p : Fin 16) (r : Round) (id : Nat) (b : Bundle) : State :=
  let s := s.modSupply p id (fun k => { k with remaining := k.remaining - 1 })
  match b.secret ((s.parts[p]).threshold r.tag) with
  | none => (s.modSupply p id (fun k => { k with inconsistent := k.inconsistent + 1 })).supplyDone p id r.tag
  | some v =>
    let t := s.judge p r b.kind b.owner v
    let keep (k : Supply) : Supply := if t = .held then { k with kept := k.kept ++ [(b.kind, b.owner, v)] } else k
    let s := (s.modSupply p id (fun k => (keep k).add t)).ifConflict p r.tag t
    if t = .conflict then s else s.supplyDone p id r.tag

/-- The public key of a client in the round's table (R104). -/
def Partition.publicKey (q : Partition) (r : Round) (i : Nat) : List Byte :=
  match r.recovery.bind Recovery.pk with
  | some a => q.dram.readN (a + 32 * (i - r.base)) 32
  | none => []

/-- The pair seed that an agreement gives (R113); none where Z is zero. -/
def pairSeed (key pub salt : List Byte) : Option (List Byte) :=
  let z := x25519 key pub
  if z.all (· == 0) then none else some (hkdf sha256Kind z salt (ascii "skv9032 pair") 32)

/-- The end of an agreement (R113): the seed is held, compared with one that came meanwhile, or marked BAD_POINT. The other client's entry of the
public-key table is read now, in the partition `q` as the running task's moves have left it (DESIGN CHOICE: the rule names no moment; log 145). -/
def State.agreed (s : State) (p : Fin 16) (q : Partition) (r : Round) (lo hi keyOf : Nat) : State :=
  match r.recovery with
  | some k =>
    let other := if keyOf = lo then hi else lo
    match pairSeed ((Table.get? k.keys keyOf).getD []) (q.publicKey r other) k.salt with
    | none => s.modRecovery p r.tag (fun k => { k with badPoint := k.badPoint ++ [pairKey lo hi] })
    | some v =>
      let (t, s) := s.holdPair p r lo hi v
      (s.ifConflict p r.tag t).materialCheck p r.tag
  | none => s

/-- The assigned work that ends first, of the lowest rank among several (R114). -/
def firstJob : List SeedJob → Option SeedJob
  | [] => none
  | j :: js =>
    match firstJob js with
    | none => if j.unit.isSome then some j else none
    | some k =>
      if j.unit.isSome && (j.ends < k.ends || (j.ends = k.ends && j.unit.getD 0 < k.unit.getD 0)) then some j else some k

/-- SEED_UNIT_JOB_DONE (R111 to R114): a seed unit finishes its work, and the next waiting work is given out. Work that the unit took beside the
HKDF of a pair seed goes on. -/
def execSeedUnitJobDone (p : Fin 16) (s : State) : Host.Outcome State Fault Refusal :=
  .next (
    match firstJob (s.parts[p]).rnd.seedJobs with
    | some j =>
      let q := ((s.advance j.ends).syncDram p).parts[p]
      let s := (s.advance j.ends).modRnd p (fun x => { x with seedJobs := x.seedJobs.erase j })
      let s : State :=
        match s.round? p j.tag with
        | some r =>
          if r.ending.isSome then s
          else
            match j.work with
            | .rebuild id b => s.rebuilt p r id b
            | .agree lo hi key => s.agreed p q r lo hi key
        | none => s
      s.assignSeedJobs p
    | none => s)

/-- Work of the partition's seed units takes as many cycles at the islands' new pace as it had left at the old one (R10). -/
def State.rebaseSeeds (s : State) (p : Fin 16) (old : Nat) : State :=
  let new := s.islandCycle p
  let move (t : Nat) : Nat := if t ≤ s.clock then t else s.clock + ceilDiv (t - s.clock) old * new
  if old = new then s
  else s.modRnd p (fun x =>
    { x with
      seedJobs := x.seedJobs.map (fun j => { j with ends := move j.ends })
      unitFree := x.unitFree.map (fun e => (e.1, move e.2)) })

end Sys2Proof.Machine
end

