-- ==== Sys2Proof/Machine/RoundCommands.lean ====
section
/-! DEFINITION. Commands and events of rounds: OPEN_ROUND and the end of its clearing, CLOSE_ROUND with RANGE_CLOSED, the mend
window and RANGE_FINAL, RELEASE_AGGREGATE, ABORT_ROUND, the end of a round, and ROUND_STATUS (R35, R47 to R69, R436). -/

namespace Sys2Proof.Machine

open Sys2Proof.Machine.Crypto

/-! ## OPEN_ROUND (R35, R47 to R49) -/

/-- Entry `n` of the window list of OPEN_ROUND (R47). -/
def openWin (w : List W64) (n : Nat) : Nat := (wordsToBytes ((w.drop 6).take 8)).getD n 0 |>.toNat

/-- The windows an OPEN_ROUND lists. -/
def openWins (w : List W64) : List Nat := (List.range (bits (word w 3) 38 32)).map (openWin w)

/-- A field of OPEN_ROUND is reserved or out of range (R47). -/
def openBad (w : List W64) : Bool :=
  let p0 := word w 0
  let p1 := word w 1
  let p2 := word w 2
  let p3 := word w 3
  let n := bits p3 38 32
  nonZero p0 47 29 || nonZero p0 19 11 || nonZero p1 63 54 || nonZero p1 31 21 || nonZero p2 31 25 || nonZero p3 63 39
    || nonZero (word w 4) 63 39 || nonZero (word w 5) 63 39
    || bits p0 27 26 > 1 || bits p0 25 24 > 2 || bits p0 23 20 > 3 || (bitAt p0 28 && bits p0 27 26 = 0)
    || bits p1 53 32 = 0 || bits p1 53 32 > 2097152 || bits p2 24 0 = 0 || bits p2 24 0 > 16777216 || n = 0 || n > 64
    || (List.range 64).any (fun i => if i < n then openWin w i > 63 else openWin w i != 0xFF)
    || bits (word w 4) 38 0 % 64 != 0 || bits (word w 5) 38 0 % 64 != 0

/-- Byte ranges that share a byte. -/
def rangesMeet (a la b lb : Nat) : Bool := a < b + lb && b < a + la && la > 0 && lb > 0

/-- The arrival queue's ring overlaps a byte range (R48). -/
def Partition.aqMeets (q : Partition) (lo len : Nat) : Bool :=
  match q.rnd.aq with
  | some a => rangesMeet lo len a.addr (2 ^ a.log2 * 16)
  | none => false

/-- The listed windows cover the client vector exactly once (R48). -/
def coverOnce (chunks : Nat) (ws : List Window) : Bool :=
  let len (w : Window) : Nat := w.vecChunks * 4096
  (ws.map Window.vecChunks).foldl (· + ·) 0 == chunks
    && ws.all (fun w => w.vecOffset + len w ≤ chunks * 4096)
    && pairwiseApart ws
where
  /-- No two windows of the list share a byte of the vector. -/
  pairwiseApart : List Window → Bool
    | [] => true
    | w :: ws => ws.all (fun v => !rangesMeet w.vecOffset (w.vecChunks * 4096) v.vecOffset (v.vecChunks * 4096)) && pairwiseApart ws

/-- The round an OPEN_ROUND describes, before anything of it is written. -/
def openedRound (s : State) (w : List W64) (h : Bool × Nat × Nat) (body : List Byte) : Round :=
  { tag := bits (word w 0) 10 0, dropout := bits (word w 0) 27 26 == 1, admitLate := bitAt (word w 0) 28
    mendMs := bits (word w 0) 63 48, prg := bits (word w 0) 25 24, elem := bits (word w 0) 23 20
    base := bits (word w 1) 20 0, clients := bits (word w 1) 53 32, recoveryMs := bits (word w 2) 63 32
    chunks := bits (word w 2) 24 0, wins := openWins w, minSurvivors := bits (word w 3) 31 0
    graphAddr := bits (word w 4) 38 0, bitmapAddr := bits (word w 5) 38 0, explicit := h.1, degree := h.2.1, sets := h.2.2
    graph := body, opening := true, openedAt := s.clock, openedSec := s.nvm.life.seconds, ranges := [], recovery := none
    ready := false, complete := 0, accepted := 0, duplicates := 0, late := 0, early := 0, least := none, closeMs := 0
    readyMs := 0, ending := none, egress := [] }

/-- The refusals of R35 in order. -/
def checkOpenSlots (q : Partition) (w : List W64) : Option Status :=
  let tag := bits (word w 0) 10 0
  let base := bits (word w 1) 20 0
  let n := bits (word w 1) 53 32
  let wins := openWins w
  if q.rnd.rounds.length ≥ 4 then some .tableFull
  else if q.rnd.rounds.any (fun r => r.tag == tag) then some .duplicate
  else if q.rnd.rounds.any (fun r => rangesMeet base n r.base r.clients) then some .badState
  else if q.rnd.rounds.any (fun r => wins.any (fun x => r.wins.contains x)) then some .badState
  else none

/-- The refusals of R48 from the top. -/
def checkOpenTable (q : Partition) (w : List W64) : Option Status :=
  let base := bits (word w 1) 20 0
  let n := bits (word w 1) 53 32
  let chunks := bits (word w 2) 24 0
  let g := bits (word w 4) 38 0
  let b := bits (word w 5) 38 0
  let blen := n * (ceilDiv chunks 512 * 64)
  let head := if g + 64 ≤ q.dramSize then graphHeader q.dram g n else none
  let glen := 64 + head.elim 0 (fun h => graphBody h.1 h.2.1 h.2.2 n)
  let wins := (openWins w).map (fun i => Table.get? q.rnd.windows i)
  let ws := wins.filterMap id
  if base + n > q.ledger.length * 65536 || q.ledger.isEmpty then some .noResource
  else if b + blen > q.dramSize || g + glen > q.dramSize then some .badParam
  else if rangesMeet b blen g glen || ws.any (fun x => x.accMeets b blen || x.accMeets g glen) || q.aqMeets b blen
      || q.aqMeets g glen then some .badParam
  else if q.sourceOwned none b blen || q.sourceOwned none g glen then some .notPermitted
  else if wins.any Option.isNone then some .badParam
  else if ws.any (fun x => x.elem != bits (word w 0) 23 20) then some .paramMismatch
  else if !coverOnce chunks ws then some .paramMismatch
  else if q.foldK = 0 then some .noResource
  else
    match head with
    | some h =>
      if graphBad h.1 (q.dram.readN (g + 64) (graphBody h.1 h.2.1 h.2.2 n)) h.2.1 h.2.2 n then some .paramMismatch else none
    | none => some .paramMismatch

/-- The ledger entries of a round at its opening (R49). -/
def Round.entries (r : Round) : Assoc LedgerEntry :=
  (List.range r.clients).map (fun i =>
    (r.base + i, ⟨.absent, r.tag, 0, (r.bitmapAddr + i * r.bitmapStride) / 64, 0xFFFF,
      if r.explicit then 0xFFFF else assignment r.graph r.degree r.sets i, 0⟩))

/-- A ledger with the entries of a range replaced. -/
def putEntries (l : Assoc LedgerEntry) (lo hi : Nat) (es : Assoc LedgerEntry) : Assoc LedgerEntry :=
  l.filter (fun e => e.1 < lo) ++ es ++ l.filter (fun e => hi ≤ e.1)

/-- OPEN_ROUND (R35, R47 to R49): it reads DRAM, so it waits for placement (R378); accepted, the round enters OPENING with its ledger entries written. -/
def handleOpenRound : Handler := fun ch r s =>
  let p := chanPart ch
  let w := r.payload
  if openBad w then .refuse .badParam
  else if !s.placed p r then .hold .retry s
  else
    let s := s.syncDram p
    let q := s.parts[p]
    match checkOpenSlots q w, checkOpenTable q w with
    | some st, _ => .refuse st
    | none, some st => .refuse st
    | none, none =>
      let g := bits (word w 4) 38 0
      match graphHeader q.dram g (bits (word w 1) 53 32) with
      | none => .refuse .paramMismatch
      | some h =>
        let x := openedRound s w h (q.dram.readN (g + 64) (graphBody h.1 h.2.1 h.2.2 (bits (word w 1) 53 32)))
        .done .accepted [] (s.modRnd p (fun y =>
          { y with rounds := y.rounds ++ [x], ledger := putEntries y.ledger x.base (x.base + x.clients) x.entries }))

/-- OPEN_ROUND. -/
def execOpenRound (ch : Fin 17) (c : Cmd) (s : State) : Host.Outcome State Fault Refusal :=
  .next (s.submit handleOpenRound 0x0301 ch c)

/-- ROUND_CLEARING_DONE (R49, R329): the bitmap region and the accumulators are zero, the windows are live, the round is OPEN. -/
def execRoundClearingDone (p : Fin 16) (tag : Nat) (s : State) : Host.Outcome State Fault Refusal :=
  .next (
    match s.round? p tag with
    | some r =>
      if !r.opening || r.ending.isSome then s
      else
        let s := (s.syncDram p).modPart p (fun q =>
          { q with
            dram := (q.roundWindows r).foldl (fun m w => w.zeroAcc m) (q.dram.zero r.bitmapAddr (r.clients * r.bitmapStride))
            mem := (q.roundWindows r).foldl (fun m w => w.markAcc q.stacks m)
              (q.mem.markRange q.stacks r.bitmapAddr (r.clients * r.bitmapStride)) })
        let s := s.modRound p tag (fun r => { r with opening := false, openedAt := s.clock, openedSec := s.nvm.life.seconds })
        s.postPart p 0x0310 .ok [w64 tag]
    | none => s)

/-! ## CLOSE_ROUND (R55 to R58) -/

/-- A range as events carry it (R443). -/
def rangeWord (first count : Nat) : W64 := w64 (count * 2 ^ 32 + first)

/-- The chunk indices that a CLOSE_ROUND closes: those asked for, or every one not yet closed (R55). -/
def Round.closing (r : Round) (all : Bool) (first count : Nat) : RangeSet :=
  if all then r.ranges.foldl (fun o x => x.idx.foldl (fun o e => RangeSet.remove o e.1 (e.1 + e.2)) o) [(0, r.chunks)]
  else [(first, count)]

/-- The checks of CLOSE_ROUND: reserved fields, then R520 and R55 in order. -/
def checkCloseRound (s : State) (p : Fin 16) (w : List W64) : Option Status :=
  let w0 := word w 0
  let w1 := word w 1
  let all := bitAt w0 11
  let first := bits w1 24 0
  let count := bits w1 56 32
  if nonZero w0 63 12 || nonZero w1 63 57 || nonZero w1 31 25 then some .badParam
  else
    match s.round? p (bits w0 10 0) with
    | none => some .badParam
    | some r =>
      if r.state != 1 || r.ending.isSome then some .badState
      else if !r.dropout && !all then some .badParam
      else if r.dropout && !all && (count = 0 || first + count > r.chunks
          || (List.range count).any (fun i => r.closed (first + i))) then some .badParam
      else none

/-- What the close point does to a client of the round (R56, R87). -/
def Partition.closeEntry (q : Partition) (r : Round) (idx : RangeSet) (i : Nat) (e : LedgerEntry) : LedgerEntry :=
  let lacks := idx.any (fun x => (List.range x.2).any (fun k => !q.bit r i (x.1 + k)))
  match e.st with
  | .arriving => if lacks then { e with st := .torn } else e
  | .absent =>
    if (!r.dropout || !r.admitLate) && !q.rnd.underway r.tag (r.base + i) then { e with flags := e.flags ||| 16 } else e
  | _ => e

/-- Change every ledger entry of a round. -/
def Partition.mapEntries (q : Partition) (r : Round) (f : Nat → LedgerEntry → LedgerEntry) : Partition :=
  let es := (List.range r.clients).map (fun i => (r.base + i, f i (q.rnd.entry (r.base + i))))
  { q with rnd := { q.rnd with ledger := putEntries q.rnd.ledger r.base (r.base + r.clients) es } }

/-- The close point of a range (R56). -/
def State.closePoint (s : State) (p : Fin 16) (r : Round) (all : Bool) (first count : Nat) : State :=
  let idx := r.closing all first count
  let first := if all then (RangeSet.least? idx).getD 0 else first
  let count := if all then r.chunks - first else count
  let id := (s.parts[p]).rnd.nextId
  let x : ClosedRange :=
    { first := first, count := count, idx := idx, closeId := id, posted := false, mendEnd := s.clock + r.mendMs * ms
      endId := if r.mendMs = 0 then some id else none, final := false, last := false, deadline := none, overdue := false }
  let s := s.modPart p (fun q => q.mapEntries r (q.closeEntry r idx))
  s.modRound p r.tag (fun r =>
    let r' := { r with ranges := r.ranges ++ [x] }
    if r'.allClosed then { r' with closeMs := s.roundMs r, ranges := r.ranges ++ [{ x with last := true }] } else r')

/-- CLOSE_ROUND (R55, R56): answered OK once its close point has passed. -/
def handleCloseRound : Handler := fun ch r s =>
  let p := chanPart ch
  let w1 := word r.payload 1
  match checkCloseRound s p r.payload, s.round? p (bits (word r.payload 0) 10 0) with
  | some st, _ => .refuse st
  | none, none => .refuse .badParam
  | none, some x => .done .ok [] (s.closePoint p x (bitAt (word r.payload 0) 11) (bits w1 24 0) (bits w1 56 32))

/-- CLOSE_ROUND. -/
def execCloseRound (ch : Fin 17) (c : Cmd) (s : State) : Host.Outcome State Fault Refusal :=
  .next (s.submit handleCloseRound 0x0302 ch c)

/-- No chunk of a round with a number below `id` is still on its way to its commit (R56, R57). -/
def RoundPart.drained (x : RoundPart) (tag id : Nat) : Bool := x.inFlight.all (fun k => k.tag != tag || k.id ≥ id)

/-- RANGE_CLOSED (R56): once every chunk staged before the close point has committed, the counts are taken and posted. -/
def execRangeClosed (p : Fin 16) (tag i : Nat) (s : State) : Host.Outcome State Fault Refusal :=
  .next (
    match s.round? p tag with
    | some r =>
      match r.range? i with
      | some x =>
        let q := s.parts[p]
        if x.posted || r.ending.isSome || !q.rnd.drained tag x.closeId then s
        else (s.modRound p tag (fun r => r.modRange i (fun x => { x with posted := true }))).postPart p 0x0311 .ok
          [w64 tag, rangeWord x.first x.count, q.rnd.s1 r, q.rnd.s2 r]
      | none => s
    | none => s)

/-- MEND_WINDOW_END (R57): later chunks of the range are refused as late. -/
def execMendWindowEnd (p : Fin 16) (tag i : Nat) (s : State) : Host.Outcome State Fault Refusal :=
  .next (
    match s.round? p tag with
    | some r =>
      match r.range? i with
      | some x =>
        if x.endId.isSome || r.ending.isSome then s
        else
          let id := (s.parts[p]).rnd.nextId
          (s.advance x.mendEnd).modRound p tag (fun r => r.modRange i (fun x => { x with endId := some id }))
      | none => s
    | none => s)

/-- The final shut (R58): ARRIVING and TORN clients are TORN for good and SHUT. -/
def shutEntry (_ : Nat) (e : LedgerEntry) : LedgerEntry :=
  match e.st with
  | .arriving => { e with st := .torn, flags := e.flags ||| 16 }
  | .torn => { e with flags := e.flags ||| 16 }
  | _ => e

/-- The least survivor count over chunk indices (R60). -/
def Partition.leastOf (q : Partition) (r : Round) (cs : List Nat) : Option Nat :=
  (cs.map (q.survivors r)).foldl (fun m n => some (m.elim n (Nat.min n))) none

/-- What follows the end of a range's mend window once its chunks have committed (R58, R60, R119, R120). MATERIAL_NEEDED is posted where a
secret that this range needs is missing, with the counts of R118, which are those of every final range. -/
def State.rangeFinal (s : State) (p : Fin 16) (r : Round) (i : Nat) (x : ClosedRange) : State :=
  let q := s.parts[p]
  let cs := (List.range r.chunks).filter (RangeSet.mem x.idx)
  let least := (q.leastOf r cs).getD 0
  let due := if r.recoveryMs = 0 then none else some (s.clock + r.recoveryMs * ms)
  let s := if x.last then s.modPart p (fun q => q.mapEntries r shutEntry) else s
  let s := s.modRound p r.tag (fun r =>
    { (r.modRange i (fun x => { x with final := true, deadline := due })) with
      least := some (r.least.elim least (Nat.min least)) })
  let s := s.postPart p 0x0312 .ok [w64 r.tag, rangeWord x.first x.count, w64 least]
  if r.minSurvivors != 0 && least < r.minSurvivors then s.endRound p r.tag (.torn 1)
  else
    match s.round? p r.tag with
    | some r' =>
      let q := s.parts[p]
      let fs := r'.finals
      let s : State :=
        if (q.missingSelf r' cs).isEmpty && (q.missingPair r' cs).isEmpty then s
        else s.postPart p 0x0315 .ok [w64 r.tag, rangeWord x.first x.count, q.missingWord r' fs]
      ((s.scheduleAgreements p r.tag).materialCheck p r.tag).roundProgress p r.tag
    | none => s

/-- RANGE_FINAL (R57, R58, R60). -/
def execRangeFinal (p : Fin 16) (tag i : Nat) (s : State) : Host.Outcome State Fault Refusal :=
  .next (
    match s.round? p tag with
    | some r =>
      match r.range? i with
      | some x =>
        match x.endId with
        | some id =>
          if !x.posted || x.final || r.ending.isSome || !(s.parts[p]).rnd.drained tag id then s else s.rangeFinal p r i x
        | none => s
      | none => s
    | none => s)

/-! ## Ending (R63 to R65, R436) -/

/-- Descriptors that wait on a queue pair, those of rounds being released included. -/
def Partition.egressLoad (q : Partition) (i : Nat) : Nat :=
  ((Table.get? q.net.qps i).elim 0 (fun x => x.descriptors))
    + (q.rnd.rounds.map (fun r => (r.egress.filter (fun e => bits (word e 1) 17 0 == i)).length)).foldl (· + ·) 0

/-- Check the descriptors of a RELEASE_AGGREGATE in order: R382, then the room in each egress queue (R436). -/
def checkDescriptors (s : State) (p : Fin 16) (tag : Nat) (before : List (List W64)) : List (List W64) → Option Status
  | [] => none
  | e :: es =>
    let qp := bits (word e 1) 17 0
    match checkEgress s p (some tag) none e with
    | some st => some st
    | none =>
      if (s.parts[p]).egressLoad qp + (before.filter (fun d => bits (word d 1) 17 0 == qp)).length ≥ 16 then some .tableFull
      else checkDescriptors s p tag (before ++ [e]) es

/-- RELEASE_AGGREGATE (R63, R436): the round is released once nothing of it is past its ledger stage (R97). -/
def handleReleaseAggregate : Handler := fun ch r s =>
  let p := chanPart ch
  let w0 := word r.payload 0
  let n := bits w0 19 16
  let tag := bits w0 10 0
  let es := chop 6 n (r.payload.drop 1)
  if nonZero w0 63 20 || nonZero w0 15 11 || es.any egressReserved then .refuse .badParam
  else if r.payload.length != 1 + 6 * n then .refuse .badLength
  else if n > 8 || es.any egressRange then .refuse .badParam
  else
    match s.round? p tag with
    | none => .refuse .badParam
    | some x =>
      if x.state != 4 || x.ending.isSome then .refuse .badState
      else
        match checkDescriptors s p tag [] es with
        | some st => .refuse st
        | none =>
          .done .ok [w64 n] ((s.modRound p tag (fun r => { r with egress := es })).endRound p tag .released)

/-- RELEASE_AGGREGATE. -/
def execReleaseAggregate (ch : Fin 17) (c : Cmd) (s : State) : Host.Outcome State Fault Refusal :=
  .next (s.submit handleReleaseAggregate 0x0306 ch c)

/-- ABORT_ROUND (R65, R436). -/
def handleAbortRound : Handler := fun ch r s =>
  let p := chanPart ch
  let w0 := word r.payload 0
  if nonZero w0 63 11 then .refuse .badParam
  else
    match s.round? p (bits w0 10 0) with
    | none => .refuse .badParam
    | some x => .done .ok [] (s.endRound p x.tag (.aborted 2))

/-- ABORT_ROUND. -/
def execAbortRound (ch : Fin 17) (c : Cmd) (s : State) : Host.Outcome State Fault Refusal :=
  .next (s.submit handleAbortRound 0x0308 ch c)

/-- A recovery task of the round is running. -/
def Partition.recovering (q : Partition) (tag : Nat) : Bool :=
  q.job.running.any (fun r => match r.what with
    | .recovery k => k.tag == tag
    | .tenant _ => false)

/-- ROUND_END_DRAIN_DONE (R63 to R66, R97, R121): nothing of an ending round is past its ledger stage or in recovery. -/
def execRoundEndDrainDone (p : Fin 16) (tag : Nat) (s : State) : Host.Outcome State Fault Refusal :=
  .next (
    match s.round? p tag with
    | some r =>
      match r.ending with
      | some e =>
        let q := s.parts[p]
        if q.rnd.inFlight.any (fun k => k.tag == tag) || q.recovering tag then s else s.finishRound p r e
      | none => s
    | none => s)

/-! ## ROUND_STATUS (R67, R68) -/

/-- A ledger entry as two words, low word first (R40). -/
def LedgerEntry.words (e : LedgerEntry) : List W64 :=
  let st := match e.st with
    | .absent => 0 | .arriving => 1 | .complete => 2 | .torn => 3
  let n := st * 2 ^ 126 + e.tag * 2 ^ 115 + e.chunks * 2 ^ 83 + e.bitmapPtr * 2 ^ 48 + e.gwHint * 2 ^ 32 + e.nset * 2 ^ 16 + e.flags
  [w64 n, w64 (n / 2 ^ 64)]

/-- Two numbers a word, in [20:0] and [52:32] (R67). -/
def pairWords : List Nat → List W64
  | [] => []
  | [a] => [w64 a]
  | a :: b :: r => w64 (b * 2 ^ 32 + a) :: pairWords r

/-- A list reply of ROUND_STATUS (R67). Its next cursor is the next index on the list (DESIGN CHOICE: the rule does not say whether it is that or
the last one listed plus 1; the next query gives the same list either way). -/
def Partition.clientList (q : Partition) (r : Round) (st : ClientState) (cursor max : Nat) : List W64 :=
  let all := ((List.range r.clients).map (r.base + ·)).filter (fun i => cursor ≤ i && decide ((q.rnd.entry i).st = st))
  pairWords (all.take max) ++ [w64 ((all.drop max).headD 0x1FFFFF)]

/-- ROUND_STATUS (R67). SUMMARY uses nothing of P1, and CLIENT no MAX (R4). -/
def handleRoundStatus : Handler := fun ch r s =>
  let p := chanPart ch
  let w0 := word r.payload 0
  let w1 := word r.payload 1
  let kind := bits w0 17 16
  let tag := bits w0 10 0
  let idx := bits w1 20 0
  let max := bits w1 43 32
  let q := s.parts[p]
  if kind != 0 && !r.sealed then .refuse .notPermitted
  else if nonZero w0 63 18 || nonZero w0 15 11 || nonZero w1 63 44 || nonZero w1 31 21
      || (kind = 0 && idx != 0) || (kind < 2 && max != 0) then .refuse .badParam
  else if kind ≥ 2 && (max = 0 || max > 4094) then .refuse .badParam
  else
    match s.round? p tag with
    | some x =>
      match kind with
      | 0 => .done .ok (q.summary x x.state 0 (if x.ready then x.readyMs else 0)) s
      | 1 =>
        if x.base ≤ idx && idx < x.base + x.clients then .done .ok (q.rnd.entry idx).words s else .refuse .badParam
      | 2 => .done .ok (q.clientList x .torn idx max) s
      | _ => .done .ok (q.clientList x .absent idx max) s
    | none =>
      match q.rnd.ended.find? (fun e => e.tag == tag) with
      | some e => if kind = 0 then .done .ok e.summary s else .refuse .badState
      | none => .refuse .badParam

/-- ROUND_STATUS_SUMMARY. -/
def execRoundStatusSummary (ch : Fin 17) (c : Cmd) (s : State) : Host.Outcome State Fault Refusal :=
  .next (s.submit handleRoundStatus 0x0307 ch (cmdSel c 0 17 16 0))

/-- ROUND_STATUS_CLIENT. -/
def execRoundStatusClient (ch : Fin 17) (c : Cmd) (s : State) : Host.Outcome State Fault Refusal :=
  .next (s.submit handleRoundStatus 0x0307 ch (cmdSel c 0 17 16 1))

/-- ROUND_STATUS_TORN_LIST. -/
def execRoundStatusTornList (ch : Fin 17) (c : Cmd) (s : State) : Host.Outcome State Fault Refusal :=
  .next (s.submit handleRoundStatus 0x0307 ch (cmdSel c 0 17 16 2))

/-- ROUND_STATUS_ABSENT_LIST. -/
def execRoundStatusAbsentList (ch : Fin 17) (c : Cmd) (s : State) : Host.Outcome State Fault Refusal :=
  .next (s.submit handleRoundStatus 0x0307 ch (cmdSel c 0 17 16 3))

end Sys2Proof.Machine
end

