-- ==== Sys2Proof/Machine/Fold.lean ====
section
/-! DEFINITION. The freewheel path (R70 to R97): fold windows, the window stage, the ledger, bitmap and fold stages, the
commit, and the placement of region packets through the same queue (R376). -/

namespace Sys2Proof.Machine

open Sys2Proof.Machine.Crypto

/-! ## Fold arithmetic (R76 to R78) -/

/-- Bytes of an element (R76). -/
def elemSize : Nat → Nat
  | 0 => 2
  | 1 => 4
  | _ => 8

/-- One element of a fold (R77): the sum, or the difference that recovery forms (R101), modulo 2^w or modulo q. -/
def foldOne (elem q : Nat) (sub : Bool) (a x : Nat) : Nat :=
  let m := if elem = 3 then q else 2 ^ (8 * elemSize elem)
  if sub then (a + (m - x % m)) % m else (a + x % m) % m

/-- Fold `n` elements of byte strings. -/
def foldBytes (elem q : Nat) (sub : Bool) : Nat → List Byte → List Byte → List Byte
  | 0, _, _ => []
  | n + 1, a, x =>
    let k := elemSize elem
    leBytes k (foldOne elem q sub (leNat (a.take k)) (leNat (x.take k))) ++ foldBytes elem q sub n (a.drop k) (x.drop k)

/-- The modulus that a window chunk folds under (R78); 1 where the window has none. -/
def Window.modulus (w : Window) (j : Nat) : Nat := if w.elem = 3 then w.mods.getD (j / w.perLimb) 1 else 1

/-- Add a chunk to, or subtract it from, an accumulator chunk of a partition (R77): a whole-page write. -/
def State.foldChunk (s : State) (p : Fin 16) (w : Window) (j : Nat) (sub : Bool) (x : List Byte) : State :=
  let a := w.chunkAddr j
  s.writePages p a (foldBytes w.elem (w.modulus j) sub (4096 / elemSize w.elem) ((s.parts[p]).dram.readN a 4096) x)

/-! ## Registrations (R374) -/

/-- The lowest free registration index. -/
def NetPart.freeReg (n : NetPart) : Option Nat := leastBelow 4096 (fun i => !Table.has n.regs i)

/-- Make a registration at a free index: its generation advances by 1, its TAG counts the registrations before it (R374). -/
def NetPart.register (n : NetPart) (i : Nat) (b : RegBody) : NetPart :=
  { n.nextGen i with regs := Table.put n.regs i ⟨n.regCount % 4096, b⟩, regCount := n.regCount + 1 }

/-- The rkey in force at an index, as a reply word. -/
def State.rkeyWord (s : State) (p : Fin 16) (i : Nat) : W64 := w64 (((s.parts[p]).net.rkey i).getD 0)

/-- End a registration; its generation stays (R75, R380). -/
def NetPart.unregister (n : NetPart) (i : Nat) : NetPart := { n with regs := Table.del n.regs i }

/-! ## CREATE_FOLD_WINDOW and DESTROY_FOLD_WINDOW (R71 to R75) -/

/-- A counter named as logical cluster and index in 16 bits (R71). -/
def readCtr (n : Nat) : CtrRef := ⟨n / 2 ^ 11 % 32, n % 2 ^ 11⟩

/-- The counter lies in one of the partition's clusters. -/
def Partition.ownsCtr (q : Partition) (c : CtrRef) : Bool := q.clusterList.contains c.cluster

/-- The window that a descriptor describes (R71), at a registration index. -/
def readWindow (w : List W64) (reg : Nat) : Window :=
  { elem := bits (word w 0) 23 20, vecChunks := bits (word w 0) 56 32, vecOffset := bits (word w 1) 35 0
    accAddr := bits (word w 2) 38 0, limbs := bits (word w 3) 46 40, stride := bits (word w 3) 37 32
    perLimb := bits (word w 3) 24 0, mods := (w.drop 6).map (fun m => bits m 60 0), reg := reg }

/-- Reserved fields and encodings of a window descriptor (R4, R7, R71): LIMBS and CHUNKS_PER_LIMB are used by RNS64 alone. -/
def windowReserved (w : List W64) : Bool :=
  nonZero (word w 0) 63 57 || nonZero (word w 0) 31 24 || nonZero (word w 0) 19 7 || nonZero (word w 1) 63 36
    || nonZero (word w 2) 63 39 || nonZero (word w 3) 63 47 || nonZero (word w 3) 39 38 || nonZero (word w 3) 31 25
    || nonZero (word w 4) 63 53 || nonZero (word w 4) 47 39 || nonZero (word w 5) 63 32 || bits (word w 0) 23 20 > 3
    || (bits (word w 0) 23 20 != 3 && (nonZero (word w 3) 46 40 || nonZero (word w 3) 24 0))
    || (w.drop 6).any (fun m => nonZero m 63 61)

/-- Row 2 of R72: fields out of range, formats, moduli and counters. -/
def windowBad (q : Partition) (w : List W64) : Bool :=
  let x := readWindow w 0
  let arr := readCtr (bits (word w 5) 31 16)
  let rel := readCtr (bits (word w 5) 15 0)
  let log := bits (word w 4) 52 48
  bits (word w 0) 6 0 > 63 || x.vecChunks = 0 || x.vecChunks > 16777216 || x.vecOffset % 4096 != 0
    || x.vecOffset + x.vecChunks * 4096 > 2 ^ 36 || x.accAddr % 4096 != 0 || x.stride = 0 || x.stride > q.stacks
    || log < 8 || log > 20 || bits (word w 4) 38 0 % 4096 != 0
    || (x.elem = 3 && (x.limbs = 0 || x.limbs > 64 || x.vecChunks != x.limbs * x.perLimb
          || x.mods.any (fun m => m ≤ 2 ^ 16 || m ≥ 2 ^ 61)))
    || arr = rel || !q.ownsCtr arr || !q.ownsCtr rel

/-- The refusals of R72 from the top. The accumulator is held against the ring that its own descriptor names (DESIGN CHOICE: row 4 says "the
arrival queue"; where the partition's queue is another one, the last row refuses the command). -/
def checkCreateWindow (q : Partition) (w : List W64) : Option Status :=
  let x := readWindow w 0
  let log := bits (word w 4) 52 48
  let addr := bits (word w 4) 38 0
  let ring := 2 ^ log * 16
  if windowReserved w then some .badParam
  else if w.length != 6 + x.limbs then some .badLength
  else if windowBad q w then some .badParam
  else if x.chunkAddr (x.vecChunks - 1) + 4096 > q.dramSize || addr + ring > q.dramSize then some .badParam
  else if x.accMeets addr ring
      || q.rnd.windows.any (fun v => (List.range x.vecChunks).any (fun j => v.2.accMeets (x.chunkAddr j) 4096)) then some .badParam
  else if Table.has q.rnd.windows (bits (word w 0) 6 0) then some .badState
  else if q.net.freeReg.isNone then some .tableFull
  else
    match q.rnd.aq with
    | some a =>
      if !q.rnd.windows.isEmpty && (a.addr != addr || a.log2 != log || a.arrival != readCtr (bits (word w 5) 31 16)
          || a.release != readCtr (bits (word w 5) 15 0)) then some .paramMismatch
      else none
    | none => none

/-- Define the arrival queue where the partition has no window (R75, R93): its bases are the counters' values now. -/
def State.defineQueue (s : State) (p : Fin 16) (w : List W64) : State :=
  let s := s.catchUp p
  if (s.parts[p]).rnd.windows.isEmpty then
    let arr := readCtr (bits (word w 5) 31 16)
    let rel := readCtr (bits (word w 5) 15 0)
    let a : ArrivalQueue :=
      { log2 := bits (word w 4) 52 48, addr := bits (word w 4) 38 0, arrival := arr, release := rel
        a0 := (s.counter arr).value, l0 := (s.counter rel).value, m := 0, taken := 0, serial := (s.parts[p]).net.regCount }
    ((s.modRnd p (fun r => { r with aq := some a })).bindCounter p arr).bindCounter p rel
  else s

/-- CREATE_FOLD_WINDOW (R71 to R73). -/
def handleCreateFoldWindow : Handler := fun ch r s =>
  let p := chanPart ch
  let w := r.payload
  match checkCreateWindow (s.parts[p]) w, (s.parts[p]).net.freeReg with
  | some st, _ => .refuse st
  | none, none => .refuse .tableFull
  | none, some i =>
    let s := s.defineQueue p w
    let id := bits (word w 0) 6 0
    let s := s.modNet p (fun n => n.register i (.window id))
    let s := s.modRnd p (fun r => { r with windows := Table.put r.windows id (readWindow w i) })
    .done .ok [s.rkeyWord p i] s

/-- CREATE_FOLD_WINDOW. -/
def execCreateFoldWindow (ch : Fin 17) (c : Cmd) (s : State) : Host.Outcome State Fault Refusal :=
  .next (s.submit handleCreateFoldWindow 0x0607 ch c)

/-- The round to which a window is bound (R74). -/
def RoundPart.roundOf (x : RoundPart) (win : Nat) : Option Round := x.rounds.find? (fun r => r.wins.contains win)

/-- The round for which a window is LIVE (R74). -/
def RoundPart.live (x : RoundPart) (win : Nat) : Option Round :=
  (x.roundOf win).filter (fun r => !r.opening && r.ending.isNone)

/-- DESTROY_FOLD_WINDOW (R75). -/
def handleDestroyFoldWindow : Handler := fun ch r s =>
  let p := chanPart ch
  let w := word r.payload 0
  let id := bits w 6 0
  if nonZero w 63 7 || id > 63 then .refuse .badParam
  else
    match Table.get? (s.parts[p]).rnd.windows id with
    | none => .refuse .badParam
    | some x =>
      if ((s.parts[p]).rnd.roundOf id).isSome then .refuse .badState
      else
        let s := (s.catchUp p).modNet p (fun n => n.unregister x.reg)
        let drop (y : RoundPart) : RoundPart :=
          let ws := Table.del y.windows id
          { y with windows := ws, aq := if ws.isEmpty then none else y.aq }
        .done .ok [] (s.modRnd p drop)

/-- DESTROY_FOLD_WINDOW. -/
def execDestroyFoldWindow (ch : Fin 17) (c : Cmd) (s : State) : Host.Outcome State Fault Refusal :=
  .next (s.submit handleDestroyFoldWindow 0x0608 ch c)

/-! ## The fold queue (R89) -/

/-- Packets in a partition's fold queue, those that wait there for a context fetch beyond the 64 in flight included (R373). -/
def Partition.queueLevel (q : Partition) : Nat :=
  q.rnd.foldQ.length + (q.net.waiting.filter (fun e => !q.net.fetches.any (fun f => f.1 == e.1))).length

/-- Pause a priority on every link of the partition where PFC is enabled for it, from 768 packets on (R89). -/
def State.pauseLinks (s : State) (p : Fin 16) (prio : Nat) : State :=
  let q := s.parts[p]
  if q.queueLevel < 768 || q.rnd.paused.any (fun e => e.2 == prio) then s
  else
    let ls := (maskList 24 q.linkMask).filter (fun l => (s.links[Fin.ofNat 24 l]).pfcMask.testBit prio)
    let s := ls.foldl (fun s l => s.emitOn (Fin.ofNat 24 l) (.pause l prio true)) s
    s.modRnd p (fun r =>
      { r with paused := r.paused ++ ls.map (fun l => (l, prio)), pausedAt := if r.paused.isEmpty then s.clock else r.pausedAt })

/-- Resume the paused links at 512 packets, and count the time they were held (R89, R95). -/
def State.resumeLinks (s : State) (p : Fin 16) : State :=
  let q := s.parts[p]
  if q.queueLevel > 512 || q.rnd.paused.isEmpty then s
  else
    let s := q.rnd.paused.foldl (fun s e => s.emitOn (Fin.ofNat 24 e.1) (.pause e.1 e.2 false)) s
    (s.modRnd p (fun r => { r with paused := [] })).count (vf p) .foldPauseNs ((s.clock - q.rnd.pausedAt) / ns)

/-- Put a packet into the fold queue. -/
def State.enqueue (s : State) (p : Fin 16) (prio : Nat) (x : QItem) : State :=
  (s.modRnd p (fun r => { r with foldQ := r.foldQ ++ [x] })).pauseLinks p prio

/-! ## The window stage (R82 to R85) -/

/-- What a stage decides about a packet. -/
inductive Verdict where
  /-- Remote Invalid Request NAK. -/
  | invalid
  /-- Remote Access Error NAK. -/
  | access
  /-- Taken: acknowledged. -/
  | taken
  /-- RNR NAK. -/
  | rnr
  /-- Dropped without acknowledgement. -/
  | dropped
  deriving DecidableEq, Repr

/-- Fields of the remote virtual address (R82). -/
def vaWin (va : Nat) : Nat := va / 2 ^ 57 % 2 ^ 7
/-- CLIENT. -/
def vaClient (va : Nat) : Nat := va / 2 ^ 36 % 2 ^ 21
/-- OFFSET. -/
def vaOffset (va : Nat) : Nat := va % 2 ^ 36

/-- A packet with an immediate value (R365). -/
def hasImm : RdmaOp → Bool
  | .writeOnlyImm => true
  | .writeLastImm => true
  | _ => false

/-- An opcode that the window stage takes (R84). -/
def foldOp : RdmaOp → Bool
  | .writeFirst => true
  | .writeMiddle => true
  | .writeLast => true
  | .writeOnly => true
  | .writeOnlyImm => true
  | _ => false

/-- An arrival-queue credit is free (R93), by the release counter's value now. -/
def State.creditFree (s : State) (p : Fin 16) : Bool :=
  let s := s.catchUp p
  match (s.parts[p]).rnd.aq with
  | some a => a.m + a.taken - ((s.counter a.release).value - a.l0) < 2 ^ a.log2
  | none => false

/-- Take one credit for a packet with an immediate. -/
def RoundPart.takeCredit (x : RoundPart) : RoundPart := { x with aq := x.aq.map (fun a => { a with taken := a.taken + 1 }) }

/-- The window stage (R84) for a packet of a message: its verdict, and the state with the packet queued or its refusal counted.
`got` is how much of the message came before it. A packet that would carry the message past its RETH length gets a Remote Access Error NAK,
and a Last packet that leaves it short is taken (DESIGN CHOICE: the table names neither). The client range of a message is tested on each
of its packets (DESIGN CHOICE: the round may have opened after the first, which met a dead window). -/
def State.windowStage (s : State) (p : Fin 16) (i : Nat) (q : Qp) (m : InMsg) (k : Roce) : Verdict × State :=
  let pt := s.parts[p]
  let off := vaOffset m.va
  let naked (v : Verdict) : Verdict × State := (v, s.count (vf p) .foldNak 1)
  if !foldOp k.op then naked .invalid
  else if pt.net.rkey (rkeyIndex m.rkey) != some m.rkey then naked .access
  else
    match Table.get? pt.net.regs (rkeyIndex m.rkey) with
    | some ⟨_, .window id⟩ =>
      match Table.get? pt.rnd.windows id with
      | none => naked .access
      | some w =>
        if vaWin m.va != id then naked .access
        else if q.mtu != 3 || off % 4096 != 0 || m.len = 0 || m.len % 4096 != 0 || (hasImm k.op && m.len != 4096)
            || k.payload.length != 4096 then naked .invalid
        else if off < w.vecOffset || off + m.len > w.vecOffset + w.vecChunks * 4096 || m.got + 4096 > m.len then naked .access
        else
          match pt.rnd.live id with
          | none => (.taken, s.count (vf p) .foldDead 1)
          | some r =>
            let client := vaClient m.va
            if client < r.base || r.base + r.clients ≤ client then naked .access
            else if hasImm k.op && k.imm / 2 ^ 21 != r.tag then (.taken, s.count (vf p) .foldTagMismatch 1)
            else if hasImm k.op && !s.creditFree p then (.rnr, s.count (vf p) .foldRnr 1)
            else if pt.queueLevel ≥ 1024 then (.dropped, s.count (vf p) .foldOverrun 1)
            else
              let x : QItem := .fold id m.rkey client ((off + m.got) / 4096) (if hasImm k.op then some k.imm else none) k.payload i
                ((pt.rnd.aq.map ArrivalQueue.serial).getD 0)
              let s := if hasImm k.op then s.modRnd p RoundPart.takeCredit else s
              (.taken, s.enqueue p q.prio x)
    | _ => naked .access

/-! ## Ledger, bitmap and fold stages (R52, R86 to R88) -/

/-- A packet gives back its credit of an arrival queue without a record; a queue that is no more takes none (R75, R85). -/
def RoundPart.dropCredit (x : RoundPart) (imm : Option Nat) (queue : Nat) : RoundPart :=
  let back (a : ArrivalQueue) : ArrivalQueue := if a.serial = queue then { a with taken := a.taken - 1 } else a
  if imm.isSome then { x with aq := x.aq.map back } else x

/-- The first three rows of R52 with R87: the chunk is late. -/
def Partition.late (q : Partition) (r : Round) (client c : Nat) : Bool :=
  let e := q.rnd.entry client
  e.flags.testBit 4 || (r.closed c && !r.mending c)
    || (r.mending c && decide (e.st = .absent) && !q.rnd.underway r.tag client)

/-- The oldest fold packet of a queue, and the queue without it. -/
def takeFold : List QItem → Option (QItem × List QItem)
  | [] => none
  | x :: xs =>
    match x with
    | .fold _ _ _ _ _ _ _ _ => some (x, xs)
    | .place _ _ _ _ _ _ _ => (takeFold xs).map (fun r => (r.1, x :: r.2))

/-- LEDGER_STAGE (R52, R86, R87): the oldest queued chunk meets its ledger entry. A chunk whose window has died meanwhile is
dropped as for a dead window (R65). -/
def execLedgerStage (p : Fin 16) (s : State) : Host.Outcome State Fault Refusal :=
  .next (
    match takeFold (s.parts[p]).rnd.foldQ with
    | some (.fold win rkey client c imm payload qp queue, rest) =>
      let q := s.parts[p]
      let s := (s.modRnd p (fun x => { x with foldQ := rest })).resumeLinks p
      let current := (Table.get? q.rnd.windows win).bind (fun w => q.net.rkey w.reg)
      match (q.rnd.live win).filter (fun _ => current == some rkey) with
      | none => (s.modRnd p (fun x => x.dropCredit imm queue)).count (vf p) .foldDead 1
      | some r =>
        let late := q.late r client c
        let k : Chunk :=
          { id := q.rnd.nextId, tag := r.tag, win := win, client := client, chunk := c, imm := imm, payload := payload, qp := qp
            stage := if late then 3 else 1, outcome := if late then 2 else 0, mend := r.mending c }
        let s := s.modRnd p (fun x => { x with inFlight := x.inFlight ++ [k], nextId := x.nextId + 1 })
        if late then s.count (vf p) .foldLate 1 else s
    | _ => s)

/-- A chunk in flight at a stage whose predecessors of the same client are past that stage (R86). -/
def RoundPart.turn (x : RoundPart) (i stage : Nat) : Option Chunk :=
  match x.inFlight[i]? with
  | some k =>
    if k.stage = stage && (x.inFlight.take i).all (fun e => e.client != k.client || (stage < 3 && e.stage > stage)) then some k
    else none
  | none => none

/-- Change the chunk at a position. -/
def RoundPart.setChunk (x : RoundPart) (i : Nat) (k : Chunk) : RoundPart := { x with inFlight := setAt x.inFlight i k }

/-- BITMAP_STAGE (R86, R88): a chunk whose bit is set is a duplicate and ends; otherwise the bit is set. -/
def execBitmapStage (p : Fin 16) (i : Nat) (s : State) : Host.Outcome State Fault Refusal :=
  .next (
    match (s.parts[p]).rnd.turn i 1 with
    | some k =>
      match s.round? p k.tag with
      | some r =>
        let pos := k.client - r.base
        let s := s.syncDram p
        if (s.parts[p]).bit r pos k.chunk then
          (s.modRnd p (fun x => x.setChunk i { k with stage := 3, outcome := 1 })).count (vf p) .foldDuplicate 1
        else (s.modPart p (fun q => q.setBit r pos k.chunk)).modRnd p (fun x => x.setChunk i { k with stage := 2 })
      | none => s
    | none => s)

/-- FOLD_STAGE (R77, R86): the chunk is added to its accumulator chunk. -/
def execFoldStage (p : Fin 16) (i : Nat) (s : State) : Host.Outcome State Fault Refusal :=
  .next (
    match (s.parts[p]).rnd.turn i 2 with
    | some k =>
      match Table.get? (s.parts[p]).rnd.windows k.win with
      | some w =>
        ((s.syncDram p).foldChunk p w (k.chunk - w.vecOffset / 4096) false k.payload).modRnd p (fun x => x.setChunk i { k with stage := 3 })
      | none => s
    | none => s)

/-! ## Commit (R43, R53, R86, R92 to R94) -/

/-- The entry of an accepted chunk (R40 to R43, R52, R53). -/
def Partition.acceptEntry (q : Partition) (r : Round) (k : Chunk) (e : LedgerEntry) : LedgerEntry :=
  let n := e.chunks + 1
  let st : ClientState := if n = r.chunks then .complete else if q.missesClosed r (k.client - r.base) then .torn else .arriving
  let claim := k.imm.any (fun v => v.testBit 20)
  let fl := e.flags ||| (if k.mend then 4 else 0) ||| (if claim then 1 else 0) ||| (if claim && n < r.chunks then 8 else 0)
  { e with st := st, chunks := n, flags := fl
           gwHint := if e.chunks = 0 then (if k.qp ≥ 65535 then 0xFFFF else k.qp) else e.gwHint }

/-- What a commit does to the ledger entry and the round's counts (R52, R68, R86). -/
def State.commitEntry (s : State) (p : Fin 16) (r : Round) (k : Chunk) : State :=
  let q := s.parts[p]
  let e := q.rnd.entry k.client
  let put (e : LedgerEntry) (s : State) : State := s.modRnd p (fun x => { x with ledger := Table.put x.ledger k.client e })
  match k.outcome with
  | 0 =>
    let e' := q.acceptEntry r k e
    let early := if e'.flags.testBit 3 && !e.flags.testBit 3 then 1 else 0
    ((put e' s).modRound p r.tag (fun r => { r with accepted := r.accepted + 1, early := r.early + early })).count (vf p)
      .foldAccepted 1
  | 1 => (put { e with flags := e.flags ||| 2 } s).modRound p r.tag (fun r => { r with duplicates := r.duplicates + 1 })
  | _ => (put { e with flags := e.flags ||| 32 } s).modRound p r.tag (fun r => { r with late := r.late + 1 })

/-- The two words of an arrival record (R92). -/
def arrivalRecord (k : Chunk) (imm m : Nat) : List W64 :=
  [w64 (imm * 2 ^ 32 + k.outcome * 2 ^ 29 + k.win * 2 ^ 22 + k.client), w64 (k.chunk * 2 ^ 32 + k.tag * 2 ^ 16 + m % 65536)]

/-- Write the arrival record, then signal the arrival counter (R93, R94). -/
def State.pushRecord (s : State) (p : Fin 16) (k : Chunk) (imm : Nat) : State :=
  match (s.parts[p]).rnd.aq with
  | some a =>
    let s := s.writePartial p (a.addr + a.m % 2 ^ a.log2 * 16) (wordsToBytes (arrivalRecord k imm a.m))
    let s := s.modRnd p (fun x => { x with aq := some { a with m := a.m + 1, taken := a.taken - 1 } })
    s.signalExternal p a.arrival 1 5
  | none => s

/-- COMMIT (R86). One with an arrival record comes after what the running task has signalled and moved by then. -/
def execCommit (p : Fin 16) (i : Nat) (s : State) : Host.Outcome State Fault Refusal :=
  .next (
    match (s.parts[p]).rnd.turn i 3 with
    | some k =>
      let s := if k.imm.isSome then s.present p else s
      let s := s.modRnd p (fun x => { x with inFlight := x.inFlight.filter (fun e => e.id != k.id) })
      match s.round? p k.tag with
      | some r =>
        let s := s.commitEntry p r k
        match k.imm with
        | some v => s.pushRecord p k v
        | none => s
      | none => s
    | none => s)

/-! ## Region placement (R276, R277, R376) -/

/-- Write a region packet: a whole page takes the current epoch, any other write keeps it (R329, R376). -/
def State.placeBytes (s : State) (p : Fin 16) (a : Nat) (b : List Byte) : State :=
  if a % 4096 = 0 && b.length = 4096 then s.writePages p a b else s.writePartial p a b

/-- Chunks of a queue pair are queued ahead of a region packet, or on their way to their commit. -/
def RoundPart.chunksBefore (x : RoundPart) (id qp : Nat) : Bool :=
  x.inFlight.any (fun k => k.qp == qp) ||
    (x.foldQ.takeWhile (fun e => match e with
      | .place i _ _ _ _ _ _ => i != id
      | .fold _ _ _ _ _ _ _ _ => true)).any (fun e => match e with
      | .fold _ _ _ _ _ _ q _ => q == qp
      | .place _ _ _ _ _ _ _ => false)

/-- REGION_PLACEMENT (R376): the oldest region packet is placed, and a counter-mapped region's immediate signals behind it. A packet that
signals waits until every chunk that came earlier on its queue pair has been folded (R276; DESIGN CHOICE: it waits with its payload). -/
def execRegionPlacement (p : Fin 16) (s : State) : Host.Outcome State Fault Refusal :=
  .next (
    match takePlace (s.parts[p]).rnd.foldQ with
    | some (.place id reg addr payload signal qp _, rest) =>
      if signal && (s.parts[p]).rnd.chunksBefore id qp then s
      else
        let s := ((s.syncDram p).modRnd p (fun x => { x with foldQ := rest })).resumeLinks p
        let s := s.placeBytes p addr payload
        let bump (r : Region) : Region := { r with revoking := r.revoking.map (fun v => { v with placed := v.placed + 1 }) }
        let s := s.modNet p (fun n => n.modRegion reg bump)
        match Table.get? (s.parts[p]).net.regs reg with
        | some ⟨_, .region ⟨some c, _, _, _, _⟩⟩ => if signal then s.signalExternal p c 1 6 else s
        | _ => s
    | _ => s)

end Sys2Proof.Machine
end

