-- ==== Sys2Proof/Machine/Recovery.lean ====
section
/-! DEFINITION. Seed recovery (R98 to R121): masks, RECOVER, SUPPLY_SEEDS and SUPPLY_SHARES, recovery tasks and their
corrections, and the recovery deadline. -/

namespace Sys2Proof.Machine

open Sys2Proof.Machine.Crypto

/-! ## Masks (R98, R99) -/

/-- Keystream bytes from a byte position (R98): `n` units of 64 bytes from a 64-byte-aligned position. -/
def keystream (prg : Nat) (seed : List Byte) (unit n : Nat) : List Byte :=
  match prg with
  | 0 => ctrBlocks (aesKeys (seed.take 16)) 0 128 (4 * n) (4 * unit)
  | 1 => ctrBlocks (aesKeys (seed.take 32)) 0 128 (4 * n) (4 * unit)
  | _ => ((List.range n).map (fun i => chachaBlock (seed.take 32) (zeros 12) (unit + i))).flatten

/-- The mask bytes of chunk index `c` (R99). -/
def maskChunk (prg : Nat) (seed : List Byte) (c : Nat) : List Byte := keystream prg seed (64 * c) 64

/-! ## RECOVER (R104 to R106, R118) -/

/-- A table of recovery lies badly (R105): outside DRAM, or over the bitmap region, an accumulator or the arrival queue. Ranges of one round may
share a page (R46). -/
def Partition.tableBad (q : Partition) (r : Round) (a len : Nat) : Bool :=
  a + len > q.dramSize || rangesMeet a len r.bitmapAddr (r.clients * r.bitmapStride)
    || q.rnd.windows.any (fun w => w.2.accMeets a len) || q.aqMeets a len

/-- The refusals of R105 in order, for a round that exists. -/
def checkStart (q : Partition) (r : Round) (w : List W64) : Option Status :=
  let t := bits (word w 0) 47 32
  let pk := bitAt (word w 2) 63
  if r.opening || r.recovery.isSome || r.ending.isSome then some .badState
  else if t > 1024 then some .badParam
  else if q.tableBad r (bits (word w 1) 38 0) r.seedTableSize || (pk && q.tableBad r (bits (word w 2) 38 0) (32 * r.clients)) then
    some .badParam
  else if r.explicit && !pk && t != 0 then some .paramMismatch
  else none

/-- RECOVER with OP START (R104, R105). PK_TABLE is reserved while PK_PRESENT is 0 (R4). -/
def handleRecoverStart : Handler := fun ch r s =>
  let p := chanPart ch
  let w := r.payload
  if nonZero (word w 0) 63 48 || nonZero (word w 0) 31 18 || nonZero (word w 0) 15 11 || nonZero (word w 1) 63 39
      || nonZero (word w 2) 62 39 || (!bitAt (word w 2) 63 && nonZero (word w 2) 38 0) then .refuse .badParam
  else if w.length != 7 then .refuse .badLength
  else if bits (word w 0) 47 32 > 1024 || bits (word w 1) 38 0 % 64 != 0 || bits (word w 2) 38 0 % 64 != 0 then .refuse .badParam
  else
    match s.round? p (bits (word w 0) 10 0) with
    | none => .refuse .badParam
    | some x =>
      match checkStart (s.parts[p]) x w with
      | some st => .refuse st
      | none =>
        let k : Recovery :=
          { threshold := bits (word w 0) 47 32, seedTable := bits (word w 1) 38 0
            pk := if bitAt (word w 2) 63 then some (bits (word w 2) 38 0) else none
            salt := wordsToBytes ((w.drop 3).take 4), lastSeeds := none, lastShares := none, self := [], pair := [], keys := []
            badPoint := [], selfDone := [], pairDone := [] }
        .done .ok [] ((s.modRound p x.tag (fun r => { r with recovery := some k })).roundProgress p x.tag)

/-- A missing secret as W0 of R109. -/
def secretWord : Secret → W64
  | .self i => w64 i
  | .pair lo hi => w64 (2 ^ 62 + hi * 2 ^ 32 + lo)

/-- The missing secrets in ascending order of KIND, LO, HI (R118). -/
def Partition.missing (q : Partition) (r : Round) : List Secret :=
  (q.missingSelf r r.finals).map Secret.self ++ (q.missingPair r r.finals).map (fun e => Secret.pair e.1 e.2)

/-- RECOVER with OP NEEDS (R118). It uses no THRESHOLD (R4). -/
def handleRecoverNeeds : Handler := fun ch r s =>
  let p := chanPart ch
  let w := r.payload
  let max := bits (word w 1) 43 32
  let cursor := bits (word w 1) 31 0
  if nonZero (word w 0) 63 32 || nonZero (word w 0) 31 18 || nonZero (word w 0) 15 11 || nonZero (word w 1) 63 44 then
    .refuse .badParam
  else if w.length != 2 then .refuse .badLength
  else if max = 0 || max > 4093 then .refuse .badParam
  else
    match s.round? p (bits (word w 0) 10 0) with
    | none => .refuse .badParam
    | some x =>
      if !x.ranges.any ClosedRange.final then .refuse .badState
      else
        let q := (s.syncDram p).parts[p]
        let all := q.missing x
        let next := if cursor + max < all.length then cursor + max else 0xFFFFFFFF
        .done .ok (q.missingWord x x.finals :: (((all.drop cursor).take max).map secretWord ++ [w64 next])) s

/-- RECOVER by its OP field. A command that reads DRAM waits for placement (R378). -/
def handleRecover : Handler := fun ch r s =>
  match bits (word r.payload 0) 17 16 with
  | 0 => if s.placed (chanPart ch) r then handleRecoverStart ch r s else .hold .retry s
  | 1 => if s.placed (chanPart ch) r then handleRecoverNeeds ch r s else .hold .retry s
  | _ => .refuse .badParam

/-- RECOVER_START. -/
def execRecoverStart (ch : Fin 17) (c : Cmd) (s : State) : Host.Outcome State Fault Refusal :=
  .next (s.submit handleRecover 0x0305 ch (cmdSel c 0 17 16 0))

/-- RECOVER_NEEDS. -/
def execRecoverNeeds (ch : Fin 17) (c : Cmd) (s : State) : Host.Outcome State Fault Refusal :=
  .next (s.submit handleRecover 0x0305 ch (cmdSel c 0 17 16 1))

/-! ## Supplying material (R107 to R111) -/

/-- A seed record (R109). -/
structure SeedRecord where
  pair : Bool
  hi : Nat
  lo : Nat
  seed : List Byte
  deriving DecidableEq, Repr

/-- Read whole seed records; none where one breaks R109. -/
def readSeeds : Nat → List W64 → Option (List SeedRecord)
  | 0, ws => if ws.isEmpty then some [] else none
  | n + 1, ws =>
    let h := word ws 0
    let k := bits h 63 62
    let r : SeedRecord := ⟨k == 1, bits h 52 32, bits h 20 0, wordsToBytes ((ws.drop 1).take 4)⟩
    if ws.length < 5 || k > 1 || nonZero h 61 53 || nonZero h 31 21 || (if r.pair then r.lo ≥ r.hi else r.hi != 0) then none
    else (readSeeds n (ws.drop 5)).map (r :: ·)

/-- No two numbers of a list are equal. -/
def allDistinct : List Nat → Bool
  | [] => true
  | x :: xs => !xs.contains x && allDistinct xs

/-- Words of a share bundle by its header (R110). -/
def bundleWords (h : W64) : Nat := 1 + 5 * bits h 58 48

/-- Cut words into share bundles; none where the last one does not end with the words. -/
def cutBundles : Nat → List W64 → Option (List (List W64))
  | 0, ws => if ws.isEmpty then some [] else none
  | n + 1, ws =>
    if ws.isEmpty then some []
    else if ws.length < bundleWords (word ws 0) then none
    else (cutBundles n (ws.drop (bundleWords (word ws 0)))).map (ws.take (bundleWords (word ws 0)) :: ·)

/-- Read one bundle; none where it breaks R110. -/
def readBundle (t : Nat) (ws : List W64) : Option Bundle :=
  let h := word ws 0
  let n := bits h 58 48
  let es := chop 5 n (ws.drop 1)
  let b : Bundle := ⟨bits h 63 62, bits h 20 0, es.map (fun e => (bits (word e 0) 15 0, wordsToBytes (e.drop 1)))⟩
  if b.kind > 1 || nonZero h 61 59 || nonZero h 47 21 || n < t || n > 1024 || es.any (fun e => nonZero (word e 0) 63 16)
      || b.shares.any (fun e => e.1 == 0) || !allDistinct (b.shares.map Prod.fst) then none
  else some b

/-- Read every bundle. -/
def readBundles (t : Nat) : List (List W64) → Option (List Bundle)
  | [] => some []
  | b :: bs =>
    match readBundle t b, readBundles t bs with
    | some x, some xs => some (x :: xs)
    | _, _ => none

/-- Reserved fields of a supply command (R108), those of the other form among them (R4). -/
def supplyReserved (w : List W64) : Bool :=
  (if bitAt (word w 0) 11 then nonZero (word w 0) 47 32 else word w 1 != 0 || word w 2 != 0 || word w 3 != 0)
    || nonZero (word w 0) 63 48 || nonZero (word w 0) 31 12 || nonZero (word w 1) 63 32 || nonZero (word w 2) 63 39
    || nonZero (word w 3) 63 32

/-- The payload length of a supply command fits its form (R108). -/
def supplyLength (shares : Bool) (w : List W64) : Bool :=
  let n := bits (word w 0) 47 32
  if bitAt (word w 0) 11 then w.length == 4
  else if shares then (cutBundles n (w.drop 4)).any (fun l => l.length == n)
  else w.length == 4 + 5 * n

/-- A value of a supply command is out of range (R108), or ASYNC is set on an inline command (R431). -/
def supplyRange (q : Partition) (shares : Bool) (r : Req) : Bool :=
  let w := r.payload
  let n := bits (word w 0) 47 32
  let a := bits (word w 2) 38 0
  let len := bits (word w 3) 31 0
  if bitAt (word w 0) 11 then
    a % 64 != 0 || len < 16 || len % 8 != 0 || len > 2 ^ 28 || a + len > q.dramSize
  else n = 0 || (!shares && n > 1636) || r.async

/-- K_mat (R107). -/
def materialKey (session salt : List Byte) : List Byte := hkdf sha256Kind session salt (ascii "skv9032 material") 32

/-- The nonce of a batch (R107). -/
def batchNonce (p : Fin 16) (tag batch kind : Nat) : List Byte := leBytes 2 p.val ++ leBytes 2 tag ++ leBytes 4 batch ++ leBytes 4 kind

/-- The words of a supply command's records: inline, or a memory batch opened under K_mat; none where its tag fails. -/
def State.supplyWords (s : State) (p : Fin 16) (k : Recovery) (shares : Bool) (w : List W64) : Option (List W64) :=
  if !bitAt (word w 0) 11 then some (w.drop 4)
  else
    let len := bits (word w 3) 31 0 - 16
    let b := ((s.syncDram p).parts[p]).dram.readN (bits (word w 2) 38 0) (len + 16)
    let key := materialKey ((s.keyAt (partSlot p 0)).getD []) k.salt
    let nonce := batchNonce p (bits (word w 0) 10 0) (bits (word w 1) 31 0) (if shares then 2 else 1)
    (gcmOpen key nonce [] (b.take len) (b.drop len)).map (bytesToWords (len / 8))

/-- A batch number that is not above the last accepted one of its kind (R107, R111). -/
def batchOld (last : Option Nat) (w : List W64) : Bool :=
  bitAt (word w 0) 11 && last.any (fun n => bits (word w 1) 31 0 ≤ n)

/-- Handle seed records in order until one conflicts (R111). -/
def State.takeSeeds (s : State) (p : Fin 16) (tag : Nat) (k : Supply) : List SeedRecord → Bool × Supply × State
  | [] => (false, k, s)
  | x :: xs =>
    match s.round? p tag with
    | some r =>
      let (t, s) := if x.pair then s.holdPair p r x.lo x.hi x.seed else s.holdSelf p r x.lo x.seed
      if t = .conflict then (true, k, s.endRound p tag (.torn 1)) else s.takeSeeds p tag (k.add t) xs
    | none => (false, k, s)

/-- The reply words of a supply command (R111). -/
def Supply.words (k : Supply) : List W64 := [w64 (k.duplicates * 2 ^ 32 + k.held), w64 (k.inconsistent * 2 ^ 32 + k.discarded)]

/-- The batch number accepted last, after this command. -/
def lastBatch (old : Option Nat) (w : List W64) : Option Nat := if bitAt (word w 0) 11 then some (bits (word w 1) 31 0) else old

/-- SUPPLY_SEEDS (R107 to R109, R111). -/
def handleSupplySeeds : Handler := fun ch r s =>
  let p := chanPart ch
  let w := r.payload
  let tag := bits (word w 0) 10 0
  if supplyReserved w then .refuse .badParam
  else if !supplyLength false w then .refuse .badLength
  else if supplyRange (s.parts[p]) false r then .refuse .badParam
  else if !s.placed p r then .hold .retry s
  else
    match s.round? p tag with
    | none => .refuse .badParam
    | some x =>
      match x.recovery with
      | none => .refuse .badState
      | some k =>
        if x.ending.isSome then .refuse .badState
        else
          match s.supplyWords p k false w with
          | none => .refuse .authFailed
          | some ws =>
            match readSeeds (ws.length / 5) ws with
            | none => .refuse .badParam
            | some rs =>
              if batchOld k.lastSeeds w then .refuse .duplicate
              else
                let s := s.modRecovery p tag (fun k => { k with lastSeeds := lastBatch k.lastSeeds w })
                let (torn, c, s) := s.takeSeeds p tag ⟨0, tag, 0, 0, 0, 0, 0, []⟩ rs
                if torn then .done .roundTorn c.words s
                else .done .ok c.words (((s.materialCheck p tag).roundProgress p tag).judgeOverdue p tag)

/-- SUPPLY_SEEDS. -/
def execSupplySeeds (ch : Fin 17) (c : Cmd) (s : State) : Host.Outcome State Fault Refusal :=
  .next (s.submit handleSupplySeeds 0x0303 ch c)

/-- Have the seed units reconstruct the admitted bundles of a SUPPLY_SHARES (R111, R114). -/
def State.startShares (s : State) (p : Fin 16) (r : Round) (bs : List Bundle) : Handled :=
  let id := (s.parts[p]).rnd.nextSupply
  let good := bs.filter (fun b => r.has b.owner)
  let k : Supply := ⟨id, r.tag, 0, 0, bs.length - good.length, 0, good.length, []⟩
  if good.isEmpty then .done .ok k.words s
  else
    let js := good.map (fun b => (⟨r.tag, .rebuild id b, s.clock, none, 0⟩ : SeedJob))
    let s := s.modRnd p (fun x =>
      { x with nextSupply := id + 1, supplies := x.supplies ++ [k], seedJobs := x.seedJobs ++ js })
    .hold (.seedUnits id) (s.assignSeedJobs p)

/-- SUPPLY_SHARES (R107, R108, R110 to R112). -/
def handleSupplyShares : Handler := fun ch r s =>
  let p := chanPart ch
  let w := r.payload
  let tag := bits (word w 0) 10 0
  if supplyReserved w then .refuse .badParam
  else if !supplyLength true w then .refuse .badLength
  else if supplyRange (s.parts[p]) true r then .refuse .badParam
  else if !s.placed p r then .hold .retry s
  else
    match s.round? p tag with
    | none => .refuse .badParam
    | some x =>
      match x.recovery with
      | none => .refuse .badState
      | some k =>
        if x.ending.isSome then .refuse .badState
        else
          match s.supplyWords p k true w with
          | none => .refuse .authFailed
          | some ws =>
            if k.threshold = 0 then .refuse .badState
            else
              match (cutBundles ws.length ws).bind (readBundles k.threshold) with
              | none => .refuse .badParam
              | some bs =>
                if batchOld k.lastShares w then .refuse .duplicate
                else (s.modRecovery p tag (fun k => { k with lastShares := lastBatch k.lastShares w })).startShares p x bs

/-- SUPPLY_SHARES. -/
def execSupplyShares (ch : Fin 17) (c : Cmd) (s : State) : Host.Outcome State Fault Refusal :=
  .next (s.submit handleSupplyShares 0x0304 ch c)

/-! ## Recovery tasks (R116, R117) -/

/-- The value of a held secret. -/
def Recovery.value (k : Recovery) : Secret → Option (List Byte)
  | .self i => Table.get? k.self i
  | .pair lo hi => Table.get? k.pair (pairKey lo hi)

/-- Recovery tasks of a round that wait in a cassette or run. -/
def Partition.recoveryTasks (q : Partition) (tag : Nat) : List RecTask :=
  (q.job.cassettes ++ q.job.running.toList.map Running.what).filterMap (fun x => match x with
    | .recovery t => if t.tag = tag then some t else none
    | .tenant _ => none)

/-- Jobs of a chunk index that can be done now: their secrets are held and not yet applied there. -/
def Partition.openJobs (q : Partition) (r : Round) (k : Recovery) (c : Nat) : List (Secret × Bool) :=
  (q.jobs r c).filter (fun j => (k.value j.1).isSome && !k.applied j.1 c)

/-- A rank of secrets by KIND, LO, HI. -/
def Secret.rank : Secret → Nat
  | .self i => i
  | .pair lo hi => 2 ^ 63 + pairKey lo hi

/-- Secrets of some jobs in rising order, each once. -/
def secretsOf (js : List (Secret × Bool)) : List Secret :=
  (rising (dedup (js.map (fun j => j.1.rank)))).filterMap (fun n => (js.find? (fun j => j.1.rank == n)).map Prod.fst)

/-- Consecutive final chunk indices from `c` on. -/
def Round.sliceFrom (r : Round) (c : Nat) : Nat → List Nat
  | 0 => []
  | n + 1 => if r.isFinal c then c :: r.sliceFrom (c + 1) n else []

/-- Those of them that no recovery task has yet: each job is part of one task (R116). -/
def Partition.freeJobs (q : Partition) (r : Round) (k : Recovery) (c : Nat) : List (Secret × Bool) :=
  (q.openJobs r k c).filter (fun j => !(q.recoveryTasks r.tag).any (fun t => t.slice.contains c && t.block.contains j.1))

/-- The next recovery task of a round (R116): the lowest final chunk indices with work, up to 16 in a row, and the first
65,536 held secrets that they need. -/
def Partition.roundTask (q : Partition) (r : Round) : Option RecTask :=
  match r.recovery with
  | some k =>
    match r.finals.find? (fun c => !(q.freeJobs r k c).isEmpty) with
    | some c =>
      let slice := r.sliceFrom c 16
      let block := (secretsOf ((slice.map (q.freeJobs r k)).flatten)).take 65536
      let j := ((slice.map (fun c => ((q.freeJobs r k c).filter (fun j => block.contains j.1)).length))).foldl (· + ·) 0
      some ⟨r.tag, slice, block, ceilDiv ((if r.prg = 2 then 128 else 64) * j) (8 * q.stacks) + 128, 0⟩
    | none => none
  | none => none

/-- The next recovery task of a partition. -/
def Partition.nextRecovery (q : Partition) : Option RecTask :=
  (q.rnd.rounds.filter (fun r => r.ending.isNone && !r.opening)).findSome? q.roundTask

/-- The window that covers a chunk index of a round. -/
def Partition.windowFor (q : Partition) (r : Round) (c : Nat) : Option Window :=
  (q.roundWindows r).find? (fun w => w.vecOffset ≤ c * 4096 && c * 4096 < w.vecOffset + w.vecChunks * 4096)

/-- Apply one job (R101, R117): the mask of a secret combined with the accumulator chunk. -/
def State.applyJob (s : State) (p : Fin 16) (r : Round) (k : Recovery) (c : Nat) (j : Secret × Bool) : State :=
  match k.value j.1, (s.parts[p]).windowFor r c with
  | some v, some w =>
    let s := s.foldChunk p w (c - w.vecOffset / 4096) j.2 (maskChunk r.prg v c)
    s.modRecovery p r.tag (fun k =>
      match j.1 with
      | .self i => { k with selfDone := Table.put k.selfDone i (RangeSet.add ((Table.get? k.selfDone i).getD []) c (c + 1)) }
      | .pair lo hi =>
        let x := pairKey lo hi
        { k with pairDone := Table.put k.pairDone x (RangeSet.add ((Table.get? k.pairDone x).getD []) c (c + 1)) })
  | _, _ => s

/-- The corrections of a finished recovery task (R117). -/
def State.applyTask (s : State) (p : Fin 16) (t : RecTask) : State :=
  match s.round? p t.tag with
  | some r =>
    match r.recovery with
    | some k =>
      if r.ending.isSome then s
      else
        let s := t.slice.foldl (fun s c =>
          ((s.parts[p]).openJobs r k c).foldl (fun s j => if t.block.contains j.1 then s.applyJob p r k c j else s) s) s
        s.roundProgress p t.tag
    | none => s
  | none => s

/-! ## The deadline (R120) -/

/-- RECOVERY_DEADLINE (R120): the deadline of a range passes. It is judged at once, or when the last supply command accepted before it is
finished. -/
def execRecoveryDeadline (p : Fin 16) (tag i : Nat) (s : State) : Host.Outcome State Fault Refusal :=
  .next (
    match s.round? p tag with
    | some r =>
      match r.range? i with
      | some x =>
        match x.deadline with
        | some t =>
          if r.ending.isSome then s
          else
            let s := s.advance t
            if s.supplyPending p tag t then s.modRound p tag (fun r => r.modRange i (fun x => { x with overdue := true }))
            else s.judgeRange p tag i x
        | none => s
      | none => s
    | none => s)

end Sys2Proof.Machine
end

