-- ==== Sys2Proof/Machine/Ctl.lean ====
section
/-! DEFINITION. The ctl instructions (R15, R129, R130). -/

namespace Sys2Proof.Machine

/-- Write a scalar register (R122). -/
def State.setReg (s : State) (i : Issue) (d : Nat) (v : W64) : State :=
  s.modCore i.c i.k (fun x => { x with a := setAt x.a d v })

/-- A scalar register that a field of the instruction names. -/
def State.regWord (s : State) (i : Issue) (hi lo : Nat) : W64 := (s.core i.c i.k).reg (nfield i.v hi lo)

/-- Issue a ctl instruction, which occupies its engine for one cycle (R129). -/
def State.ctl (s : State) (c : Fin 32) (k : Fin 8) (op : Nat) (run : Issue → State → State) : State :=
  s.issue c k 0 7 op (fun i s => run i (s.meter i.p 7 i.t 1))

/-- CTL_END (R129, R162). -/
def execCtlEnd (c : Fin 32) (k : Fin 8) (s : State) : Host.Outcome State Fault Refusal :=
  .next (s.ctl c k 0 (fun i s => s.modCore c k (fun x => { x with ended := some (i.t, nfield i.v 7 0) })))

/-- CTL_LI: aD = IMM × 2^(16 × SH). -/
def execCtlLi (c : Fin 32) (k : Fin 8) (s : State) : Host.Outcome State Fault Refusal :=
  .next (s.ctl c k 1 (fun i s => s.setReg i (nfield i.v 23 19) (w64 (nfield i.v 15 0 * 2 ^ (16 * nfield i.v 18 17)))))

/-- CTL_ADD: aD = aS + aT modulo 2^64. -/
def execCtlAdd (c : Fin 32) (k : Fin 8) (s : State) : Host.Outcome State Fault Refusal :=
  .next (s.ctl c k 2 (fun i s => s.setReg i (nfield i.v 23 19) (s.regWord i 18 14 + s.regWord i 13 9)))

/-- CTL_SUB: aD = aS − aT modulo 2^64. -/
def execCtlSub (c : Fin 32) (k : Fin 8) (s : State) : Host.Outcome State Fault Refusal :=
  .next (s.ctl c k 3 (fun i s => s.setReg i (nfield i.v 23 19) (s.regWord i 18 14 - s.regWord i 13 9)))

/-- CTL_ADDI: aD = aS + IMM, IMM a signed number of 14 bits. -/
def execCtlAddi (c : Fin 32) (k : Fin 8) (s : State) : Host.Outcome State Fault Refusal :=
  .next (s.ctl c k 4 (fun i s =>
    s.setReg i (nfield i.v 23 19) (s.regWord i 18 14 + (BitVec.ofNat 14 (nfield i.v 13 0)).signExtend 64)))

/-- CTL_SHL: aD = aS shifted left by N. -/
def execCtlShl (c : Fin 32) (k : Fin 8) (s : State) : Host.Outcome State Fault Refusal :=
  .next (s.ctl c k 5 (fun i s => s.setReg i (nfield i.v 23 19) (s.regWord i 18 14 <<< nfield i.v 5 0)))

/-- Write a loop counter (R122). -/
def State.setLoop (s : State) (i : Issue) (n v : Nat) : State :=
  s.modCore i.c i.k (fun x => { x with l := setAt x.l n (v % 2 ^ 32) })

/-- CTL_SETL: lN = IMM, or aS[31:0]. -/
def execCtlSetl (c : Fin 32) (k : Fin 8) (s : State) : Host.Outcome State Fault Refusal :=
  .next (s.ctl c k 6 (fun i s =>
    s.setLoop i (nfield i.v 23 21) (if nfield i.v 20 20 = 0 then nfield i.v 19 0 else (s.regWord i 19 15).toNat)))

/-- The bundle that a signed displacement of 16 bits names (R129): the pointer has 13 bits, and 2^16 is a multiple of
2^13. -/
def branchTo (ptr rel : Nat) : Nat := (ptr + rel) % 8192

/-- CTL_LOOP (R129, R130): the counter goes down by one, from 0 to 0xFFFF_FFFF, and while it is not 0 the branch is taken. -/
def execCtlLoop (c : Fin 32) (k : Fin 8) (s : State) : Host.Outcome State Fault Refusal :=
  .next (s.ctl c k 7 (fun i s =>
    let n := nfield i.v 23 21
    let v := ((s.core c k).l.getD n 0 + 2 ^ 32 - 1) % 2 ^ 32
    let s := s.setLoop i n v
    if v = 0 then s else s.modCore c k (fun x => { x with nextPtr := branchTo x.ptr (nfield i.v 15 0) })))

/-- CTL_IDLE: the next bundle issues N cycles after this one. -/
def execCtlIdle (c : Fin 32) (k : Fin 8) (s : State) : Host.Outcome State Fault Refusal :=
  .next (s.ctl c k 8 (fun i s =>
    s.modCore c k (fun x => { x with nextAt := Nat.max x.nextAt (i.t + nfield i.v 19 0) })))

/-- CTL_MODE (R15): a change of mode costs 16 cycles, from the end of the engine's occupancy. -/
def execCtlMode (c : Fin 32) (k : Fin 8) (s : State) : Host.Outcome State Fault Refusal :=
  .next (s.ctl c k 9 (fun i s =>
    s.modEng c k (fun e =>
      if e.tensor = (nfield i.v 0 0 == 1) then e
      else { e with tensor := nfield i.v 0 0 == 1, free := Nat.max e.free i.t + 16 })))

end Sys2Proof.Machine
end

