-- ==== Sys2Proof/Machine/RingOps.lean ====
section
/-! DEFINITION. The ring instructions (R133, R134, R169 to R180). -/

namespace Sys2Proof.Machine

/-! ## Operands -/

/-- Two ranges of bytes have a byte in common. -/
def meetBytes (a la b lb : Nat) : Bool := la > 0 && lb > 0 && a < b + lb && b < a + la

/-- The first bad store operand of some local-store ranges. -/
def badOperands : List (Nat × Nat) → Option (Nat × Nat)
  | [] => none
  | (a, len) :: rest => (badOperand .core 64 a len).or (badOperands rest)

/-- Issue a ring instruction: a fault in tensor mode (R134, R166), or on a bad operand; otherwise it occupies the engine. -/
def State.ring (s : State) (c : Fin 32) (k : Fin 8) (op : Nat) (occ : Issue → Nat) (ranges : Issue → State → List (Nat × Nat))
    (run : Issue → State → State) : State :=
  s.issue c k 2 1 op (fun i s =>
    if (s.core c k).eng.tensor then s.fault i .badParam 4 0
    else
      match badOperands (ranges i s) with
      | some (kind, a) => s.fault i .badParam kind a
      | none => run i ((s.meter i.p 1 i.t (occ i)).modEng c k (fun e => { e with free := i.t + occ i })))

/-- log2 N of an instruction (R133). -/
def Issue.logN (i : Issue) : Nat := logNOf (nfield i.v 31 30)

/-- Bytes of a vector of an instruction (R169). -/
def Issue.vec (i : Issue) : Nat := 8 * 2 ^ i.logN

/-- The modulus and root that an instruction works under: none where its slot is not VALID or its N exceeds what the slot
serves (R174). -/
def State.ringSlot (s : State) (i : Issue) : Option (Nat × Nat × Nat) :=
  match Table.get? (s.core i.c i.k).eng.slots (nfield i.v 38 32) with
  | some (.valid q psi l _ _ _) => if i.logN ≤ l then some (q, psi, l) else none
  | _ => none

/-- Read a vector as numbers. -/
def State.readVec (s : State) (i : Issue) (a : Nat) : List Nat × State :=
  let (b, s) := s.readStore i .core a i.vec
  (wordNats b, s)

/-- `n` values without a stated result, each below a bound. -/
def State.freshBelow (s : State) (bound n : Nat) : List Nat × State :=
  ((List.range n).map (fun i => Config.freeValue (s.free + i) % bound), { s with free := s.free + n })

/-- Write the destination vector of an instruction, visible at the end of its latency: zeros where the slot does not serve it
(R174), undefined values below `bound q` where its operands overlap as they must not (R179), and the result otherwise. -/
def State.writeVec (s : State) (i : Issue) (lat : Nat) (legal : Bool) (bound : Nat → Nat)
    (f : Nat → Nat → Nat → State → List Nat × State) : State :=
  let rd := s.regNat i 53 49
  let (ws, s) := match s.ringSlot i with
    | none => (List.replicate (2 ^ i.logN) 0, s)
    | some (q, psi, l) => if legal then f q psi l s else s.freshBelow (bound q) (2 ^ i.logN)
  s.writeStore i 2 (i.t + lat) .core rd (natsBytes ws)

/-! ## Transforms (R177) -/

/-- Cycles of a transform (R134). -/
def Issue.nttCycles (i : Issue) : Nat := 2 ^ i.logN / 2 * i.logN / 128 + 40

/-- RD and RA as whole vectors. -/
def rangesDA (i : Issue) (s : State) : List (Nat × Nat) := [(s.regNat i 53 49, i.vec), (s.regNat i 48 44, i.vec)]

/-- RD may equal RA or be clear of it (R179). -/
def State.clearDA (s : State) (i : Issue) : Bool :=
  s.regNat i 53 49 == s.regNat i 48 44 || !meetBytes (s.regNat i 53 49) i.vec (s.regNat i 48 44) i.vec

/-- RING_NTT (R176, R177). -/
def execRingNtt (c : Fin 32) (k : Fin 8) (s : State) : Host.Outcome State Fault Refusal :=
  .next (s.ring c k 1 Issue.nttCycles rangesDA (fun i s =>
    s.writeVec i i.nttCycles (s.clearDA i) id (fun q psi l s =>
      let (a, s) := s.readVec i (s.regNat i 48 44)
      (nttFwd q (psiFor q psi l i.logN) i.logN (a.map (· % q)), s))))

/-- RING_INTT (R176, R177). -/
def execRingIntt (c : Fin 32) (k : Fin 8) (s : State) : Host.Outcome State Fault Refusal :=
  .next (s.ring c k 2 Issue.nttCycles rangesDA (fun i s =>
    s.writeVec i i.nttCycles (s.clearDA i) id (fun q psi l s =>
      let (a, s) := s.readVec i (s.regNat i 48 44)
      (nttInv q (psiFor q psi l i.logN) i.logN (a.map (· % q)), s))))

/-! ## Pointwise instructions (R176) -/

/-- Cycles of a pointwise instruction's occupancy (R134). -/
def Issue.pwCycles (i : Issue) : Nat := 2 ^ i.logN / 128

/-- RD, RA and RB as whole vectors. -/
def rangesDAB (i : Issue) (s : State) : List (Nat × Nat) := rangesDA i s ++ [(s.regNat i 43 39, i.vec)]

/-- RD may equal RA, RB or both, or be clear of them (R179). -/
def State.clearDAB (s : State) (i : Issue) : Bool :=
  s.clearDA i && (s.regNat i 53 49 == s.regNat i 43 39 || !meetBytes (s.regNat i 53 49) i.vec (s.regNat i 43 39) i.vec)

/-- RING_ADD. -/
def execRingAdd (c : Fin 32) (k : Fin 8) (s : State) : Host.Outcome State Fault Refusal :=
  .next (s.ring c k 3 Issue.pwCycles rangesDAB (fun i s =>
    s.writeVec i (i.pwCycles + 8) (s.clearDAB i) id (fun q _ _ s =>
      let (a, s) := s.readVec i (s.regNat i 48 44)
      let (b, s) := s.readVec i (s.regNat i 43 39)
      (zip2 (fun x y => (x + y) % q) a b, s))))

/-- RING_SUB. -/
def execRingSub (c : Fin 32) (k : Fin 8) (s : State) : Host.Outcome State Fault Refusal :=
  .next (s.ring c k 4 Issue.pwCycles rangesDAB (fun i s =>
    s.writeVec i (i.pwCycles + 8) (s.clearDAB i) id (fun q _ _ s =>
      let (a, s) := s.readVec i (s.regNat i 48 44)
      let (b, s) := s.readVec i (s.regNat i 43 39)
      (zip2 (subWord q) a b, s))))

/-- RING_MUL. -/
def execRingMul (c : Fin 32) (k : Fin 8) (s : State) : Host.Outcome State Fault Refusal :=
  .next (s.ring c k 5 Issue.pwCycles rangesDAB (fun i s =>
    s.writeVec i (i.pwCycles + 12) (s.clearDAB i) id (fun q _ _ s =>
      let (a, s) := s.readVec i (s.regNat i 48 44)
      let (b, s) := s.readVec i (s.regNat i 43 39)
      (zip2 (fun x y => x % q * (y % q) % q) a b, s))))

/-- RING_MAC: RD += RA × RB. -/
def execRingMac (c : Fin 32) (k : Fin 8) (s : State) : Host.Outcome State Fault Refusal :=
  .next (s.ring c k 6 Issue.pwCycles rangesDAB (fun i s =>
    s.writeVec i (i.pwCycles + 12) (s.clearDAB i) id (fun q _ _ s =>
      let (d, s) := s.readVec i (s.regNat i 53 49)
      let (a, s) := s.readVec i (s.regNat i 48 44)
      let (b, s) := s.readVec i (s.regNat i 43 39)
      (zip2 (fun d y => (d % q + y) % q) d (zip2 (fun x y => x % q * (y % q)) a b), s))))

/-- RD and RA as vectors, and the word at RB. -/
def rangesDAs (i : Issue) (s : State) : List (Nat × Nat) := rangesDA i s ++ [(s.regNat i 43 39, 8)]

/-- RING_MULC: by the word at RB, read once at issue. -/
def execRingMulc (c : Fin 32) (k : Fin 8) (s : State) : Host.Outcome State Fault Refusal :=
  .next (s.ring c k 7 Issue.pwCycles rangesDAs (fun i s =>
    s.writeVec i (i.pwCycles + 12)
      (s.clearDA i && (s.regNat i 53 49 == s.regNat i 43 39 || !meetBytes (s.regNat i 53 49) i.vec (s.regNat i 43 39) 8)) id
      (fun q _ _ s =>
        let (a, s) := s.readVec i (s.regNat i 48 44)
        let (b, s) := s.readStore i .core (s.regNat i 43 39) 8
        (a.map (fun x => x % q * (leNat b % q) % q), s))))

/-- RING_BCE: fixed-point base-conversion estimates added to plain words. -/
def execRingBce (c : Fin 32) (k : Fin 8) (s : State) : Host.Outcome State Fault Refusal :=
  .next (s.ring c k 8 Issue.pwCycles rangesDA (fun i s =>
    s.writeVec i (i.pwCycles + 12) (s.clearDA i) (fun _ => 2 ^ 64) (fun q _ _ s =>
      let (d, s) := s.readVec i (s.regNat i 53 49)
      let (a, s) := s.readVec i (s.regNat i 48 44)
      (zip2 (bceWord q) d a, s))))

/-- RING_AUTO (R178). -/
def execRingAuto (c : Fin 32) (k : Fin 8) (s : State) : Host.Outcome State Fault Refusal :=
  .next (s.ring c k 9 Issue.pwCycles rangesDA (fun i s =>
    s.writeVec i (i.pwCycles + 40) (!meetBytes (s.regNat i 53 49) i.vec (s.regNat i 48 44) i.vec) id (fun q _ _ s =>
      let (a, s) := s.readVec i (s.regNat i 48 44)
      (permuted i.logN (autoPos i.logN (nfield i.v 29 13)) (a.map (· % q)), s))))

/-! ## Basis entries and comparison (R172, R176) -/

/-- The entries of ring.ldb and its status words. -/
def rangesLdb (i : Issue) (s : State) : List (Nat × Nat) :=
  [(s.regNat i 48 44, 64 * nfield i.v 29 23), (s.regNat i 53 49, 8 * nfield i.v 29 23)]

/-- RING_LDB (R172): the slots take their entries, and a status word for each is written. -/
def execRingLdb (c : Fin 32) (k : Fin 8) (s : State) : Host.Outcome State Fault Refusal :=
  .next (s.ring c k 10 (fun i => 24 * nfield i.v 29 23) rangesLdb (fun i s =>
    let n := nfield i.v 29 23
    let (b, s) := s.readStore i .core (s.regNat i 48 44) (64 * n)
    let es := (List.range n).map (fun j => entrySlot (bytesToWords 8 (b.drop (64 * j))))
    let s := s.modEng c k (fun e =>
      { e with slots := (List.range n).foldl (fun t j => Table.put t (nfield i.v 38 32 + j) (es.getD j .rejected)) e.slots })
    s.writeStore i 2 (i.t + 24 * n) .core (s.regNat i 53 49)
      (natsBytes (es.map (fun x => if x = .rejected then 0 else 1)))))

/-- The operands of ring.kchk. -/
def rangesKchk (i : Issue) (s : State) : List (Nat × Nat) :=
  [(s.regNat i 48 44, 32), (s.regNat i 43 39, 32), (s.regNat i 53 49, 8)]

/-- RING_KCHK: 1 if 32 bytes agree, 0 otherwise. -/
def execRingKchk (c : Fin 32) (k : Fin 8) (s : State) : Host.Outcome State Fault Refusal :=
  .next (s.ring c k 11 (fun _ => 8) rangesKchk (fun i s =>
    let (a, s) := s.readStore i .core (s.regNat i 48 44) 32
    let (b, s) := s.readStore i .core (s.regNat i 43 39) 32
    s.writeStore i 2 (i.t + 8) .core (s.regNat i 53 49) (leBytes 8 (b2n (a == b)))))

end Sys2Proof.Machine
end

