-- ==== Sys2Proof/Machine/FoldKs.lean ====
section
/-! DEFINITION. The fold and ks instructions (R77, R98, R136, R137, R143). -/

namespace Sys2Proof.Machine

/-! ## fold -/

/-- Bytes of an element by ARITH (R136). -/
def arithWidth : Nat → Nat
  | 0 => 2 | 1 => 4 | _ => 8

/-- Add or subtract two elements modulo `m`. -/
def foldElem (m : Nat) (neg : Bool) (a b : Nat) : Nat := if neg then subWord m a b else (a + b) % m

/-- A range combined with another, element by element (R77, R136). -/
def foldRange (w m : Nat) (neg : Bool) (d x : List Byte) : List Byte :=
  let n := d.length / w
  ((List.zipWith (foldElem m neg) ((chop w n d).map leNat) ((chop w n x).map leNat)).map (leBytes w)).flatten

/-- Issue a fold instruction (R136). A modulus of 0 in RQ gives no result, and the elements take free values. -/
def State.foldOp (s : State) (neg : Bool) (i : Issue) : State :=
  let sp : Space := if nfield i.v 22 22 = 1 then .shared else .core
  let n := 512 * nfield i.v 40 28
  let rd := s.regNat i 53 49
  let rs := s.regNat i 48 44
  match (badOperand sp 64 rd n).or (badOperand .core 64 rs n) with
  | some (kind, a) => s.fault i .badParam kind a
  | none =>
    let w := arithWidth (nfield i.v 43 41)
    let m := if nfield i.v 43 41 = 3 then s.regNat i 27 23 % 2 ^ 61 else 2 ^ (8 * w)
    let (d, s) := s.readStore i sp rd n
    let (x, s) := s.readStore i .core rs n
    let (b, s) := if m = 0 then s.freshBytes n else (foldRange w m neg d x, s)
    ((s.writeStore i 3 (i.t + nfield i.v 40 28 + 6) sp rd b).meter i.p 3 i.t (nfield i.v 40 28)).modCore i.c i.k (fun x =>
      { x with foldFree := i.t + nfield i.v 40 28 })

/-- FOLD_ADD: RD = RD + RS. -/
def execFoldAdd (c : Fin 32) (k : Fin 8) (s : State) : Host.Outcome State Fault Refusal :=
  .next (s.issue c k 3 3 1 (fun i s => s.foldOp false i))

/-- FOLD_SUB: RD = RD − RS. -/
def execFoldSub (c : Fin 32) (k : Fin 8) (s : State) : Host.Outcome State Fault Refusal :=
  .next (s.issue c k 3 3 2 (fun i s => s.foldOp true i))

/-! ## ks -/

/-- KS_KEY (R137): the seed is expanded for its PRG. -/
def execKsKey (c : Fin 32) (k : Fin 8) (s : State) : Host.Outcome State Fault Refusal :=
  .next (s.issue c k 3 4 1 (fun i s =>
    match badOperand .core 64 (s.regNat i 53 49) 32 with
    | some (kind, a) => s.fault i .badParam kind a
    | none =>
      let (b, s) := s.readStore i .core (s.regNat i 53 49) 32
      ((s.meter i.p 4 i.t 32).modCore c k (fun x =>
        { x with ksPrg := some (nfield i.v 43 42), ksKey := b, ksFree := i.t + 32 })).fenceTo i (i.t + 32)))

/-- KS_GEN (R98, R137): keystream from a byte position. The rule names a PRG that differs from the last ks.key; a ks.gen with no ks.key
before it in the task has no key to expand and faults OPERAND too (DESIGN CHOICE). -/
def execKsGen (c : Fin 32) (k : Fin 8) (s : State) : Host.Outcome State Fault Refusal :=
  .next (s.issue c k 3 4 2 (fun i s =>
    let x := s.core c k
    let n := nfield i.v 41 28
    let prg := nfield i.v 43 42
    let pos := s.regNat i 48 44
    if x.ksPrg != some prg then s.fault i .badParam 4 0
    else
      match badOperand .core 64 (s.regNat i 53 49) (64 * n) with
      | some (kind, a) => s.fault i .badParam kind a
      | none =>
        if pos % 64 != 0 then s.fault i .badParam 2 pos
        else
          let occ := if prg = 2 then 2 * n else n
          let b := keystream prg x.ksKey (pos / 64) n
          ((s.writeStore i 3 (i.t + occ + 20) .core (s.regNat i 53 49) b).meter i.p 4 i.t occ).modCore c k (fun x =>
            { x with ksFree := i.t + occ })))

end Sys2Proof.Machine
end

