-- ==== Sys2Proof/Machine/Records.lean ====
section
/-! DEFINITION. The active configuration record and its digest (R480, R483). -/

namespace Sys2Proof.Machine

open Sys2Proof.Machine.Crypto

/-- The active configuration record (R480). -/
def State.activeRecord (s : State) : Option ConfigRec := (s.nvm.cfg.getD s.boot.cfgSlot none)

/-- A section of the active record. -/
def State.activeSection (s : State) (ty : Nat) : Option (List Byte) :=
  match s.activeRecord with
  | some r => (sectionsOf r.body).bind (sectionData ty)
  | none => none

/-- The admin key of the active record, X followed by Y (R479). -/
def State.adminPub (s : State) : List Byte := (s.activeSection 1).getD []

/-- The configuration digest: SHA-384 of the active record's body (R483). -/
def State.configDigest (s : State) : List Byte :=
  match s.activeRecord with
  | some r => sha384 r.body
  | none => zeros 48

end Sys2Proof.Machine
end

