-- ==== Sys2Proof/Machine/TandemBase.lean ====
section
/-! DEFINITION. Tandem groups (R389 to R392, R398, R402): the tandem section of the active record, routes, the conditions and
states of bindings, and what every member sends of a Binigal link's frames, keys and reports. -/

namespace Sys2Proof.Machine

open Sys2Proof.Machine.Crypto

/-! ## The tandem section (R389) -/

/-- The group that the active record describes. -/
def State.group (s : State) : Option GroupDesc := (s.activeSection 2).bind parseTandem

/-- This member's position (R389). -/
def GroupDesc.position (g : GroupDesc) : Option Nat := leastBelow g.fps.length (fun i => g.fps.getD i [] == deviceFp)

/-! ## Routes (R390) -/

/-- The links out of a position as (next position, its own link number, far link number), in both directions of the list. -/
def GroupDesc.linksFrom (g : GroupDesc) (x : Nat) : List (Nat × Nat) :=
  (g.links.map (fun l => (if l.a == x then [(l.b, l.la)] else []) ++ (if l.b == x then [(l.a, l.lb)] else []))).flatten

/-- A Binigal link of this member is UP. -/
def State.ownLinkUp (s : State) (link : Nat) : Bool :=
  (s.links[Fin.ofNat 24 link]).st == .up && (s.links[Fin.ofNat 24 link]).mode == 3

/-- What the member at one end of a link last said of it; none where it has not reported. -/
def State.endUp (s : State) (x link : Nat) : Option Bool := (Table.get? s.tandem.reports x).map (fun r => r.up.testBit link)

/-- A link of the section is UP (R390): one that this member ends is seen here; one that ends elsewhere by the reports of its ends,
at least one of which must have come, and none of which denies it (DESIGN CHOICE: the manual does not say how a member learns of
links that it does not end). -/
def State.groupLinkUp (s : State) (me : Nat) (l : GroupLink) : Bool :=
  if l.a = me then s.ownLinkUp l.la
  else if l.b = me then s.ownLinkUp l.lb
  else
    match s.endUp l.a l.la, s.endUp l.b l.lb with
    | some x, some y => x && y
    | some x, none => x
    | none, some y => y
    | none, none => false

/-- The usable links out of a position as (next position, its own link number). -/
def State.hops (s : State) (g : GroupDesc) (me x : Nat) : List (Nat × Nat) :=
  ({ g with links := g.links.filter (s.groupLinkUp me) }).linksFrom x

/-- Neighbours of a position over usable links. -/
def State.neighbours (s : State) (g : GroupDesc) (me x : Nat) : List Nat := (s.hops g me x).map Prod.fst

/-- Extend paths by one link, keeping for each new position the path that is lowest position by position. -/
def State.routeStep (s : State) (g : GroupDesc) (me : Nat) (seen : List Nat) (paths : List (List Nat)) : List (List Nat) :=
  (List.range g.fps.length).filterMap (fun y =>
    if seen.contains y then none
    else (paths.find? (fun p => (s.neighbours g me (p.getLastD 16)).contains y)).map (fun p => p ++ [y]))

/-- Is one path lower than another of its length, position by position (R390)? -/
def pathLess : List Nat → List Nat → Bool
  | x :: xs, y :: ys => if x = y then pathLess xs ys else x < y
  | _, _ => false

/-- Put a path into a list in order. -/
def insertPath (p : List Nat) : List (List Nat) → List (List Nat)
  | [] => [p]
  | q :: qs => if pathLess q p then q :: insertPath p qs else p :: q :: qs

/-- Search outward by whole levels, the paths of a level in ascending order: the first path that reaches a position is its
route. -/
def State.routeSearch (s : State) (g : GroupDesc) (me dst : Nat) : Nat → List Nat → List (List Nat) → Option (List Nat)
  | 0, _, _ => none
  | n + 1, seen, paths =>
    match paths.find? (fun p => p.getLastD 16 == dst) with
    | some p => some p
    | none =>
      let next := (s.routeStep g me seen paths).foldl (fun l p => insertPath p l) []
      s.routeSearch g me dst n (seen ++ next.map (fun p => p.getLastD 16)) next

/-- The route from one position to another as the positions it passes (R390). -/
def State.route (s : State) (g : GroupDesc) (me x y : Nat) : Option (List Nat) := s.routeSearch g me y 17 [x] [[x]]

/-- The link by which a position sends to its neighbour: the lowest of its numbers among the usable ones (R390). -/
def State.hopLink (s : State) (g : GroupDesc) (me x y : Nat) : Option Nat :=
  leastBelow 24 (fun l => (s.hops g me x).contains (y, l))

/-- This member's link toward a position: the one to the next position of the route (R390). -/
def State.linkToward (s : State) (g : GroupDesc) (me y : Nat) : Option (Fin 24) :=
  (s.route g me me y).bind (fun r => (s.hopLink g me me (r.getD 1 16)).map (Fin.ofNat 24))

/-- The steps of a path as (position, next position). -/
def pathSteps : List Nat → List (Nat × Nat)
  | x :: y :: r => (x, y) :: pathSteps (y :: r)
  | _ => []

/-- The links that a route takes, each as (position, next position, link of the first). -/
def State.routeLinks (s : State) (g : GroupDesc) (me x y : Nat) : List (Nat × Nat × Nat) :=
  (pathSteps ((s.route g me x y).getD [])).filterMap (fun e => (s.hopLink g me e.1 e.2).map (fun l => (e.1, e.2, l)))

/-- This member's group and position. -/
def State.member (s : State) : Option (GroupDesc × Nat) := s.group.bind (fun g => g.position.map (fun m => (g, m)))

/-- The position at the far end of a link of this member. -/
def GroupDesc.farEnd (g : GroupDesc) (me : Nat) (l : Fin 24) : Option Nat :=
  ((g.linksFrom me).find? (fun e => e.2 == l.val)).map Prod.fst

/-- Source and destination position of a frame that concerns a link alone: this member's and that of the link's far end (R393); 0 where the
section does not name the link (DESIGN CHOICE: log 154). -/
def State.linkEnds (s : State) (l : Fin 24) : Nat × Nat :=
  match s.member with
  | some (g, me) => (me, (g.farEnd me l).getD 0)
  | none => (0, 0)

/-! ## The conditions of a binding (R392) -/

/-- The partition of a binding at this member. -/
def BindDesc.local? (b : BindDesc) (me : Nat) : Option (Fin 16) :=
  if b.parts.getD me 255 < 16 then some (pid (b.parts.getD me 255)) else none

/-- How many bindings of the group name a partition at a position. -/
def GroupDesc.naming (g : GroupDesc) (me : Nat) (p : Fin 16) : Nat :=
  (g.binds.filter (fun b => b.local? me == some p)).length

/-- A route leads from a member to the root and back (R392), as this member knows the links. -/
def State.reachesRoot (s : State) (g : GroupDesc) (me : Nat) (b : BindDesc) (m : Nat) : Bool :=
  m == b.root || ((s.route g me m b.root).isSome && (s.route g me b.root m).isSome)

/-- This member's own conditions for a binding: the stack count where they hold, else 0 (R392). -/
def State.ownCond (s : State) (g : GroupDesc) (me : Nat) (b : BindDesc) : Nat :=
  match b.local? me with
  | some p =>
    let q := s.parts[p]
    if q.st = .active && q.foldK != 0 && g.naming me p = 1 && (sha384 q.ownerPub).take 32 == b.ownerHash
        && s.reachesRoot g me b me then q.stacks
    else 0
  | none => 0

/-- What a member that takes part reports of a binding: 0 where its conditions fail, else its stack count. -/
def State.condOf (s : State) (g : GroupDesc) (me : Nat) (b : BindDesc) (m : Nat) : Nat :=
  if m = me then s.ownCond g me b
  else
    match Table.get? s.tandem.reports m with
    | some r => ((r.conds.find? (fun e => e.1 == b.id)).map Prod.snd).getD 0
    | none => 0

/-- Every condition holds on every member that takes part: by its last report, and by the routes as they stand now, so that the report of a
member that is cut off does not count. -/
def State.condsHold (s : State) (g : GroupDesc) (me : Nat) (b : BindDesc) : Bool :=
  let r := s.condOf g me b b.root
  r != 0 && b.members.all (fun m => s.condOf g me b m == r && s.reachesRoot g me b m)

/-- A link on a route of a binding has left UP between two states (R405): one on a route between two members that take part. -/
def State.routeLost (old new : State) (g : GroupDesc) (me : Nat) (b : BindDesc) : Bool :=
  (b.members.flatMap (fun x => b.members.flatMap (fun y => old.routeLinks g me x y))).any (fun e =>
    !(new.hops g me e.1).contains (e.2.1, e.2.2))

/-- The digest a member reports. -/
def State.digestOf (s : State) (me m : Nat) : List Byte :=
  if m = me then s.configDigest else ((Table.get? s.tandem.reports m).map MemberReport.digest).getD []

/-- Every member that takes part reports the root's digest (R402). -/
def State.digestsAgree (s : State) (me : Nat) (b : BindDesc) : Bool :=
  b.members.all (fun m => s.digestOf me m == s.digestOf me b.root)

/-- The state of a binding. -/
def State.bindState (s : State) (id : Nat) : BindState := (Table.get? s.tandem.binds id).getD .down

/-- What R392 and R402 make of a binding's state. -/
def State.nextBind (s : State) (g : GroupDesc) (me : Nat) (b : BindDesc) : BindState :=
  if !s.condsHold g me b then .down
  else
    match s.bindState b.id with
    | .active => .active
    | _ => if s.digestsAgree me b then .active else .skewed

/-- Encoding of a binding's state (R392). -/
def BindState.code : BindState → Nat
  | .down => 0
  | .active => 1
  | .skewed => 2

/-- Change the tandem state. -/
def State.modTandem (s : State) (f : Tandem → Tandem) : State := { s with tandem := f s.tandem }

/-- Set a binding's state and post TANDEM_STATE (R405); a binding that is not ACTIVE has no barrier round. -/
def State.setBind (s : State) (me : Nat) (b : BindDesc) (st : BindState) : State :=
  if s.bindState b.id = st then s
  else
    let s := s.modTandem (fun t =>
      { t with binds := Table.put t.binds b.id st, rounds := if st = .active then t.rounds else Table.del t.rounds b.id })
    match b.local? me with
    | some p => s.postPart p 0x0570 (if st = .skewed then .configSkew else .ok) [w64 (st.code * 2 ^ 16 + b.size * 2 ^ 8 + b.id)]
    | none => s

/-- A partition is named by a tandem binding (R351). -/
def State.boundByTandem (s : State) (p : Fin 16) : Bool :=
  match s.group with
  | some g =>
    match g.position with
    | some me => g.naming me p > 0
    | none => false
  | none => false

/-- A link is used by a tandem group (R362). -/
def State.linkInGroup (s : State) (l : Fin 24) : Bool :=
  match s.group with
  | some g =>
    match g.position with
    | some me => (g.linksFrom me).any (fun e => e.2 == l.val)
    | none => false
  | none => false

/-! ## Sending on a Binigal link (R393 to R397) -/

/-- Frames of a link that the replay buffer lets be outstanding (R396). -/
def replayDepth : Nat := 256

/-- The 32-byte header of a frame (R393). -/
def frameHeader (f : BFrame) : List Byte :=
  [byte f.kind, byte f.binding, byte (f.src * 16 + f.dst), byte f.hops] ++ leBytes 4 f.seq ++ leBytes 8 f.txc ++ leBytes 8 f.arg0
    ++ leBytes 4 f.arg1 ++ leBytes 2 (f.payload.length / 64) ++ zeros 2

/-- The nonce of a frame (R395): TXC, then 4 zero bytes. -/
def frameNonce (f : BFrame) : List Byte := leBytes 8 f.txc ++ zeros 4

/-- A frame sealed under the key of its direction (R393, R395): header, encrypted payload, tag. -/
def sealFrame (key : List Byte) (f : BFrame) : List Byte :=
  let (ct, tag) := gcmSeal key (frameNonce f) (frameHeader f) f.payload
  frameHeader f ++ ct ++ tag

/-- A HANDSHAKE as it stands on the wire: it is not sealed, and its tag is zero (DESIGN CHOICE: R393 gives every frame a tag, R395 none to
this one). -/
def plainFrame (f : BFrame) : List Byte := frameHeader f ++ f.payload ++ zeros 16

/-- Read a header and a payload as a frame. -/
def readFrame (h payload : List Byte) : BFrame :=
  let f (o n : Nat) : Nat := leNat ((h.drop o).take n)
  ⟨f 0 1, f 1 1, f 2 1 / 16, f 2 1 % 16, f 3 1, f 4 4, f 8 8, f 16 8, f 24 4, payload⟩

/-- The frame that received bytes hold under the key of their direction; none where the tag fails, and the link then counts a tag failure
(R395). The rows of received frames carry what this gives. -/
def openFrame (key bytes : List Byte) : Option BFrame :=
  let h := bytes.take 32
  let n := 64 * leNat ((h.drop 28).take 2)
  (gcmOpen key (frameNonce (readFrame h [])) h ((bytes.drop 32).take n) (bytes.drop (32 + n))).map (readFrame h)

/-- Put a frame on the wire (R395): it takes the next TXC and is sealed under the transmit key that the link's engine holds. Without a key
nothing leaves. -/
def State.binWire (s : State) (l : Fin 24) (f : BFrame) : State :=
  match s.engineKey (80 + 2 * l.val) (.binigal l.val) with
  | some k =>
    let t := (s.links[l]).bin.txc
    (s.modLink l (fun k => { k with bin := { k.bin with txc := t + 1 } })).emit (.binigal l.val (sealFrame k { f with txc := t }))
  | none => s

/-- A keyed link that is UP carries frames. -/
def Link.binOpen (k : Link) : Bool := k.st == .up && k.mode == 3 && k.bin.keyed

/-- Send a frame in sequence (R396): it takes the next SEQ and stays in the replay buffer until it is acknowledged; it goes out
at once where the link is open and the buffer has room. -/
def State.binSend (s : State) (l : Fin 24) (f : BFrame) : State :=
  let b := (s.links[l]).bin
  let f := { f with seq := b.seqTx }
  let s := s.modLink l (fun k =>
    { k with
      bin := { k.bin with
        seqTx := (k.bin.seqTx + 1) % 2 ^ 32
        replay := k.bin.replay ++ [f]
        since := if k.bin.replay.isEmpty then s.clock else k.bin.since } })
  if (s.links[l]).binOpen && b.replay.length < replayDepth then s.binWire l f else s

/-- Send a frame of the link itself outside the sequence: ACK and NAK. -/
def State.binControl (s : State) (l : Fin 24) (kind seq : Nat) (payload : List Byte) : State :=
  let e := s.linkEnds l
  s.binWire l ⟨kind, 0xFF, e.1, e.2, 0, seq, 0, 0, 0, payload⟩

/-- The link whose replay buffer still holds frames of a binding from one position to another. -/
def State.pairLink (s : State) (src dst : Nat) : Option (Fin 24) :=
  (List.finRange 24).find? (fun l => (s.links[l]).mode == 3 &&
    (s.links[l]).bin.replay.any (fun f => f.src == src && f.dst == dst && f.binding != 0xFF))

/-- The link for a frame: the one of its route (R390), but behind frames of its pair of positions that a link still holds (R397: none is lost,
and they are delivered in order; DESIGN CHOICE: log 155). Frames that concern no binding go by their route. -/
def State.linkFor (s : State) (g : GroupDesc) (me src dst binding : Nat) : Option (Fin 24) :=
  match if binding = 0xFF then none else s.pairLink src dst with
  | some l => some l
  | none => s.linkToward g me dst

/-- Send a frame to another position along its route (R390, R397); with no route it is lost. -/
def State.binTo (s : State) (g : GroupDesc) (me dst kind binding arg0 arg1 : Nat) (payload : List Byte) : State :=
  match s.linkFor g me me dst binding with
  | some l => s.binSend l ⟨kind, binding, me, dst, 0, 0, 0, arg0, arg1, payload⟩
  | none => s

/-- Every position but this member's. -/
def GroupDesc.others (g : GroupDesc) (me : Nat) : List Nat := (List.range g.fps.length).filter (fun m => m != me)

/-- The report of a DIGEST frame: the configuration digest; for each BIND_ID the stack count where this member's own conditions hold and 0
where they fail; its links that are UP as a mask of 3 bytes; their delays in 2 bytes each; padding. The manual gives the digest alone; it
gives no other way to learn the conditions and links of another member (DESIGN CHOICE). -/
def State.report (s : State) (g : GroupDesc) (me : Nat) : List Byte :=
  let conds := (List.range 16).map (fun i => byte (((g.binds.find? (fun b => b.id == i)).map (fun b => s.ownCond g me b)).getD 0))
  let up := listMask ((List.range 24).filter s.ownLinkUp)
  padTo 128 (s.configDigest ++ conds ++ leBytes 3 up
    ++ (List.finRange 24).flatMap (fun l => leBytes 2 (Nat.min 65535 (s.links[l]).bin.delay)))

/-- The report that the payload of a DIGEST frame holds. -/
def readReport (b : List Byte) : MemberReport :=
  { digest := b.take 48, conds := (List.range 16).map (fun i => (i, ((b.drop 48).getD i 0).toNat))
    up := leNat ((b.drop 64).take 3), delays := (chop 2 24 ((b.drop 67).take 48)).map leNat }

/-- Positions of other members that have a route. -/
def State.routed (s : State) (g : GroupDesc) (me : Nat) : List Nat :=
  (g.others me).filter (fun m => (s.linkToward g me m).isSome)

/-- The links of a member to a neighbour that are UP. -/
def State.linksTo (s : State) (g : GroupDesc) (me y : Nat) : List (Fin 24) :=
  (List.finRange 24).filter (fun l => (s.links[l]).binOpen && (s.hops g me me).contains (y, l.val))

/-- Send this member's report to some positions (R402, R482): to a neighbour on every link to it that is UP, to another along its route. -/
def State.sendReports (s : State) (g : GroupDesc) (me : Nat) (dst : List Nat) : State :=
  let r := s.report g me
  let one (s : State) (m : Nat) : State :=
    match s.linksTo g me m with
    | [] => s.binTo g me m 13 0xFF 0 0 r
    | ls => ls.foldl (fun s l => s.binSend l ⟨13, 0xFF, me, m, 0, 0, 0, 0, 0, r⟩) s
  dst.foldl one (s.modTandem (fun t => { t with sentReport := r, reached := s.routed g me }))

/-- Send the report where it is due: to every member where it has changed, else to those that have come into reach. -/
def State.reportNews (s : State) (g : GroupDesc) (me : Nat) : State :=
  let now := s.routed g me
  if s.report g me != s.tandem.sentReport then s.sendReports g me now
  else s.sendReports g me (now.filter (fun m => !s.tandem.reached.contains m))

/-- Evaluate one binding that this member takes part in (R392). Where a link on one of its routes has left UP while its task runs, it
becomes DOWN and the task ends with RETRY_LATER (R405); where a detour is left, it then stands again. -/
def State.evalBind (s old : State) (g : GroupDesc) (me : Nat) (b : BindDesc) : State :=
  match b.local? me with
  | none => s
  | some p =>
    let s := if s.bindState b.id != .down && (s.parts[p]).job.running.isSome && old.routeLost s g me b then
        (s.setBind me b .down).stopTenant p .retryLater
      else s
    s.setBind me b (s.nextBind g me b)

/-- Evaluate every binding again after a change from a state (R392, R405), and report what has changed. -/
def State.evalBinds (s old : State) : State :=
  match s.group with
  | none => s
  | some g =>
    match g.position with
    | none => s
    | some me => (g.binds.foldl (fun s b => s.evalBind old g me b) s).reportNews g me

/-- Evaluate every binding after a change that is not a link's. -/
def State.bindingsEval (s : State) : State := s.evalBinds s

/-! ## Keying (R333) -/

/-- What a side signs in the exchange of R333: its ephemeral public key and its nonce. -/
def handshakeBody (eph : Nat) (nonce : List Byte) : List Byte := p384Pub eph ++ nonce

/-- Zero the keys of a Binigal link (R311). -/
def State.dropBinKeys (s : State) (l : Fin 24) : State :=
  ((s.clearKey (80 + 2 * l.val)).clearKey (81 + 2 * l.val)).modLink l (fun k =>
    { k with bin := { k.bin with keyed := false, eph := 0, nonce := [] } })

/-- An exchange of R333 begins anew on a link: no frame passes until it ends. A link that re-keys keeps its old keys in their slots until the new
ones replace them (R313: the slots keep their periods); one that trains has none. -/
def State.openExchange (s : State) (l : Fin 24) : State :=
  if (s.links[l]).bin.keyed then s.modLink l (fun k => { k with bin := { k.bin with keyed := false, eph := 0, nonce := [] } })
  else if (s.links[l]).st = .up then s
  else s.dropBinKeys l

/-- Begin the exchange of R333: a fresh ephemeral key and nonce from the device DRBG, signed with the identity key. The frame
carries the identity public key, the ephemeral public key, the nonce and the signature (DESIGN CHOICE: the manual gives
the frame no layout). -/
def State.rekeyBinigal (s : State) (l : Fin 24) : State :=
  let k := s.links[l]
  if k.mode != 3 || (k.st != .up && k.st != .training) then s
  else
    let s := s.openExchange l
    let (d, s) := s.deviceDraw 56
    let (n, s) := s.deviceDraw 32
    let e := scalarOf d
    let (sg, s) := s.signIdentity (handshakeBody e n)
    let s := s.modLink l (fun k => { k with bin := { k.bin with eph := e, nonce := n } })
    let x := s.linkEnds l
    s.emit (.binigal l.val (plainFrame ⟨12, 0xFF, x.1, x.2, 0, 0, 0, 0, 0, identityPub ++ handshakeBody e n ++ sg⟩))

end Sys2Proof.Machine
end

