-- ==== Sys2Proof/Machine/Links.lean ====
section
/-! DEFINITION. Links (R359 to R364, R332, R477): their states and events, training, MACsec keys, and the rows of a link's
life. -/

namespace Sys2Proof.Machine

open Sys2Proof.Machine.Crypto

/-- Encoding of STATE (R363). -/
def LinkState.code : LinkState → Nat
  | .down => 0
  | .training => 1
  | .securing => 2
  | .up => 3
  | .failed => 4

/-- Post PORT_STATE for a link as it stands (R387). -/
def State.portState (s : State) (l : Fin 24) : State :=
  let k := s.links[l]
  s.post 0 0x0618 (if k.st = .failed then .deviceFault else .ok) [w64 (b2n k.spareInUse * 2 ^ 12 + k.st.code * 2 ^ 8 + l.val)]

/-- Post LINK_STATE to every partition whose LINK_MASK names the link (R387). -/
def State.linkStateEvent (s : State) (l : Fin 24) : State :=
  allParts.foldl (fun s p =>
    if (s.parts[p]).linkMask.testBit l.val then s.postPart p 0x0613 .ok [w64 ((s.links[l]).st.code * 2 ^ 8 + l.val)] else s) s

/-- Post MACSEC_STATE (R387). -/
def State.macsecState (s : State) (l : Fin 24) (cause : Nat) : State :=
  s.post 0 0x0619 (if cause = 2 then .authFailed else .ok) [w64 (cause * 2 ^ 8 + l.val)]

/-- A link event of the lifetime (R363, R491): a link that carried traffic, or was about to, no longer does. -/
def State.linkDownRecord (s : State) (l : Fin 24) (left : LinkState) : State :=
  let n := s.nvm.life.linkDowns
  ({ s with nvm := { s.nvm with life := { s.nvm.life with linkDowns := setAt n l.val (n.getD l.val 0 + 1) } } }).log 0x0501 5
    [w64 (left.code * 2 ^ 8 + l.val)]

/-- Set STATE of a link with all that follows (R362, R387): PORT_STATE; LINK_STATE where UP is entered or left; queue pairs to
ERROR where UP is left, and where SECURING is left for another state than UP; a link-down event where a link that is UP or SECURING
leaves it and carries nothing. -/
def State.setLink (s : State) (l : Fin 24) (st : LinkState) : State :=
  let old := (s.links[l]).st
  if old = st then s
  else
    let before := s
    let s := s.modLink l (fun k =>
      { k with st := st, held := if old = .up then [] else k.held, paused := if old = .up then [] else k.paused })
    let s := s.portState l
    let s := if old = .up || st = .up then s.linkStateEvent l else s
    let s := if old = .up || (old = .securing && st != .up) then s.linkErrors l else s
    let s := if old = .up || (old = .securing && st != .up) then s.linkDownRecord l old else s
    if (s.links[l]).mode = 3 && (old = .up || st = .up) then s.evalBinds before else s

/-- Delete the SAKs of a link in both directions (R364). -/
def State.dropSaks (s : State) (l : Fin 24) : State :=
  ((s.clearKey (32 + 2 * l.val)).clearKey (33 + 2 * l.val)).modLink l (fun k => { k with secured := false, oldPn := none })

/-- Training starts again (R362, R477): the link's keys are deleted, and training counts from now. -/
def State.retrain (s : State) (l : Fin 24) : State :=
  let s := (s.dropSaks l).dropBinKeys l
  let s := s.modLink l (fun k => { k with trainAt := s.clock })
  s.setLink l (if (s.links[l]).mode = 0 then .down else .training)

/-- Every link drops (R317): its keys are gone. -/
def State.dropAllLinks (s : State) : State :=
  (List.finRange 24).foldl (fun s l => if (s.links[l]).mode = 0 then s else s.retrain l) s

/-- Retire the SAK before the newest (R364): it is zeroed, and the next SAK takes the slot of the current one (R311). -/
def State.retireSak (s : State) (l : Fin 24) : State :=
  if (s.links[l]).oldPn.isNone then s
  else
    let s : State := match Table.get? s.pannier (33 + 2 * l.val) with
      | some k => { s with pannier := Table.put (Table.del s.pannier (33 + 2 * l.val)) (32 + 2 * l.val) k }
      | none => s
    s.modLink l (fun k => { k with oldPn := none })

/-- Install a SAK in both directions (R332, R364); its slot keeps the re-masking period of the one it follows (R313). The first one of a link becomes the current SAK. A later one goes into the slot of the
next SAK: the part sends under it at once, and receives under the one before it too until the peer has changed (DESIGN CHOICE: R364 does
not say when the current SAK is retired). Packet numbers begin again, under the next association number (PRESUMED: IEEE 802.1AE). -/
def State.installSak (s : State) (l : Fin 24) (key : List Byte) : State :=
  if (s.links[l]).secured then
    let s := s.retireSak l
    (s.placeKey (33 + 2 * l.val) 11 key 0 0 (s.slotPeriod (32 + 2 * l.val))).modLink l (fun k =>
      { k with an := (k.an + 1) % 4, oldPn := some k.pnRx, pnTx := 1, pnRx := 1, newCak := false })
  else
    (s.placeKey (32 + 2 * l.val) 11 key 0 0 2).modLink l (fun k =>
      { k with secured := true, an := 0, oldPn := none, pnTx := 1, pnRx := 1, newCak := false })

/-- The part's key-server priority (R364). -/
def serverPriority : Nat := 0x10

/-- The KEK of a link (R332): the key derivation of IEEE 802.1X-2020 from its CAK, with the CKN (PRESUMED: the manual names the standard
alone). -/
def State.kekOf (s : State) (l : Fin 24) : List Byte :=
  mkaKdf ((s.keyAt (8 + l.val)).getD []) (ascii "IEEE8021 KEK") (padTo 16 (s.links[l]).ckn) 256

/-- As key server the part draws a SAK from the device DRBG, installs it and distributes it wrapped under the KEK (R332). -/
def State.serveSak (s : State) (l : Fin 24) : State :=
  let (k, s) := s.deviceDraw 32
  let s := s.installSak l k
  s.emit (.sak l.val serverPriority (s.links[l]).an (aesWrap (s.kekOf l) k))

/-- A link has a SAK from an exchange of MKA (R364): one that was SECURING comes UP; one that had a SAK has changed it. -/
def State.mkaSecured (s : State) (l : Fin 24) (was : Bool) : State :=
  let s := s.macsecState l (if was then 3 else 0)
  if (s.links[l]).st = .securing then s.setLink l .up else s

/-- MKA loses its peer (cause 1) or meets a CAK mismatch (cause 2) (R364). -/
def State.mkaFail (s : State) (l : Fin 24) (mismatch : Bool) : State :=
  let s := (s.dropSaks l).macsecState l (if mismatch then 2 else 1)
  if (s.links[l]).st = .up then s.setLink l .securing else s

/-- The SAK that the peer distributes as key server is unwrapped under the KEK (R332) and installed where it is not the one in use already. One
that does not unwrap shows another CAK (DESIGN CHOICE; log 152). -/
def State.takeSak (s : State) (l : Fin 24) (wrapped : List Byte) : State :=
  let k := s.links[l]
  match aesUnwrap (s.kekOf l) wrapped with
  | none => s.mkaFail l true
  | some x => if k.secured && s.keyAt (k.sakSlot l.val) == some x then s else (s.installSak l x).mkaSecured l k.secured

/-- An exchange of MKA with a live peer (R332, R364): the participant with the lower key-server priority is key server, at equal ones
that with the lower SCI (PRESUMED: IEEE 802.1X). The part serves a SAK where the link has none or its CAK is new, or takes the one the peer
distributes. -/
def State.mkaExchange (s : State) (l : Fin 24) (prio sci : Nat) (sak : Option (List Byte)) : State :=
  let k := s.links[l]
  let mine := serverPriority < prio || (serverPriority == prio && k.sci < sci)
  let s := s.modLink l (fun k => { k with keyServer := mine, peerSci := sci })
  if mine then if !k.secured || k.newCak then (s.serveSak l).mkaSecured l k.secured else s
  else
    match sak with
    | some x => s.takeSak l x
    | none => s

/-- KEY_ROTATE with target LINK_SAK, and a SAK whose packet numbers are used up (R330, R332): the link's key server distributes the next
SAK. Where that is the peer, its SAK comes with its next MKA frame. -/
def State.rotateSak (s : State) (l : Fin 24) : State :=
  if (s.links[l]).secured && (s.links[l]).keyServer then (s.serveSak l).mkaSecured l true else s

/-- MKA runs on a link: MACsec is required, the link has trained, and its CAK is installed (R364). -/
def State.mkaRuns (s : State) (l : Fin 24) : Bool :=
  let k := s.links[l]
  k.macsec && (k.mode == 1 || k.mode == 2) && (k.st == .securing || k.st == .up) && Table.has s.pannier (8 + l.val)

/-- Answer a PF link reset that waits for the training of a link (R477). -/
def State.answerTraining (s : State) (l : Fin 24) : State :=
  match (s.chans[(0 : Fin 17)]).held with
  | some h => if h.why = .linkTraining l.val then s.finishHeld 0 .ok [] else s
  | none => s

/-- The PF waits for the training of a link. -/
def State.trainingAwaited (s : State) (l : Fin 24) : Bool :=
  match (s.chans[(0 : Fin 17)]).held with
  | some h => h.why = .linkTraining l.val
  | none => false

/-! ## The rows of a link's life -/

/-- LINK_SIGNAL_LOSS (R362): a link that is UP or SECURING enters TRAINING; one that is FAILED stays so. -/
def execLinkSignalLoss (l : Fin 24) (s : State) : Host.Outcome State Fault Refusal :=
  .next (
    let st := (s.links[l]).st
    let s := s.modLink l (fun k => { k with signal := false })
    if st = .up || st = .securing then s.retrain l
    else if st = .training then s.dropBinKeys l
    else s)

/-- LINK_SIGNAL_DETECT (R362): training starts, also on a link that was FAILED. -/
def execLinkSignalDetect (l : Fin 24) (s : State) : Host.Outcome State Fault Refusal :=
  .next (
    let k := s.links[l]
    if k.signal then s
    else
      let s := s.modLink l (fun k => { k with signal := true })
      if k.st = .training || k.st = .failed then s.retrain l else s)

/-- Take the group's spare lane for a failed lane at this training (R11, R27, R359); none where another link has it. -/
def State.spareLane (s : State) (l : Fin 24) (lane : Option (Fin 2)) : Option State :=
  match lane with
  | none => some s
  | some n =>
    if (List.finRange 24).any (fun m => m.val / 6 == l.val / 6 && (s.links[m]).spareInUse) then none
    else
      let s := s.modLink l (fun k => { k with spareInUse := true })
      some (s.log 0x0502 5 [w64 (l.val / 6 * 2 ^ 16 + n.val * 2 ^ 8 + l.val)])

/-- LINK_TRAINING_COMPLETE (R359, R362): with the failed lane, if the training found one. An Ethernet link enters UP, or SECURING
where MACsec is required; a Binigal link keys itself first (R333), in the RTP's housekeeping turn (R344), and enters UP with its
keys. -/
def execLinkTrainingComplete (l : Fin 24) (lane : Option (Fin 2)) (s : State) : Host.Outcome State Fault Refusal :=
  .next (
    let k := s.links[l]
    if k.st != .training || !k.signal || k.bin.eph != 0 then s
    else
      match s.spareLane l lane with
      | none => s
      | some s =>
        let s := if k.mode = 3 then s.inHousekeeping.rekeyBinigal l else s.setLink l (if k.macsec then .securing else .up)
        let s := if k.mode = 3 && lane.isSome then s.portState l else s
        s.answerTraining l)

/-- LINK_TRAINING_TIMEOUT (R362): 50 ms after training began with the partner's signal present the link is FAILED. With no
signal it stays in TRAINING; a link reset that waits is answered (R477). -/
def execLinkTrainingTimeout (l : Fin 24) (s : State) : Host.Outcome State Fault Refusal :=
  .next (
    let k := s.links[l]
    if k.st != .training || k.bin.eph != 0 || (!k.signal && !s.trainingAwaited l) then s
    else
      let s := s.advance (k.trainAt + 50 * ms)
      (if k.signal then s.setLink l .failed else s).answerTraining l)

/-- MKA_PEER_LOST (R364): the peer of a secured link is lost, or a CAK mismatch is met; the SAKs go at once. -/
def execMkaPeerLost (l : Fin 24) (mismatch : Bool) (s : State) : Host.Outcome State Fault Refusal :=
  .next (if s.mkaRuns l && (mismatch || (s.links[l]).secured) then s.mkaFail l mismatch else s)

/-- SAK_PN_EXHAUSTED (R332): a packet number of the current SAK has reached 2^62; MKA acts in the RTP's housekeeping turn (R344). -/
def execSakPnExhausted (l : Fin 24) (s : State) : Host.Outcome State Fault Refusal :=
  .next (if (s.links[l]).pnTx ≥ 2 ^ 62 || (s.links[l]).pnRx ≥ 2 ^ 62 then s.inHousekeeping.rotateSak l else s)

/-- PFC_PAUSE_EXPIRY (R360): the pause of a priority ends, and what waited on it leaves in order. -/
def execPfcPauseExpiry (l : Fin 24) (prio : Fin 8) (s : State) : Host.Outcome State Fault Refusal :=
  .next (
    match (s.links[l]).paused.find? (fun e => e.1 == prio.val) with
    | none => s
    | some (_, t) => (s.advance t).unpause l prio.val)

end Sys2Proof.Machine
end

