-- ==== Sys2Proof/Machine/NetCommands.lean ====
section
/-! DEFINITION. The network commands (R361 to R363, R370 to R375, R379, R381, R386): PORT_CONFIG, CREATE_QP, MODIFY_QP,
DESTROY_QP, REGISTER_REGION, REVOKE_REGION with the end of a revocation, and SET_EGRESS_ALLOW. -/

namespace Sys2Proof.Machine

open Sys2Proof.Machine.Crypto

/-! ## PORT_CONFIG (R361 to R363, R386) -/

/-- The link named by P0. -/
def linkArg (w : W64) : Nat := bits w 4 0

/-- A link is named by a partition's LINK_MASK or used by a tandem group (R362): a link of the group is in use once it is in
BINIGAL mode (DEDUCED: otherwise no link of a group could ever be set to it). -/
def State.linkUsed (s : State) (l : Fin 24) : Bool :=
  allParts.any (fun p => (s.parts[p]).exists' && (s.parts[p]).linkMask.testBit l.val)
    || ((s.links[l]).mode = 3 && s.linkInGroup l)

/-- SET_LINK changes MODE, MAC, VID or an address of the link, or sets BINIGAL (R362). -/
def linkChanges (k : Link) (w : List W64) : Bool :=
  let p0 := word w 0
  bits p0 23 20 != k.mode || bits (word w 1) 47 0 != k.mac || bitAt p0 40 != k.tagged || bits p0 39 28 != k.vid
    || bits (word w 3) 31 0 != k.ipv4 || (word w 4).toNat * 2 ^ 64 + (word w 5).toNat != k.ipv6 || bits p0 23 20 = 3

/-- The checks of SET_LINK in the order of R519. -/
def checkSetLink (s : State) (ch : Fin 17) (r : Req) : Option Status :=
  let w := r.payload
  let p0 := word w 0
  let vid := bits p0 39 28
  let l := Fin.ofNat 24 (linkArg p0)
  if ch != 0 || !r.sealed then some .notPermitted
  else if nonZero p0 43 41 || nonZero p0 27 25 || nonZero p0 19 18 || nonZero p0 15 5 || bits p0 23 20 > 3
      || nonZero (word w 1) 63 48 || nonZero (word w 2) 63 48 || nonZero (word w 3) 63 32 then some .badParam
  else if w.length != 6 then some .badLength
  else if linkArg p0 > 23 || (if bitAt p0 40 then vid = 0 || vid > 4094 else vid != 0) || bitAt (word w 1) 40
      || bitAt (word w 2) 40 then some .badParam
  else if s.linkUsed l && linkChanges s.links[l] w then some .badState
  else none

/-- A link with the settings of a SET_LINK payload (R361). -/
def Link.configure (k : Link) (w : List W64) : Link :=
  let p0 := word w 0
  { k with
    mode := bits p0 23 20, macsec := bitAt p0 24, vid := bits p0 39 28, tagged := bitAt p0 40, dscpCnp := bits p0 49 44
    dscpData := bits p0 55 50, pfcMask := bits p0 63 56, mac := bits (word w 1) 47 0, nextHop := bits (word w 2) 47 0
    ipv4 := bits (word w 3) 31 0, ipv6 := (word w 4).toNat * 2 ^ 64 + (word w 5).toNat }

/-- PORT_CONFIG SET_LINK (R361, R362): the link retrains with its new settings. -/
def handleSetLink : Handler := fun ch r s =>
  match checkSetLink s ch r with
  | some st => .refuse st
  | none =>
    let l := Fin.ofNat 24 (linkArg (word r.payload 0))
    .done .ok [] ((s.modLink l (fun k => k.configure r.payload)).retrain l)

/-- The checks of SET_CAK. -/
def checkSetCak (ch : Fin 17) (r : Req) : Option Status :=
  let p0 := word r.payload 0
  if ch != 0 || !r.sealed then some .notPermitted
  else if nonZero p0 63 18 || nonZero p0 15 5 then some .badParam
  else if r.payload.length != 7 then some .badLength
  else if linkArg p0 > 23 then some .badParam
  else none

/-- PORT_CONFIG SET_CAK (R361, R364): the CAK goes into slot 8 + LINK; the SAK in use stays until MKA distributes another. -/
def handleSetCak : Handler := fun ch r s =>
  match checkSetCak ch r with
  | some st => .refuse st
  | none =>
    let l := Fin.ofNat 24 (linkArg (word r.payload 0))
    let s := s.placeKey (8 + l.val) 10 (wordsToBytes (r.payload.drop 3)) 0 0 2
    .done .ok [] (s.modLink l (fun k => { k with ckn := wordsToBytes ((r.payload.drop 1).take 2), newCak := true }))

/-- PORT_CONFIG STATUS (R361 to R363). -/
def handleLinkStatus : Handler := fun ch r s =>
  let p0 := word r.payload 0
  let l := Fin.ofNat 24 (linkArg p0)
  let k := s.links[l]
  if nonZero p0 63 18 || nonZero p0 15 5 then .refuse .badParam
  else if r.payload.length != 1 then .refuse .badLength
  else if linkArg p0 > 23 then .refuse .badParam
  else if ch != 0 && !(s.parts[chanPart ch]).linkMask.testBit l.val then .refuse .wrongPartition
  else
    .done .ok [w64 (k.mode * 2 ^ 60 + k.st.code * 2 ^ 56 + b2n k.spareInUse * 2 ^ 55 + b2n k.secured * 2 ^ 54), w64 k.rxFrames,
      w64 k.rxDiscards, w64 (s.nvm.life.linkDowns.getD l.val 0)] s

/-- Parameters of a SET_CC payload (R386). -/
def readCc (w : List W64) : CcParams :=
  let p1 := word w 1
  let p2 := word w 2
  { rateAi := bits p1 63 48, rateHai := bits p1 47 32, minRate := bits p1 31 16, byteCounter := bits p1 15 0
    alphaTimer := bits p2 63 54, rateTimer := bits p2 53 44, cnpInterval := bits p2 43 34, g := bits p2 33 30, f := bits p2 29 26 }

/-- Every parameter is at least 1, as R386 asks. -/
def CcParams.ok (c : CcParams) : Bool :=
  c.rateAi != 0 && c.rateHai != 0 && c.minRate != 0 && c.byteCounter != 0 && c.alphaTimer != 0 && c.rateTimer != 0
    && c.cnpInterval != 0 && c.g != 0 && c.f != 0

/-- PORT_CONFIG SET_CC (R361, R386); LINK is reserved in it (R4). -/
def handleSetCc : Handler := fun ch r s =>
  let p0 := word r.payload 0
  let c := readCc r.payload
  if ch = 0 || !r.sealed then .refuse .notPermitted
  else if nonZero p0 63 18 || nonZero p0 15 0 || nonZero (word r.payload 2) 25 0 then .refuse .badParam
  else if r.payload.length != 3 then .refuse .badLength
  else if !c.ok then .refuse .badParam
  else .done .ok [] (s.modNet (chanPart ch) (fun n => { n with cc := c }))

/-- PORT_CONFIG by its OP field. -/
def handlePortConfig : Handler := fun ch r s =>
  match bits (word r.payload 0) 17 16 with
  | 0 => handleSetLink ch r s
  | 1 => handleSetCak ch r s
  | 2 => handleLinkStatus ch r s
  | _ => handleSetCc ch r s

/-- PORT_CONFIG_SET_LINK. -/
def execPortConfigSetLink (ch : Fin 17) (c : Cmd) (s : State) : Host.Outcome State Fault Refusal :=
  .next (s.submit handlePortConfig 0x0601 ch (cmdSel c 0 17 16 0))

/-- PORT_CONFIG_SET_CAK. -/
def execPortConfigSetCak (ch : Fin 17) (c : Cmd) (s : State) : Host.Outcome State Fault Refusal :=
  .next (s.submit handlePortConfig 0x0601 ch (cmdSel c 0 17 16 1))

/-- PORT_CONFIG_STATUS. -/
def execPortConfigStatus (ch : Fin 17) (c : Cmd) (s : State) : Host.Outcome State Fault Refusal :=
  .next (s.submit handlePortConfig 0x0601 ch (cmdSel c 0 17 16 2))

/-- PORT_CONFIG_SET_CC. -/
def execPortConfigSetCc (ch : Fin 17) (c : Cmd) (s : State) : Host.Outcome State Fault Refusal :=
  .next (s.submit handlePortConfig 0x0601 ch (cmdSel c 0 17 16 3))

/-! ## The context cache (R373) -/

/-- Contexts of a partition's share. -/
def Partition.cacheSize (q : Partition) : Nat := q.ctxShare * 256

/-- Put a context into the cache as the most recently used; the least recently used one leaves a full share. -/
def State.cacheContext (s : State) (p : Fin 16) (i : Nat) : State :=
  let size := (s.parts[p]).cacheSize
  s.modNet p (fun n => { n with cache := (i :: n.cache.filter (fun e => e != i)).take size })

/-! ## CREATE_QP (R371) -/

/-- The checks of STORE in the order of R519 and R371. -/
def checkStore (q : Partition) (w : List W64) : Option Status :=
  let addr := bits (word w 1) 38 0
  let size := q.qpQuota * 1024 * 256
  if nonZero (word w 0) 63 18 || nonZero (word w 0) 15 0 || nonZero (word w 1) 63 39 then some .badParam
  else if w.length != 2 then some .badLength
  else if addr % 4096 != 0 then some .badParam
  else if !q.net.qps.isEmpty then some .badState
  else if addr + size > q.dramSize then some .badParam
  else if q.anyRoundOwns none addr size || q.programOwns addr size then some .notPermitted
  else none

/-- CREATE_QP STORE (R371). -/
def handleStore : Handler := fun ch r s =>
  let p := chanPart ch
  match checkStore s.parts[p] r.payload with
  | some st => .refuse st
  | none => .done .ok [] (s.modNet p (fun n => { n with store := some (bits (word r.payload 1) 38 0) }))

/-- The lowest free local index of a partition (R369, R371). -/
def Partition.freeQp (q : Partition) : Option Nat := leastBelow (q.qpQuota * 1024) (fun i => !Table.has q.net.qps i)

/-- The checks of CREATE in the order of R519 and R371. -/
def checkCreateQp (q : Partition) (w : List W64) : Option Status :=
  let p0 := word w 0
  let link := bits p0 40 36
  if nonZero p0 35 18 || nonZero p0 15 0 || nonZero (word w 1) 63 56 || nonZero (word w 1) 31 24 || nonZero (word w 2) 63 24
      || (!bitAt p0 44 && (nonZero (word w 3) 63 32 || word w 4 != 0)) then some .badParam
  else if w.length != 5 then some .badLength
  else if bits p0 63 61 = 0 || bits p0 63 61 > 3 || bits p0 54 50 = 0 || link > 23 then some .badParam
  else if q.net.store.isNone then some .badState
  else if q.foldK = 0 then some .noResource
  else if !q.linkMask.testBit link then some .notPermitted
  else if q.freeQp.isNone then some .tableFull
  else none

/-- Line rate of a link in Mbit/s (R359). -/
def Link.lineRate (k : Link) : Nat := if k.mode = 2 then 400000 else 800000

/-- One as a fixed-point fraction of the rate controller. -/
def fixOne : Nat := 2 ^ 40

/-- The rate controller of a new queue pair (R385): at line rate; alpha starts at 1 (PRESUMED: DCQCN). -/
def Rate.start (k : Link) (t : Nat) : Rate :=
  ⟨k.lineRate * fixOne, k.lineRate * fixOne, fixOne, 0, 0, none, none, t, t, 0⟩

/-- The queue pair that a CREATE payload describes (R371), in INIT. -/
def readQp (s : State) (p : Fin 16) (w : List W64) : Qp :=
  let p0 := word w 0
  let q := s.parts[p]
  let link := bits p0 40 36
  { st := .init, mtu := bits p0 63 61, retry := bits p0 60 58, rnrRetry := bits p0 57 55, timeout := bits p0 54 50
    rnrTimer := bits p0 49 45, ipv6 := bitAt p0 44, prio := if q.shared then q.prio else bits p0 43 41, link := link
    destQpn := bits (word w 1) 55 32, peer0 := word w 3, peer1 := word w 4, ePsn := bits (word w 1) 23 0, seqNak := false
    msg := none, sinceAck := 0, sqPsn := bits (word w 2) 23 0, egress := [], sending := none
    rate := Rate.start (s.links[Fin.ofNat 24 link]) s.clock }

/-- CREATE_QP CREATE (R371, R373). -/
def handleCreate : Handler := fun ch r s =>
  let p := chanPart ch
  match checkCreateQp s.parts[p] r.payload, (s.parts[p]).freeQp with
  | some st, _ => .refuse st
  | none, none => .refuse .tableFull
  | none, some i =>
    let s := s.modNet p (fun n => { n with qps := Table.put n.qps i (readQp s p r.payload) })
    .done .ok [w64 (qpnOf p i * 2 ^ 32 + i)] (s.cacheContext p i)

/-- CREATE_QP by its OP field; other values are reserved (R7). -/
def handleCreateQp : Handler := fun ch r s =>
  match bits (word r.payload 0) 17 16 with
  | 0 => handleStore ch r s
  | 1 => handleCreate ch r s
  | _ => .refuse .badParam

/-- CREATE_QP_STORE. -/
def execCreateQpStore (ch : Fin 17) (c : Cmd) (s : State) : Host.Outcome State Fault Refusal :=
  .next (s.submit handleCreateQp 0x0602 ch (cmdSel c 0 17 16 0))

/-- CREATE_QP_CREATE. -/
def execCreateQpCreate (ch : Fin 17) (c : Cmd) (s : State) : Host.Outcome State Fault Refusal :=
  .next (s.submit handleCreateQp 0x0602 ch (cmdSel c 0 17 16 1))

/-! ## MODIFY_QP and DESTROY_QP (R370, R372) -/

/-- A state's encoding (R370). -/
def readQpState : Nat → Option QpState
  | 1 => some .init
  | 2 => some .rtr
  | 3 => some .rts
  | 4 => some .error
  | _ => none

/-- The allowed transitions (R370). -/
def qpMove : QpState → QpState → Bool
  | _, .error => true
  | .init, .rtr => true
  | .rtr, .rts => true
  | .error, .init => true
  | _, _ => false

/-- MODIFY_QP STATE (R370, R372). The packet sequence numbers are reserved in every move but the one to INIT (R4). -/
def handleQpState : Handler := fun ch r s =>
  let p := chanPart ch
  let w := r.payload
  let i := bits (word w 0) 57 40
  if nonZero (word w 0) 63 58 || nonZero (word w 0) 39 18 || nonZero (word w 0) 15 3 || nonZero (word w 1) 63 24
      || nonZero (word w 2) 63 24 || (bits (word w 0) 2 0 != 1 && (word w 1 != 0 || word w 2 != 0)) then .refuse .badParam
  else
    match readQpState (bits (word w 0) 2 0), s.qp? p i with
    | none, _ => .refuse .badParam
    | some n, q =>
      if w.length != 3 then .refuse .badLength
      else
        match q with
        | none => .refuse .badParam
        | some q =>
          if !qpMove q.st n then .refuse .badState
          else if n = .error then .done .ok [] (s.qpError p i 5 0)
          else
            let psn (q : Qp) : Qp :=
              if n = .init then
                { q with ePsn := bits (word w 1) 23 0, sqPsn := bits (word w 2) 23 0, seqNak := false, sinceAck := 0 }
              else q
            .done .ok [] (s.modQp p i (fun q => { psn q with st := n }))

/-- MODIFY_QP POST_EGRESS (R372, R382). -/
def handlePostEgress : Handler := fun ch r s =>
  let p := chanPart ch
  let w := r.payload
  let i := bits (word w 0) 57 40
  let e := w.drop 1
  let full : Bool := (s.parts[p]).egressLoad i ≥ 16
  if nonZero (word w 0) 63 58 || nonZero (word w 0) 39 18 || nonZero (word w 0) 15 0 || egressReserved e then .refuse .badParam
  else if w.length != 7 then .refuse .badLength
  else if egressMalformed s p (some i) e then .refuse .badParam
  else if full then .refuse .tableFull
  else
    match checkEgress s p none (some i) e with
    | some st => .refuse st
    | none => .done .ok [] (s.queueEgress p e)

/-- MODIFY_QP by its OP field; other values are reserved (R7). -/
def handleModifyQp : Handler := fun ch r s =>
  match bits (word r.payload 0) 17 16 with
  | 0 => handleQpState ch r s
  | 1 => handlePostEgress ch r s
  | _ => .refuse .badParam

/-- MODIFY_QP_STATE. -/
def execModifyQpState (ch : Fin 17) (c : Cmd) (s : State) : Host.Outcome State Fault Refusal :=
  .next (s.submit handleModifyQp 0x0603 ch (cmdSel c 0 17 16 0))

/-- MODIFY_QP_POST_EGRESS. -/
def execModifyQpPostEgress (ch : Fin 17) (c : Cmd) (s : State) : Host.Outcome State Fault Refusal :=
  .next (s.submit handleModifyQp 0x0603 ch (cmdSel c 0 17 16 1))

/-- Fetches of a partition that may be in flight at once. -/
def maxFetches : Nat := 64

/-- A fetch lasts two stack frames (R373: at most). -/
def fetchUnits : Nat := 2 * frameUnits

/-- Start the fetch of a context; the packets that wait for it leave the fold queue (R89, R373). -/
def State.startFetch (s : State) (p : Fin 16) (i : Nat) : State :=
  ((s.modNet p (fun n => { n with fetches := n.fetches ++ [(i, s.clock + fetchUnits)] })).count (vf p) .netCtxMiss 1).resumeLinks p

/-- A queue pair's context is being fetched. -/
def NetPart.fetching (n : NetPart) (i : Nat) : Bool := n.fetches.any (fun e => e.1 == i)

/-- Start a fetch for the first waiting packet or send that has none; its packets leave the fold queue for the fetch (R89, R373). -/
def State.nextFetch (s : State) (p : Fin 16) : State :=
  let n := (s.parts[p]).net
  match (n.waiting.map Prod.fst ++ n.sendWaiting).find? (fun i => !n.fetching i && !n.cache.contains i) with
  | some i => if n.fetches.length < maxFetches then s.startFetch p i else s
  | none => s

/-- Free a queue pair's index and its context (R372). -/
def NetPart.freeQpIndex (n : NetPart) (i : Nat) : NetPart :=
  { n with
    qps := Table.del n.qps i, cache := n.cache.filter (fun e => e != i), fetches := n.fetches.filter (fun e => e.1 != i)
    waiting := n.waiting.filter (fun e => e.1 != i), sendWaiting := n.sendWaiting.filter (fun e => e != i) }

/-- DESTROY_QP (R372): to ERROR first, then the index and the context are free; packets that waited for the context leave the fold queue
(R89), and its fetch gives way to the next (R373). -/
def handleDestroyQp : Handler := fun ch r s =>
  let p := chanPart ch
  let w := word r.payload 0
  let i := bits w 17 0
  if nonZero w 63 18 then .refuse .badParam
  else if (s.qp? p i).isNone then .refuse .badParam
  else .done .ok [] ((((s.qpError p i 5 0).modNet p (fun n => n.freeQpIndex i)).resumeLinks p).nextFetch p)

/-- DESTROY_QP. -/
def execDestroyQp (ch : Fin 17) (c : Cmd) (s : State) : Host.Outcome State Fault Refusal :=
  .next (s.submit handleDestroyQp 0x0604 ch c)

/-! ## Regions (R375, R379, R380) -/

/-- The checks of REGISTER_REGION in the order of R375; the counter of an ORDINARY region, and QP while QP_LOCK is 0, are
reserved (R4). -/
def checkRegister (q : Partition) (w : List W64) : Option Status :=
  let p0 := word w 0
  let base := bits (word w 1) 38 0
  let len := bits (word w 2) 36 0
  if nonZero p0 63 48 || nonZero p0 31 19 || nonZero p0 15 0 || bits p0 17 16 > 1 || nonZero (word w 1) 63 39
      || nonZero (word w 2) 63 37 || nonZero (word w 3) 63 18 || (bits p0 17 16 = 0 && nonZero p0 47 32)
      || (!bitAt p0 18 && nonZero (word w 3) 17 0) then some .badParam
  else if base % 4096 != 0 || len % 4096 != 0 || len < 4096 || len > 2 ^ 36 || base + len > q.dramSize
      || (bits p0 17 16 = 1 && !q.ownsCtr (readCtr (bits p0 47 32)))
      || (bitAt p0 18 && !Table.has q.net.qps (bits (word w 3) 17 0)) then some .badParam
  else if q.anyRoundOwns none base len || q.programOwns base len || q.storeOwns base len then some .notPermitted
  else if q.foldK = 0 then some .noResource
  else if q.net.freeReg.isNone then some .tableFull
  else none

/-- REGISTER_REGION (R374, R375): a counter-mapped region's counter becomes held. -/
def handleRegisterRegion : Handler := fun ch r s =>
  let p := chanPart ch
  let w := r.payload
  match checkRegister s.parts[p] w, (s.parts[p]).net.freeReg with
  | some st, _ => .refuse st
  | none, none => .refuse .tableFull
  | none, some i =>
    let ctr := if bits (word w 0) 17 16 = 1 then some (readCtr (bits (word w 0) 47 32)) else none
    let g : Region :=
      ⟨ctr, bits (word w 1) 38 0, bits (word w 2) 36 0, if bitAt (word w 0) 18 then some (bits (word w 3) 17 0) else none, none⟩
    let s := s.modNet p (fun n => n.register i (.region g))
    let s : State := match ctr with
      | some c => s.bindCounter p c
      | none => s
    .done .ok [s.rkeyWord p i] s

/-- REGISTER_REGION. -/
def execRegisterRegion (ch : Fin 17) (c : Cmd) (s : State) : Host.Outcome State Fault Refusal :=
  .next (s.submit handleRegisterRegion 0x0605 ch c)

/-- REVOKE_REGION (R379): answered REVOKING at once. -/
def handleRevokeRegion : Handler := fun ch r s =>
  let p := chanPart ch
  let w := word r.payload 0
  let k := bits w 31 0
  if nonZero w 63 32 then .refuse .badParam
  else
    match (s.parts[p]).net.region? k with
    | none => .refuse .badParam
    | some g =>
      if g.revoking.isSome then .refuse .badState
      else .done .revoking [] (s.modNet p (fun n => n.modRegion (rkeyIndex k) (fun g => { g with revoking := some ⟨s.clock, 0, 0⟩ })))

/-- REVOKE_REGION. -/
def execRevokeRegion (ch : Fin 17) (c : Cmd) (s : State) : Host.Outcome State Fault Refusal :=
  .next (s.submit handleRevokeRegion 0x0606 ch c)

/-- A message for the registration that stands at an index (R380): its rkey is the current one, and it is not abandoned. -/
def NetPart.accepted (n : NetPart) (i : Nat) (m : InMsg) : Bool := n.rkey i == some m.rkey && !m.dead

/-- A message for a registration is under way and not abandoned. -/
def NetPart.msgUnderway (n : NetPart) (i : Nat) : Bool := n.qps.any (fun e => e.2.msg.any (n.accepted i))

/-- A packet for a registration index waits in the fold queue. -/
def RoundPart.placing (x : RoundPart) (i : Nat) : Bool :=
  x.foldQ.any (fun e => match e with
    | .place _ reg _ _ _ _ _ => reg == i
    | .fold _ _ _ _ _ _ _ _ => false)

/-- REVOCATION_DRAINED (R380). -/
def execRevocationDrained (p : Fin 16) (i : Nat) (s : State) : Host.Outcome State Fault Refusal :=
  .next (
    let q := s.parts[p]
    match Table.get? q.net.regs i, q.net.rkey i with
    | some ⟨_, .region g⟩, some k =>
      match g.revoking with
      | some v =>
        if q.net.msgUnderway i || q.rnd.placing i then s
        else (s.modNet p (fun n => n.unregister i)).postPart p 0x0611 .ok [w64 k, w64 v.placed, w64 v.abandoned]
      | none => s
    | _, _ => s)

/-- REVOCATION_TIMEOUT (R380): 100 ms after a revocation started, what remains of its messages is abandoned. -/
def execRevocationTimeout (p : Fin 16) (i : Nat) (s : State) : Host.Outcome State Fault Refusal :=
  .next (
    let q := s.parts[p]
    match Table.get? q.net.regs i with
    | some ⟨_, .region g⟩ =>
      match g.revoking with
      | some v =>
        if !q.net.msgUnderway i then s
        else
          let s := s.advance (v.at' + 100 * ms)
          let mine (m : InMsg) : Bool := q.net.accepted i m
          let lost := (q.net.qps.map (fun e => (e.2.msg.filter mine).elim 0 (fun m => m.left (mtuBytes e.2.mtu)))).foldl (· + ·) 0
          let kill (m : InMsg) : InMsg := if mine m then { m with dead := true } else m
          let s := s.modNet p (fun n => { n with qps := n.qps.map (fun e => (e.1, { e.2 with msg := e.2.msg.map kill })) })
          s.modNet p (fun n => n.modRegion i (fun g =>
            { g with revoking := g.revoking.map (fun v => { v with abandoned := v.abandoned + lost }) }))
      | none => s
    | _ => s)

/-! ## SET_EGRESS_ALLOW (R381) -/

/-- The entry that a SET payload describes. -/
def readAllow (w : List W64) : AllowEntry :=
  ⟨bitAt (word w 0) 32, bits (word w 0) 25 24, word w 1, word w 2, wordsToBytes (w.drop 3)⟩

/-- PEER_PUB has the form its KEY_KIND asks (R381). -/
def AllowEntry.pubOk (a : AllowEntry) : Bool :=
  match a.kind with
  | 0 => a.pub.all (· == 0)
  | 1 => (readPoint a.pub).isSome
  | _ => (a.pub.drop 32).all (· == 0)

/-- Reserved fields of SET_EGRESS_ALLOW. -/
def allowReserved (w : W64) : Bool :=
  nonZero w 63 33 || nonZero w 31 26 || nonZero w 23 18 || nonZero w 15 6

/-- SET_EGRESS_ALLOW SET (R381). -/
def handleAllowSet : Handler := fun ch r s =>
  let w := r.payload
  let a := readAllow w
  if allowReserved (word w 0) || a.kind = 3 || (!a.ipv6 && (nonZero (word w 1) 63 32 || word w 2 != 0)) then .refuse .badParam
  else if !a.pubOk then .refuse .badParam
  else .done .ok [] (s.modNet (chanPart ch) (fun n => { n with allow := Table.put n.allow (bits (word w 0) 5 0) a }))

/-- SET_EGRESS_ALLOW CLEAR (R381): every field but OP and ENTRY is reserved (R4). -/
def handleAllowClear : Handler := fun ch r s =>
  let w := word r.payload 0
  let p := chanPart ch
  if allowReserved w || bitAt w 32 || nonZero w 25 24 || (r.payload.drop 1).any (· != 0) then .refuse .badParam
  else if !Table.has (s.parts[p]).net.allow (bits w 5 0) then .refuse .badState
  else .done .ok [] (s.modNet p (fun n => { n with allow := Table.del n.allow (bits w 5 0) }))

/-- SET_EGRESS_ALLOW by its OP field; other values are reserved. -/
def handleAllow : Handler := fun ch r s =>
  match bits (word r.payload 0) 17 16 with
  | 0 => handleAllowSet ch r s
  | 1 => handleAllowClear ch r s
  | _ => .refuse .badParam

/-- SET_EGRESS_ALLOW_SET. -/
def execSetEgressAllowSet (ch : Fin 17) (c : Cmd) (s : State) : Host.Outcome State Fault Refusal :=
  .next (s.submit handleAllow 0x0205 ch (cmdSel c 0 17 16 0))

/-- SET_EGRESS_ALLOW_CLEAR. -/
def execSetEgressAllowClear (ch : Fin 17) (c : Cmd) (s : State) : Host.Outcome State Fault Refusal :=
  .next (s.submit handleAllow 0x0205 ch (cmdSel c 0 17 16 1))

/-! ## A partition's end and what it holds (R351 to R353) -/

/-- Entries of the allowlist (R352). -/
def State.allowCount (s : State) (p : Fin 16) : Nat := (s.parts[p]).net.allow.length

/-- The partition holds a fold window, a registration or a queue pair (R351). -/
def State.netHolds (s : State) (p : Fin 16) : Bool :=
  let q := s.parts[p]
  !q.rnd.windows.isEmpty || !q.net.regs.isEmpty || !q.net.qps.isEmpty

/-- Chunks that wait in the fold queue: at a destruction their windows die under them (R65). -/
def RoundPart.waitingFolds (x : RoundPart) : Nat :=
  (x.foldQ.filter (fun e => match e with
    | .fold _ _ _ _ _ _ _ _ => true
    | .place _ _ _ _ _ _ _ => false)).length

/-- A destruction ends the partition's traffic (R353, chapter 14): chunks not yet past their ledger stage are dropped as for a dead window
and counted (R65), region packets not yet placed are discarded, queue pairs and registrations are gone. -/
def State.netDestroy (s : State) (p : Fin 16) : State :=
  let n := (s.parts[p]).rnd.waitingFolds
  (((s.count (vf p) .foldDead n).modRnd p (fun x => { x with foldQ := [] })).modNet p (fun _ => NetPart.empty)).resumeLinks p

end Sys2Proof.Machine
end

