-- ==== Sys2Proof/Machine/NetRx.lean ====
section
/-! DEFINITION. Frames received (R360, R364 to R368, R373, R377) and the transport of the part's own sends (R367, R371, R373,
R384 to R386). -/

namespace Sys2Proof.Machine

/-! ## PSNs (R366) -/

/-- The expected PSN is the packet's. -/
def psnDiff (psn expected : Nat) : Nat := (psn + 2 ^ 24 - expected % 2 ^ 24) % 2 ^ 24

/-- A PSN lies before the expected one: within the half of the space behind it. -/
def psnBefore (psn expected : Nat) : Bool := psnDiff psn expected ≥ 2 ^ 23

/-! ## The rate controller (R385) -/

/-- The parameters of a partition. -/
def State.ccOf (s : State) (p : Fin 16) : CcParams := (s.parts[p]).net.cc

/-- MIN_RATE holds from below (R385). -/
def Rate.floor (r : Rate) (c : CcParams) : Rate := { r with current := Nat.max r.current (c.minRate * fixOne) }

/-- A CNP reaches the reaction point (R385): at most one per CNP_INTERVAL acts. -/
def Rate.onCnp (r : Rate) (c : CcParams) (t : Nat) : Rate :=
  let due : Bool := match r.lastCnpIn with
    | some u => u + c.cnpInterval * us ≤ t
    | none => true
  if due then
    Rate.floor { r with
      target := r.current, current := r.current - r.current * r.alpha / (2 * fixOne)
      alpha := r.alpha - r.alpha / 2 ^ c.g + fixOne / 2 ^ c.g
      stageT := 0, stageB := 0, lastCnpIn := some t, alphaAt := t } c
  else r

/-- The recovery that follows an advance of a stage (R385), at the line rate of the link. -/
def Rate.recover (r : Rate) (c : CcParams) (line : Nat) : Rate :=
  let t := if Nat.min r.stageT r.stageB > c.f then r.target + c.rateHai * fixOne
    else if Nat.max r.stageT r.stageB > c.f then r.target + c.rateAi * fixOne
    else r.target
  Rate.floor { r with target := t, current := Nat.min (line * fixOne) ((r.current + t) / 2) } c

/-- Line rate of a queue pair's link. -/
def State.lineOf (s : State) (q : Qp) : Nat := (s.links[q.linkNo]).lineRate

/-- ALPHA_TIMER (R385): a whole ALPHA_TIMER without a CNP decays alpha. -/
def execAlphaTimer (p : Fin 16) (i : Nat) (s : State) : Host.Outcome State Fault Refusal :=
  .next (
    match s.qp? p i with
    | some q =>
      let c := s.ccOf p
      let t := q.rate.alphaAt + c.alphaTimer * us
      (s.advance t).modQp p i (fun q =>
        { q with rate := Rate.floor { q.rate with alpha := q.rate.alpha - q.rate.alpha / 2 ^ c.g, alphaAt := Nat.max t s.clock } c })
    | none => s)

/-- RATE_TIMER (R385). -/
def execRateTimer (p : Fin 16) (i : Nat) (s : State) : Host.Outcome State Fault Refusal :=
  .next (
    match s.qp? p i with
    | some q =>
      let c := s.ccOf p
      let t := q.rate.rateAt + c.rateTimer * us
      let r : Rate := { q.rate with stageT := q.rate.stageT + 1, rateAt := Nat.max t s.clock }
      (s.advance t).modQp p i (fun q => { q with rate := r.recover c (s.lineOf q) })
    | none => s)

/-- BYTE_COUNTER (R385): the queue pair has sent BYTE_COUNTER × 64 KiB. -/
def execByteCounter (p : Fin 16) (i : Nat) (s : State) : Host.Outcome State Fault Refusal :=
  .next (
    match s.qp? p i with
    | some q =>
      let c := s.ccOf p
      let n := c.byteCounter * 65536
      if q.rate.bytes < n then s
      else
        let r : Rate := { q.rate with stageB := q.rate.stageB + 1, bytes := q.rate.bytes - n }
        s.modQp p i (fun q => { q with rate := r.recover c (s.lineOf q) })
    | none => s)

/-! ## As requester (R366, R367, R371, R384) -/

/-- Bytes of packets. -/
def sentBytes (ks : List TxPacket) : Nat := (ks.map (fun k => k.payload.length)).foldl (· + ·) 0

/-- A packet is a FLUSH. -/
def TxPacket.isFlush (k : TxPacket) : Bool := k.op == .flush

/-- Packets that an acknowledgement up to a PSN, that one included, takes off the list; a FLUSH is ended by its response alone. -/
def ackedBy (psn : Nat) (ks : List TxPacket) : List TxPacket :=
  ks.takeWhile (fun k => !k.isFlush && (k.psn == psn || psnBefore k.psn psn))

/-- Progress of a send: packets acknowledged, and retries afresh. -/
def Send.progress (d : Send) (q : Qp) (done : List TxPacket) (t : Nat) : Send :=
  if done.isEmpty then d
  else
    { d with
      acked := d.acked + sentBytes done, unacked := d.unacked.drop done.length, retries := q.retry, rnrs := q.rnrRetry, timer := t }

/-- Change the send under way on a queue pair. -/
def State.modSend (s : State) (p : Fin 16) (i : Nat) (f : Send → Send) : State :=
  s.modQp p i (fun q => { q with sending := q.sending.map f })

/-- Send every unacknowledged packet again (go-back-N): bytes sent, for the rate controller too (R385). -/
def State.resend (s : State) (p : Fin 16) (i : Nat) : State :=
  match s.qp? p i with
  | some q =>
    match q.sending with
    | some d =>
      let s := (s.modSend p i (fun d => { d with timer := s.clock })).modQp p i (fun q =>
        { q with rate := { q.rate with bytes := q.rate.bytes + sentBytes d.unacked } })
      (s.txPackets p i q d.unacked).count (vf p) .netRetransmit d.unacked.length
    | none => s
  | none => s

/-- One transport retry: retransmission, or ERROR with cause 2 (R387). -/
def State.retry (s : State) (p : Fin 16) (i : Nat) (d : Send) : State :=
  if d.retries = 0 then s.qpError p i 2 0 else (s.modSend p i (fun d => { d with retries := d.retries - 1 })).resend p i

/-- Times of the RNR timer codes in units of 10 µs (InfiniBand specification; PRESUMED: the manual names the code alone). -/
def rnrTimes : List Nat :=
  [65536, 1, 2, 3, 4, 6, 8, 12, 16, 24, 32, 48, 64, 96, 128, 192, 256, 384, 512, 768, 1024, 1536, 2048, 3072, 4096, 6144, 8192,
   12288, 16384, 24576, 32768, 49152]

/-- Wait after an RNR NAK with a timer code. -/
def rnrWait (code : Nat) : Nat := rnrTimes.getD code 0 * (10 * us)

/-- An acknowledgement or NAK for the part's own requests (R366, R367). -/
def State.onAck (s : State) (p : Fin 16) (i : Nat) (q : Qp) (psn syndrome : Nat) : State :=
  match q.sending with
  | none => s
  | some d =>
    if !d.unacked.any (fun k => k.psn == psn) then s
    else
      let upTo := d.unacked.takeWhile (fun k => k.psn != psn && !k.isFlush)
      if syndrome < 0x20 then s.modSend p i (fun d => d.progress q (ackedBy psn d.unacked) s.clock)
      else
        let s := s.modSend p i (fun d => d.progress q upTo s.clock)
        let d := d.progress q upTo s.clock
        if syndrome < 0x40 then s.modSend p i (fun d => { d with rnrUntil := some (s.clock + rnrWait (syndrome - 0x20)) })
        else if syndrome = synSeq then s.retry p i d
        else if syndrome = synInvalid || syndrome = synAccess then s.qpError p i 1 syndrome
        else s

/-- The response to the FLUSH of a send (R384, R237): an egress ends with OK; a refresh message is then in the peer's memory, and
REFRESH_FLUSH_COMPLETE ends it. -/
def State.onFlushResponse (s : State) (p : Fin 16) (i : Nat) (q : Qp) (psn : Nat) : State :=
  match q.sending with
  | none => s
  | some d =>
    if !d.unacked.any (fun k => k.psn == psn && k.isFlush) then s
    else
      match d.kind with
      | .egress id => (s.modQp p i (fun q => { q with sending := none })).egressDone p i .ok id d.length
      | .refresh _ _ _ _ _ => s.modSend p i (fun d => { d with acked := d.length, unacked := [], rnrUntil := none })

/-- QP_ACK_TIMEOUT (R371, R387): the local ACK timeout of a send runs out. -/
def execQpAckTimeout (p : Fin 16) (i : Nat) (s : State) : Host.Outcome State Fault Refusal :=
  .next (
    match s.qp? p i with
    | some q =>
      match q.sending with
      | some d =>
        if d.unacked.isEmpty || d.rnrUntil.isSome then s
        else (s.advance (d.timer + 2 ^ q.timeout * 4096 * ns)).retry p i d
      | none => s
    | none => s)

/-- RNR_WAIT_EXPIRY (R367, R387): the send is tried again, or its queue pair enters ERROR with cause 3. -/
def execRnrWaitExpiry (p : Fin 16) (i : Nat) (s : State) : Host.Outcome State Fault Refusal :=
  .next (
    match s.qp? p i with
    | some q =>
      match q.sending.bind (fun d => d.rnrUntil.map (fun t => (d, t))) with
      | some (d, t) =>
        let s := (s.advance t).modSend p i (fun d => { d with rnrUntil := none })
        if q.rnrRetry = 7 then s.resend p i
        else if d.rnrs = 0 then s.qpError p i 3 0
        else (s.modSend p i (fun d => { d with rnrs := d.rnrs - 1 })).resend p i
      | none => s
    | none => s)

/-! ## The region stage (R377) -/

/-- A packet that starts a message. -/
def startsMsg : RdmaOp → Bool
  | .writeFirst => true
  | .writeOnly => true
  | .writeOnlyImm => true
  | _ => false

/-- A packet that ends a message. -/
def endsMsg : RdmaOp → Bool
  | .writeLast => true
  | .writeLastImm => true
  | .writeOnly => true
  | .writeOnlyImm => true
  | _ => false

/-- A responder opcode of R365. -/
def writeOp : RdmaOp → Bool
  | .writeMiddle => true
  | k => startsMsg k || endsMsg k

/-- The checks of R377 for the message of a packet. One that began at the window stage has no region: its window is gone (R75). -/
def regionAllows (n : NetPart) (i : Nat) (m : InMsg) (first : Bool) : Bool :=
  if first then
    match n.region? m.rkey with
    | some g => g.revoking.isNone && g.qpLock.all (fun k => k == i) && g.base ≤ m.va && m.va + m.len ≤ g.base + g.length
    | none => false
  else !m.dead && !m.win

/-- The packet's payload has the size its place in the message asks (R377). -/
def sizeOk (mtu : Nat) (m : InMsg) (k : Roce) : Bool :=
  if endsMsg k.op then m.got + k.payload.length == m.len && k.payload.length ≤ mtu
  else k.payload.length == mtu && m.got + mtu ≤ m.len

/-- The region stage (R377). -/
def State.regionStage (s : State) (p : Fin 16) (i : Nat) (q : Qp) (m : InMsg) (k : Roce) : Verdict × State :=
  let pt := s.parts[p]
  let naked (v : Verdict) : Verdict × State := (v, s.count (vf p) .netFatalNak 1)
  if !regionAllows pt.net i m (startsMsg k.op) then naked .access
  else if !sizeOk (mtuBytes q.mtu) m k then naked .invalid
  else if pt.queueLevel ≥ 1024 then (.dropped, s.count (vf p) .foldOverrun 1)
  else
    let s := s.modRnd p (fun x => { x with nextPlace := x.nextPlace + 1 })
    (.taken, s.enqueue p q.prio (.place pt.rnd.nextPlace (rkeyIndex m.rkey) (m.va + m.got) k.payload (hasImm k.op) i (endsMsg k.op)))

/-! ## As responder (R366 to R368) -/

/-- Which stage a registration index leads to (R377). -/
def NetPart.isWindow (n : NetPart) (i : Nat) : Bool :=
  match Table.get? n.regs i with
  | some ⟨_, .window _⟩ => true
  | _ => false

/-- Send a fatal NAK: the queue pair enters ERROR with cause 0 (R367). -/
def State.fatalNak (s : State) (p : Fin 16) (i : Nat) (q : Qp) (psn syndrome : Nat) : State :=
  (s.answer p i q psn syndrome).qpError p i 0 syndrome

/-- A packet has been taken: the expected PSN moves on, its message grows or ends, and its message's last packet and every 16th
are acknowledged (R368). -/
def State.takePacket (s : State) (p : Fin 16) (i : Nat) (q : Qp) (m : InMsg) (k : Roce) : State :=
  let last := endsMsg k.op
  let ack := last || q.sinceAck + 1 ≥ 16
  let s := s.modQp p i (fun q =>
    { q with
      ePsn := (q.ePsn + 1) % 2 ^ 24, seqNak := false, sinceAck := if ack then 0 else q.sinceAck + 1
      msg := if last then none else some { m with got := m.got + k.payload.length } })
  if ack then s.answer p i q k.psn synAck else s

/-- A request with the expected PSN (R366): its opcode, its message and its stage. A packet that does not follow from what came
before, a first one within a message or a later one outside, is an invalid request (PRESUMED: InfiniBand). -/
def State.onRequest (s : State) (p : Fin 16) (i : Nat) (q : Qp) (k : Roce) : State :=
  if !writeOp k.op || startsMsg k.op == q.msg.isSome then (s.count (vf p) .netFatalNak 1).fatalNak p i q k.psn synInvalid
  else
    let win := (s.parts[p]).net.isWindow (rkeyIndex (q.msg.elim k.rkey InMsg.rkey))
    let m := q.msg.getD ⟨k.rkey, k.va, k.len, 0, false, win⟩
    let (v, s) := if win then s.windowStage p i q m k else s.regionStage p i q m k
    match v with
    | .invalid => s.fatalNak p i q k.psn synInvalid
    | .access => s.fatalNak p i q k.psn synAccess
    | .taken => s.takePacket p i q m k
    | .rnr => s.answer p i q k.psn (synRnr q.rnrTimer)
    | .dropped => s

/-- The PSN row of R366. -/
def State.onPsn (s : State) (p : Fin 16) (i : Nat) (q : Qp) (k : Roce) : State :=
  if k.psn = q.ePsn then (s.modQp p i (fun q => { q with seqNak := false })).onRequest p i q k
  else if psnBefore k.psn q.ePsn then
    (s.count (vf p) .netDupPsn 1).answer p i q (q.ePsn + 2 ^ 24 - 1) synAck
  else if q.seqNak then s
  else ((s.count (vf p) .netSeqNak 1).modQp p i (fun q => { q with seqNak := true })).answer p i q q.ePsn synSeq

/-- A packet of a queue pair whose context is at hand. -/
def State.onPacket (s : State) (p : Fin 16) (i : Nat) (k : Roce) : State :=
  match s.qp? p i with
  | none => s
  | some q =>
    if q.st != .rtr && q.st != .rts then s
    else
      match k.op with
      | .ack => s.onAck p i q k.psn k.syndrome
      | .flushResponse => s.onFlushResponse p i q k.psn
      | .cnp =>
        (s.count (vf p) .netCnpReceived 1).modQp p i (fun q => { q with rate := q.rate.onCnp (s.ccOf p) s.clock })
      | _ => s.onPsn p i q k

/-! ## Contexts (R373) -/

/-- A packet needs its queue pair's context: at hand it is used; else the packet waits for a fetch, in the fold queue where 64
are in flight (R373). -/
def State.withContext (s : State) (p : Fin 16) (i prio : Nat) (f : Frame) (k : Roce) : State :=
  let q := s.parts[p]
  let n := q.net
  if n.cache.contains i then (s.cacheContext p i).onPacket p i k
  else if n.fetching i then s.modNet p (fun n => { n with waiting := n.waiting ++ [(i, f)] })
  else if n.fetches.length < maxFetches then
    (s.startFetch p i).modNet p (fun n => { n with waiting := n.waiting ++ [(i, f)] })
  else if q.queueLevel ≥ 1024 then s.count (vf p) .foldOverrun 1
  else (s.modNet p (fun n => { n with waiting := n.waiting ++ [(i, f)] })).pauseLinks p prio

/-- The RoCEv2 content of a frame. -/
def roceOf (f : Frame) : Option Roce :=
  match f.body with
  | .udp _ _ _ _ _ r => some r
  | _ => none

/-- CONTEXT_FETCH_DONE (R373): the context is in the cache, and what waited for it proceeds in order. -/
def execContextFetchDone (p : Fin 16) (i : Nat) (s : State) : Host.Outcome State Fault Refusal :=
  .next (
    let n := (s.parts[p]).net
    match n.fetches.find? (fun e => e.1 == i) with
    | none => s
    | some (_, t) =>
      let mine := n.waiting.filter (fun e => e.1 == i)
      let s := (s.advance t).modNet p (fun n =>
        { n with
          fetches := n.fetches.filter (fun e => e.1 != i), waiting := n.waiting.filter (fun e => e.1 != i)
          sendWaiting := n.sendWaiting.filter (fun e => e != i) })
      let s := (s.cacheContext p i).resumeLinks p
      let s := mine.foldl (fun s e => match roceOf e.2 with
        | some k => s.onPacket p i k
        | none => s) s
      let s := if n.sendWaiting.contains i then (s.syncDram p).startNext p i else s
      s.nextFetch p)

/-- Start the oldest request of a queue pair that sends nothing; without its context it waits for the fetch (R373). -/
def State.sendStart (s : State) (p : Fin 16) (i : Nat) : State :=
  let n := (s.parts[p]).net
  match s.qp? p i with
  | none => s
  | some q =>
    if q.sending.isSome || q.egress.isEmpty then s
    else if n.cache.contains i then ((s.cacheContext p i).syncDram p).startNext p i
    else if n.sendWaiting.contains i then s
    else
      let s := s.modNet p (fun n => { n with sendWaiting := n.sendWaiting ++ [i] })
      if n.fetching i || n.fetches.length ≥ maxFetches then s else s.startFetch p i

/-- EGRESS_SEND_START (R373, R384). -/
def execEgressSendStart (p : Fin 16) (i : Nat) (s : State) : Host.Outcome State Fault Refusal := .next (s.sendStart p i)

/-! ## FRAME_RECEIVED (R360, R364, R366) -/

/-- A frame is discarded before the queue-pair lookup (R363, R366). -/
def State.discardFrame (s : State) (l : Fin 24) : State := s.modLink l (fun k => { k with rxDiscards := k.rxDiscards + 1 })

/-- The association number of the SAK before the newest. -/
def Link.oldAn (k : Link) : Nat := (k.an + 3) % 4

/-- The packet number of which a SecTAG shows the low 32 bits, by the lowest acceptable one (PRESUMED: IEEE 802.1AE; log 152). -/
def fullPn (lowest pn : Nat) : Nat :=
  (lowest / 2 ^ 32 + if lowest % 2 ^ 32 ≥ 2 ^ 31 && pn < 2 ^ 31 then 1 else 0) * 2 ^ 32 + pn

/-- The slot of the SAK of an association number and the lowest acceptable packet number under it (R364): the newest SAK, or the one before it
while that is kept. -/
def Link.rxSak (k : Link) (l : Fin 24) (an : Nat) : Option (Nat × Nat) :=
  if an = k.an then some (k.sakSlot l.val, k.pnRx)
  else if an = k.oldAn then k.oldPn.map (fun n => (32 + 2 * l.val, n))
  else none

/-- The packet number of a protected frame that passes (R364): it is that of the MKA peer, its data and ICV are those of its VLAN tag and body under
GCM-AES-XPN-256, and the number is not below the lowest acceptable one. -/
def State.securedPn (s : State) (l : Fin 24) (f : Frame) (t : SecTag) : Option Nat :=
  let k := s.links[l]
  match k.rxSak l t.an with
  | some (slot, low) =>
    let pn := fullPn low t.pn
    let e := xpnSeal ((s.keyAt slot).getD []) (ssciOf t.sci k.sci) t.sci t.an pn f.mac t.src (Config.receivedBytes f.vid f.body)
    if k.macsec && k.secured && t.sci == k.peerSci && low ≤ pn && e == (t.data, t.icv) then some pn else none
  | none => none

/-- The frame passes MACsec as the link asks (R364): protected, whole and in order where it is required, and without a tag where it is off. -/
def State.macsecOk (s : State) (l : Fin 24) (f : Frame) : Bool :=
  match f.macsec with
  | some t => (s.securedPn l f t).isSome
  | none => !(s.links[l]).macsec

/-- Note the packet number of a frame that passed. The first frame under the newest SAK shows that the peer sends under it: the one before
it is retired (R364). -/
def State.sawPn (s : State) (l : Fin 24) (f : Frame) : State :=
  match f.macsec with
  | some t =>
    let pn := ((s.securedPn l f t).getD 0) + 1
    if t.an = (s.links[l]).an then (s.retireSak l).modLink l (fun k => { k with pnRx := pn })
    else s.modLink l (fun k => { k with oldPn := some pn })
  | none => s

/-- The broadcast MAC address. -/
def macBroadcast : Nat := 2 ^ 48 - 1

/-- The frame is addressed to the link (R360): its MAC (0 is none, R361), or broadcast for ARP, and its VID. Pauses go to the group
address of MAC control. -/
def Link.addressed (k : Link) (f : Frame) : Bool :=
  match f.body with
  | .pfc _ => true
  | .resolve v6 _ => (macOk k f || (!v6 && f.mac == macBroadcast)) && vidOk k f
  | _ => macOk k f && vidOk k f
where
  /-- The destination MAC is the link's. -/
  macOk (k : Link) (f : Frame) : Bool := k.mac != 0 && f.mac == k.mac
  /-- The VLAN tag is the link's. -/
  vidOk (k : Link) (f : Frame) : Bool := f.vid == (if k.tagged then some k.vid else none)

/-- An address is the link's own; 0 is none (R361). -/
def Link.owns (k : Link) (v6 : Bool) (addr : Nat) : Bool := addr != 0 && addr == (if v6 then k.ipv6 else k.ipv4)

/-- The answer to a request for the link's own address (R360): to the next-hop MAC, as every outbound packet, with the link's VLAN tag at
priority 0 (DESIGN CHOICE: the manual names none; log 153) and its MAC address. -/
def Link.neighbourAnswer (k : Link) (l : Fin 24) (v6 : Bool) (addr : Nat) : Output :=
  .neighbour l.val k.nextHop k.mac (if k.tagged then some (0, k.vid) else none) v6 addr k.mac

/-- A received priority pause (R360): honoured on the enabled priorities; a time of 0 resumes. -/
def State.onPfc (s : State) (l : Fin 24) (times : List (Nat × Nat)) : State :=
  times.foldl (fun s e =>
    if e.1 ≥ 8 || !(s.links[l]).pfcMask.testBit e.1 then s
    else if e.2 = 0 then s.unpause l e.1
    else s.modLink l (fun k =>
      { k with paused := k.paused.filter (fun x => x.1 != e.1) ++ [(e.1, s.clock + e.2 * ns)] })) s

/-- Answer a packet marked CE with a CNP (R385): at most one per queue pair and CNP_INTERVAL. -/
def State.sendCnp (s : State) (p : Fin 16) (i : Nat) (q : Qp) : State :=
  let due : Bool := match q.rate.lastCnpOut with
    | some u => u + (s.ccOf p).cnpInterval * us ≤ s.clock
    | none => true
  if due then
    let h := s.roceHdr p i q (s.links[q.linkNo]).dscpCnp 0
    ((s.modQp p i (fun q => { q with rate := { q.rate with lastCnpOut := some s.clock } })).tx q.linkNo q.prio
      (.answer q.link h q.destQpn 0 none)).count (vf p) .netCnpSent 1
  else s

/-- A RoCEv2 packet from the queue-pair lookup on (R366). -/
def State.onRoce (s : State) (l : Fin 24) (f : Frame) (ce : Bool) (k : Roce) : State :=
  match ofQpn k.destQpn with
  | none => s.discardFrame l
  | some (p, i) =>
    match s.qp? p i with
    | none => s.discardFrame l
    | some q =>
      if q.link != l.val || (q.st != .rtr && q.st != .rts) then s.discardFrame l
      else
        let s := s.count (vf p) .netRxPackets 1
        if !k.icrcOk then s.count (vf p) .netRxBad 1
        else (if ce then s.sendCnp p i q else s).withContext p i q.prio f k

/-- Bytes of the longest frame (R360). -/
def maxFrame : Nat := 9216

/-- FRAME_RECEIVED (R366): the checks in order, then the transport. A frame longer than R360 allows is discarded with the first of them. MKA
frames carry no SecTAG (R364), and the RTP takes them in its housekeeping turn (R344). -/
def execFrameReceived (l : Fin 24) (f : Frame) (s : State) : Host.Outcome State Fault Refusal :=
  .next (
    let k := s.links[l]
    if (k.mode != 1 && k.mode != 2) || (k.st != .up && k.st != .securing) then s
    else
      let s := s.modLink l (fun k => { k with rxFrames := k.rxFrames + 1 })
      if !f.fcsOk || f.len > maxFrame then s.discardFrame l
      else
        match f.body with
        | .mkaSak prio sci sak => if s.mkaRuns l then s.inHousekeeping.mkaExchange l prio sci sak else s.discardFrame l
        | .mkaMismatch => if s.mkaRuns l then s.inHousekeeping.mkaFail l true else s.discardFrame l
        | body =>
          if k.st != .up || !s.macsecOk l f then s.discardFrame l
          else
            let s := s.sawPn l f
            if !k.addressed f then s.discardFrame l
            else
              match body with
              | .pfc times => s.onPfc l times
              | .resolve v6 addr => if k.owns v6 addr then s.emitOn l (k.neighbourAnswer l v6 addr) else s.discardFrame l
              | .udp v6 addr headerOk port ce r =>
                if headerOk && port = 4791 && k.owns v6 addr then s.onRoce l f ce r else s.discardFrame l
              | _ => s.discardFrame l)

end Sys2Proof.Machine
end

