-- ==== Sys2Proof/Machine/Energy.lean ====
section
/-! DEFINITION. Energy accounts (R448, R450 to R452): shares, refills, the energy factor of a P-state, and the charge of a
running task. Energies are in nanojoules at 1.6 GHz until they are charged, in microjoules. -/

namespace Sys2Proof.Machine

/-! ## Shares (R450, R451) -/

/-- Units of the partition pool (R450). -/
def State.poolUnits (s : State) : Nat := (s.power.budget - 180) / 5

/-- Units the partitions hold. -/
def State.unitsHeld (s : State) : Nat := (allParts.map (fun p => (s.parts[p]).acct.units)).foldl (· + ·) 0

/-- CAP of an account in microjoules (R451). -/
def Account.cap (a : Account) : Int := a.units * 500000

/-- REFILL of an account in microjoules (R451). -/
def Account.refill (a : Account) : Int := a.units * 500

/-- OD, the overdraft (R451). -/
def Account.od (a : Account) : Int := a.cap / 10

/-- s(f) in hundredths (R448). -/
def energyPercent : Nat → Nat
  | 0 => 130
  | 1 => 100
  | 2 => 80
  | _ => 65

/-- The engine clock of a P-state in tenths of a gigahertz (R448). -/
def clockTenths : Nat → Nat
  | 0 => 20
  | 1 => 16
  | 2 => 12
  | _ => 8

/-! ## Charges (R452) -/

/-- Slot times before a cycle, of slots given by their place in a program frame. -/
def slotsBefore (l : List Nat) (c : Nat) : Nat :=
  c / frameCycles * l.length + (l.filter (fun n => 27 * n < c % frameCycles)).length

/-- Occupancy cycles or DRAM slots of a booking before a cycle. -/
def Booking.upTo (b : Booking) (c : Nat) : Nat :=
  let e := Nat.min b.ends c
  match b.slots with
  | none => e - b.start
  | some l => slotsBefore l e - slotsBefore l b.start

/-- What some bookings have drawn by a cycle. -/
def bookedBy (l : List Booking) (c : Nat) : Nat := (l.map (fun b => Config.energyCoeff b.coeff * b.upTo c)).foldl (· + ·) 0

/-- What the engines and slots of a recovery task have drawn by a cycle: the keystream engines of all its cores in every cycle; what it uses of
the fold engines and of DRAM slots is stated nowhere (R116, R117). -/
def Running.recoveryDraw (r : Running) (clusters c : Nat) : Nat :=
  match r.what with
  | .tenant _ => 0
  | .recovery t =>
    Config.energyCoeff 4 * Nat.min c t.cycles * 8 * clusters + Config.energyCoeff 3 * Config.recoveryFold t.cycles c
      + Config.energyCoeff 9 * Config.recoverySlots t.cycles c

/-- What a task has drawn by a cycle, in nanojoules at 1.6 GHz: the static coefficient for every cycle of every cluster, and the engine
occupancy and DRAM slots up to then. -/
def Running.drawn (r : Running) (clusters cycles : Nat) : Nat :=
  Config.energyCoeff 0 * cycles * clusters + r.metered + bookedBy r.booked cycles + r.recoveryDraw clusters cycles

/-- Bookings that are over by a cycle become a sum. -/
def Running.closeBooks (r : Running) (c : Nat) : Running :=
  { r with
    metered := r.metered + bookedBy (r.booked.filter (fun b => b.ends ≤ c)) c
    booked := r.booked.filter (fun b => c < b.ends) }

/-- The charge for it in microjoules at the task's P-state. -/
def Running.chargeAt (r : Running) (clusters cycles : Nat) : Nat := r.drawn clusters cycles * energyPercent r.pstate / 100000

/-- Charge a running task for the cycles up to one, less what has been charged already. -/
def State.chargeTo (s : State) (p : Fin 16) (cycles : Nat) : State :=
  match (s.parts[p]).job.running with
  | some r =>
    let total := Nat.max r.charged (r.chargeAt (s.parts[p]).stacks cycles)
    let n := total - r.charged
    (s.modRunning p (fun r => { r.closeBooks cycles with charged := total })).modPart p (fun q =>
      { q with acct := { q.acct with balance := q.acct.balance - n, charged := q.acct.charged + n } })
  | none => s

end Sys2Proof.Machine
end

