-- ==== Sys2Proof/Machine/Moves.lean ====
section
/-! DEFINITION. The mv instructions and the completion of DRAM moves (R124, R125, R131, R132, R141, R142, R166). -/

namespace Sys2Proof.Machine

/-! ## Slots (R141, R142, R224) -/

/-- The program slots that the slot map gives a core on a stack rank. -/
def Running.owned (r : Running) (core rank : Nat) : List Nat :=
  (List.range 64).filter (fun n => (r.slots.getD rank []).getD n 0xFFFF == core)

/-- The first time from `x` on of one of some slots. -/
def nextOwned (ns : List Nat) (x : Nat) : Nat :=
  match ns.find? (fun n => x % frameCycles ≤ 27 * n) with
  | some n => x / frameCycles * frameCycles + 27 * n
  | none => (x / frameCycles + 1) * frameCycles + 27 * ns.headD 0

/-- The first slot time from `x` on that no earlier move has taken and that falls into no job. -/
def freeSlot (ns taken : List Nat) (jobs : List DrJob) : Nat → Nat → Nat
  | 0, x => nextOwned ns x
  | n + 1, x =>
    let t := nextOwned ns x
    if taken.contains t then freeSlot ns taken jobs n (t + 1)
    else if jobFree jobs t != t then freeSlot ns taken jobs n (jobFree jobs t)
    else t

/-- The slot of a move that issues at a cycle; none where the map gives its core no slot on the stack (NO_SLOT). -/
def Core.takeSlot (x : Core) (r : Running) (jobs : List DrJob) (core rank t : Nat) : Option Nat :=
  let ns := r.owned core rank
  let taken := (x.slotsTaken.filter (fun e => e.1 == rank)).map Prod.snd
  if ns.isEmpty then none else some (freeSlot ns taken jobs (taken.length + 2 * jobs.length + 2) (t + 32))

/-- L of R142: 256 cycles to the home stack, 384 to any other. -/
def moveLatency (own rank : Nat) : Nat := if own = rank then 256 else 384

/-! ## DRAM moves -/

/-- The pages of a DRAM move: store addresses and partition addresses (R124, R131). -/
def movePages (rs rm ls width n : Nat) : List (Nat × Nat) :=
  (List.range n).map (fun j => (rs + j * 2 ^ ls * 4096, rm + j * width * 4096))

/-- The first check that a DRAM move fails (R125, R166): kind, status and address. -/
def State.moveFault (s : State) (p : Fin 16) (sp : Space) (pages : List (Nat × Nat)) : Option (Nat × Status × Nat) :=
  let q := s.parts[p]
  match pages.find? (fun e => e.1 + 4096 > sp.size) with
  | some e => some (1, .badParam, e.1)
  | none =>
    match pages.find? (fun e => e.2 ≥ q.dramSize) with
    | some e => some (1, .badParam, e.2)
    | none =>
      match pages.find? (fun e => e.1 % 4096 != 0 || e.2 % 4096 != 0) with
      | some e => some (2, .badParam, if e.1 % 4096 != 0 then e.1 else e.2)
      | none => (pages.find? (fun e => s.ownedRange p e.2 4096)).map (fun e => (3, .notPermitted, e.2))

/-- Issue a DRAM move (R131, R132, R142): it takes its slot now. A move to DRAM reads its source in the 16 × pages cycles from now on; where a
job holds part of it in that cycle (R224), the bytes are undefined. -/
def State.dramMove (s : State) (store : Bool) (sp : Space) (i : Issue) : State :=
  let q := s.parts[i.p]
  let n := nfield i.v 45 43 + 1
  let pages := movePages (s.regNat i 55 51) (s.regNat i 50 46) (nfield i.v 42 40) q.stacks n
  let rank := s.regNat i 50 46 / 4096 % q.stacks
  match s.moveFault i.p sp pages with
  | some (kind, st, a) => s.fault i st kind a
  | none =>
    match (s.core i.c i.k).takeSlot i.r (s.clusters[i.c]).der.jobs (q.rankOf i.c * 8 + i.k.val) rank i.t with
    | none => s.fault i .badParam 7 (s.regNat i 50 46)
    | some slot =>
      let occ := if store then 16 * n else 1
      let done := i.r.tickAt (slot + moveLatency (q.rankOf i.c) rank)
      let (t, u) := if store then (i.t, i.t + occ - 1) else (done, done)
      let s := if pages.any (fun e => inJobSpan (s.clusters[i.c]).der.jobs t u sp e.1 4096) then s.spoil i t u else s
      let (held, s) := s.runningHold i (4096 * n)
      let m : Move := ⟨store, sp, pages, 0, [], rank, slot, false, i.t, done,
        if nfield i.v 39 39 = 1 then some (nfield i.v 38 28) else none, held⟩
      (((s.meter i.p 6 i.t occ).meter i.p 9 slot 1).modCore i.c i.k (fun x =>
        { x with moves := x.moves ++ [m], slotsTaken := x.slotsTaken ++ [(rank, slot)], mvFree := i.t + occ })).fenceTo i done

/-- MV_LD: DRAM to the local store. -/
def execMvLd (c : Fin 32) (k : Fin 8) (s : State) : Host.Outcome State Fault Refusal :=
  .next (s.issue c k 1 6 1 (fun i s => s.dramMove false .core i))

/-- MV_ST: local store to DRAM. -/
def execMvSt (c : Fin 32) (k : Fin 8) (s : State) : Host.Outcome State Fault Refusal :=
  .next (s.issue c k 1 6 2 (fun i s => s.dramMove true .core i))

/-- MV_LDSH: DRAM to the shared store. -/
def execMvLdsh (c : Fin 32) (k : Fin 8) (s : State) : Host.Outcome State Fault Refusal :=
  .next (s.issue c k 1 6 3 (fun i s => s.dramMove false .shared i))

/-- MV_STSH: shared store to DRAM. -/
def execMvStsh (c : Fin 32) (k : Fin 8) (s : State) : Host.Outcome State Fault Refusal :=
  .next (s.issue c k 1 6 4 (fun i s => s.dramMove true .shared i))

/-! ## Moves between the stores -/

/-- Issue a move between the stores (R131, R132). -/
def State.sramMove (s : State) (src dst : Space) (i : Issue) : State :=
  let len := nfield i.v 45 33
  let rd := s.regNat i 55 51
  let rs := s.regNat i 50 46
  match (badOperand dst 64 rd (64 * len)).or (badOperand src 64 rs (64 * len)) with
  | some (kind, a) => s.fault i .badParam kind a
  | none =>
    let occ := ceilDiv len 4
    let done := i.t + occ + 12
    let (b, s) := s.readStore i src rs (64 * len)
    let s := ((s.writeStore i 1 done dst rd b).meter i.p 6 i.t occ).modCore i.c i.k (fun x => { x with mvFree := i.t + occ })
    if nfield i.v 27 27 = 1 then
      s.send i.p ⟨⟨i.c.val, nfield i.v 26 16⟩, 1, ⟨2, i.c.val, i.k.val, i.t, false⟩, done, done, false⟩
    else s

/-- MV_LSH: shared store to local store. -/
def execMvLsh (c : Fin 32) (k : Fin 8) (s : State) : Host.Outcome State Fault Refusal :=
  .next (s.issue c k 1 6 8 (fun i s => s.sramMove .shared .core i))

/-- MV_SSH: local store to shared store. -/
def execMvSsh (c : Fin 32) (k : Fin 8) (s : State) : Host.Outcome State Fault Refusal :=
  .next (s.issue c k 1 6 9 (fun i s => s.sramMove .core .shared i))

/-! ## Completion -/

/-- The outstanding move of a core that completes first. -/
def Core.firstDone (x : Core) : Option Move :=
  match x.moves with
  | [] => none
  | m :: ms => some (ms.foldl (fun b n => if n.done < b.done then n else b) m)

/-- The signal of a move, visible at its completion tick (R271); its cycle stamp is that of the move's issue (R288). -/
def State.sendMove (s : State) (p : Fin 16) (c : Fin 32) (k : Fin 8) (m : Move) : State :=
  match m.sig with
  | some n => s.send p ⟨⟨c.val, n⟩, 1, ⟨2, c.val, k.val, m.issue, false⟩, m.done, m.done, false⟩
  | none => s

/-- A core's move completes (R142): its data is in place, its entry of the move queue is free, and its signal lands (R271). The core keeps the
cycle, to which its task may have to last (R162). -/
def State.completeMove (s : State) (p : Fin 16) (c : Fin 32) (k : Fin 8) (m : Move) : State :=
  let s := s.settleDram p m.done
  let s := s.modCore c k (fun x =>
    { x with moves := x.moves.filter (fun n => n.issue != m.issue), lastMove := Nat.max x.lastMove m.done })
  s.sendMove p c k m

/-- Every move that has issued completes, and its signal with it (R164, R167, R268). -/
def State.finishMoves (s : State) (p : Fin 16) : State :=
  let s := s.settleMoves p (2 ^ 64) (s.moveCount p)
  (s.parts[p]).coreList.foldl (fun s x => (s.core x.1 x.2).moves.foldl (fun s m => s.sendMove p x.1 x.2 m) s) s

/-- MOVE_COMPLETE (R142, R271, R276): the core's move that completes first reaches its completion tick. -/
def execMoveComplete (c : Fin 32) (k : Fin 8) (s : State) : Host.Outcome State Fault Refusal :=
  .next (
    match s.ownerOf c.val with
    | none => s
    | some p =>
      match (s.parts[p]).job.running, (s.core c k).firstDone with
      | some r, some m =>
        let s := (s.advance (r.clockOf m.done)).completeMove p c k m
        (s.settleSignals p m.done).modCore c k (fun x => x.settle m.done)
      | _, _ => s)

end Sys2Proof.Machine
end

