-- ==== Sys2Proof/Machine/Sync.lean ====
section
/-! DEFINITION. Synchronisation (R266 to R291): the syn instructions, the release of waits, the rounds of the barrier channel,
SYNC_INSPECT and the counter mirror. -/

namespace Sys2Proof.Machine

/-! ## Signals of programs (R269, R271) -/

/-- Issue a syn instruction. -/
def State.syn (s : State) (c : Fin 32) (k : Fin 8) (op : Nat) (run : Issue → State → State) : State :=
  s.issue c k 4 8 op (fun i s => run i (s.meter i.p 8 i.t 1))

/-- A core adds to a counter: to its own cluster's after 3 cycles for itself and 12 for the others, to another cluster's at the
first tick at or after 96 cycles (R271). -/
def State.coreSignal (s : State) (i : Issue) (d : Fin 32) (idx amount : Nat) : State :=
  let far := i.r.tickAt (i.t + 96)
  let w : Transit := ⟨⟨d.val, idx⟩, amount, ⟨1, i.c.val, i.k.val, i.t, false⟩, if d = i.c then i.t + 3 else far,
    if d = i.c then i.t + 12 else far, false⟩
  s.send i.p w

/-- SYN_ADDI. -/
def execSynAddi (c : Fin 32) (k : Fin 8) (s : State) : Host.Outcome State Fault Refusal :=
  .next (s.syn c k 1 (fun i s => s.coreSignal i c (nfield i.v 23 13) (nfield i.v 12 0 + 1)))

/-- SYN_ADD: an amount outside 1 to 65,536 faults (R139). -/
def execSynAdd (c : Fin 32) (k : Fin 8) (s : State) : Host.Outcome State Fault Refusal :=
  .next (s.issue c k 4 8 2 (fun i s =>
    let n := s.regNat i 7 3
    let d := (s.parts[i.p]).ofRank (nfield i.v 23 19)
    if n = 0 || n > 65536 then s.fault i .badParam 4 (d.val * 2048 + nfield i.v 18 8)
    else (s.coreSignal i d (nfield i.v 18 8) n).meter i.p 8 i.t 1))

/-! ## Waits (R272) -/

/-- The next bundle of a core that is released issues at a cycle. -/
def Core.resume (x : Core) (t : Nat) : Core :=
  if x.done = 0 then { x with wait := none, issueAt := Nat.max x.issueAt t }
  else { x with wait := none, nextAt := Nat.max x.nextAt t }

/-- SYN_WAIT (R272): a condition that holds at once costs 4 cycles; otherwise the core is suspended. -/
def execSynWait (c : Fin 32) (k : Fin 8) (s : State) : Host.Outcome State Fault Refusal :=
  .next (s.syn c k 3 (fun i s =>
    let ctr : CtrRef := ⟨((s.parts[i.p]).ofRank (nfield i.v 23 19)).val, nfield i.v 18 8⟩
    let n := s.regNat i 7 3
    if n ≤ s.viewAt i.p i.r ctr c k i.t then s.modCore c k (fun x => x.resume (i.t + 4))
    else s.modCore c k (fun x => { x with wait := some (.counter ctr n i.t i.t) })))

/-- WAIT_RELEASE (R270, R272, R145): the first cycle at which the signals on their way give the waiting core its value. -/
def execWaitRelease (c : Fin 32) (k : Fin 8) (s : State) : Host.Outcome State Fault Refusal :=
  .next (
    match s.ownerOf c.val with
    | none => s
    | some p =>
      match (s.parts[p]).job.running, (s.core c k).wait with
      | some r, some (.counter ctr n since judged) =>
        match s.releaseAt p r ctr c k n judged with
        | none => s
        | some (t, ext) =>
          if r.stopped t then s
          else
            let s := (s.advance (r.clockOf t)).settleSignals p t
            let s := if ext then
                s.traceAt p t (s.runningId p) 5 c.val k.val (s.core c k).ptr (ctr.cluster * 2048 + ctr.index)
              else s
            s.modCore c k (fun x =>
              { x.resume (t + 4) with external := x.external + if ext then t - since else 0 })
      | _, _ => s)

/-- SYN_FENCE (R274): the next bundle waits for every earlier move and store write of the core. -/
def execSynFence (c : Fin 32) (k : Fin 8) (s : State) : Host.Outcome State Fault Refusal :=
  .next (s.syn c k 4 (fun _ s => s.modCore c k (fun x => { x with nextAt := Nat.max x.nextAt x.fence })))

/-! ## The barrier (R279 to R281) -/

/-- The cycle by which every signal that a core issued is visible at its counter, its moves' signals among them (R279). -/
def State.signalsSeen (s : State) (i : Issue) : Nat :=
  let mine (w : Transit) : Bool := (w.src.kind == 1 || w.src.kind == 2) && w.src.cluster == i.c.val && w.src.core == i.k.val
  let ws := (s.parts[i.p]).job.transit.filter mine
  let ms := (s.core i.c i.k).moves.filter (fun m => m.sig.isSome)
  (ms.map Move.done).foldl Nat.max ((ws.map Transit.allAt).foldl Nat.max 0)

/-- SYN_BAR (R279): the entry takes effect once the core's writes are complete and its signals visible. -/
def execSynBar (c : Fin 32) (k : Fin 8) (s : State) : Host.Outcome State Fault Refusal :=
  .next (s.syn c k 5 (fun i s =>
    let e := Nat.max (Nat.max i.t (s.core c k).fence) (s.signalsSeen i)
    (s.modJob i.p (fun j => { j with bar := { j.bar with entered := Table.put j.bar.entered (c.val * 8 + k.val) e } })).modCore c k
      (fun x => { x with wait := some (.barrier i.t) })))

/-- The participants of the present barrier round (R279). -/
def State.participants (s : State) (p : Fin 16) : List (Fin 32 × Fin 8) :=
  (s.parts[p]).coreList.filter (fun x => (s.core x.1 x.2).active && (s.core x.1 x.2).ended.isNone)

/-- The cycle at which the last entry of a round has taken effect; none while a participant has not entered. A core that has
executed ctl.end counts as entered from there. -/
def State.lastEntry (s : State) (p : Fin 16) : Option Nat :=
  let q := s.parts[p]
  let es := (s.participants p).map (fun x => Table.get? q.job.bar.entered (x.1.val * 8 + x.2.val))
  let gone := q.coreList.filterMap (fun x => (s.core x.1 x.2).ended.map Prod.fst)
  if es.isEmpty || es.any Option.isNone then none else some ((es.filterMap id).foldl Nat.max (gone.foldl Nat.max 0))

/-- Rebase every task counter of a partition (R280). -/
def State.rebase (s : State) (p : Fin 16) : State :=
  let q := s.parts[p]
  q.clusterFins.foldl (fun s c =>
    s.modCluster c (fun x =>
      { x with counters := x.counters.map (fun e =>
          if q.holds ⟨c.val, e.1⟩ then e else (e.1, { e.2 with base := e.2.value })) })) s

/-- A barrier round completes at a cycle (R280): every participant's next bundle issues there, every task counter's view
becomes 0, and the generation changes (R439: a trace record). A signal that has landed on a held counter still shows in another cluster
only at its tick there (R272). -/
def State.completeRound (s : State) (p : Fin 16) (t : Nat) (ext : Bool) : State :=
  let s := s.settleSignals p t
  let free (x : Core) : Core :=
    match x.wait with
    | some (.barrier since) => { x.resume t with external := x.external + if ext then t - since else 0 }
    | _ => x
  let s := (s.participants p).foldl (fun s x => s.modCore x.1 x.2 free) s
  let s := (s.rebase p).modJob p (fun j =>
    { j with bar := ⟨!j.bar.gen, []⟩, transit := j.transit.filter (fun w => !w.landed || (s.parts[p]).holds w.ctr) })
  let s := s.count (vf p) .barRounds 1
  s.traceAt p t (s.runningId p) 4 0 0 0 ((s.chans[vf p]).counts.getD (Count.pos .barRounds) 0)

/-! ## SYNC_INSPECT (R287 to R290) -/

/-- The waiters of a counter in ascending order, each with its expected value (R288). -/
def State.waiters (s : State) (p : Fin 16) (ctr : CtrRef) : List (Nat × Nat × Nat) :=
  (s.parts[p]).coreList.filterMap (fun x => match (s.core x.1 x.2).wait with
    | some (.counter r n _ _) => if r == ctr then some (x.1.val, x.2.val, n) else none
    | _ => none)

/-- The words of a READ reply (R288). -/
def State.inspectWords (s : State) (p : Fin 16) (ctr : CtrRef) : List W64 :=
  let k := s.counter ctr
  let ws := s.waiters p ctr
  let cl := if 1 ≤ k.last.kind && k.last.kind ≤ 3 then k.last.cluster else 0
  let co := if k.last.kind = 1 then k.last.core else 0
  [w64 k.value, w64 k.base,
   w64 (b2n ((s.parts[p]).holds ctr) * 2 ^ 63 + b2n k.last.noTask * 2 ^ 62 + k.last.kind * 2 ^ 58 + cl * 2 ^ 53
    + co * 2 ^ 50 + ws.length * 2 ^ 32), w64 k.last.stamp] ++ ws.flatMap (fun w => [w64 (w.1 * 8 + w.2.1), w64 w.2.2])

/-- SYNC_INSPECT (R287 to R290). A READ or SCAN is taken at the first device tick of the counter's cluster after the checks (R289). -/
def handleSyncInspect : Handler := fun ch r s =>
  let p := chanPart ch
  let w := word r.payload 0
  let op := bits w 17 16
  let n := bits w 43 32
  let cl := bits w 15 11
  let idx := bits w 10 0
  if nonZero w 63 44 || nonZero w 31 18 || (op != 1 && n != 0) || (op ≥ 2 && (cl != 0 || idx != 0)) then .refuse .badParam
  else if op = 1 && (n = 0 || n > 2048) then .refuse .badParam
  else if op ≤ 1 && (!(s.parts[p]).clusterList.contains cl || idx + n > 2048) then .refuse .badParam
  else
    let s := if op ≤ 1 then s.toTick p else s
    match op with
    | 0 => .done .ok (s.inspectWords p ⟨cl, idx⟩) s
    | 1 => .done .ok ((List.range n).map (fun i => w64 (s.counter ⟨cl, idx + i⟩).value)) s
    | 2 => .done .ok [] (s.modPart p (fun q => { q with mirrorOn := true }))
    | _ => .done .ok [] (s.modPart p (fun q => { q with mirrorOn := false }))

/-- SYNC_INSPECT_READ. -/
def execSyncInspectRead (ch : Fin 17) (c : Cmd) (s : State) : Host.Outcome State Fault Refusal :=
  .next (s.submit handleSyncInspect 0x0A01 ch (cmdSel c 0 17 16 0))

/-- SYNC_INSPECT_SCAN. -/
def execSyncInspectScan (ch : Fin 17) (c : Cmd) (s : State) : Host.Outcome State Fault Refusal :=
  .next (s.submit handleSyncInspect 0x0A01 ch (cmdSel c 0 17 16 1))

/-- SYNC_INSPECT_MIRROR_ON. -/
def execSyncInspectMirrorOn (ch : Fin 17) (c : Cmd) (s : State) : Host.Outcome State Fault Refusal :=
  .next (s.submit handleSyncInspect 0x0A01 ch (cmdSel c 0 17 16 2))

/-- SYNC_INSPECT_MIRROR_OFF. -/
def execSyncInspectMirrorOff (ch : Fin 17) (c : Cmd) (s : State) : Host.Outcome State Fault Refusal :=
  .next (s.submit handleSyncInspect 0x0A01 ch (cmdSel c 0 17 16 3))

/-- The partition whose counters of a cluster the mirror shows and signals (R290). -/
def State.mirrored (s : State) (c : Nat) : Option (Fin 16) := (s.ownerOf c).filter (fun p => (s.parts[p]).mirrorOn)

/-- A write to MIRROR_SIGNAL (R283, R291): it adds to a counter of a partition with the mirror on; any other is dropped and counted. -/
def State.mirrorSignal (s : State) (w : W64) : State :=
  let n := bits w 16 0
  match s.mirrored (bits w 47 43) with
  | some p =>
    if n = 0 || n > 65536 then s.count 0 .mirrorBlocked 1 else s.signalExternal p ⟨bits w 47 43, bits w 42 32⟩ n 8
  | none => s.count 0 .mirrorBlocked 1

/-- MIRROR_SIGNAL (R291). -/
def execMirrorSignal (w : W64) (s : State) : Host.Outcome State Fault Refusal :=
  .next (if s.reachable 0 then s.mirrorSignal w else s)

end Sys2Proof.Machine
end

