-- ==== Sys2Proof/Machine/DrKeys.lean ====
section
/-! DEFINITION. The payloads of the derailleur's keys (R231, R232): where each value lies, and when a payload is a key of the key set, whose
secrets the part never holds. -/

namespace Sys2Proof.Machine

open Sys2Proof.Machine.Crypto

/-! ## Words and moduli -/

/-- Bytes of a partition's DRAM. -/
def State.dramAt (s : State) (p : Fin 16) (a n : Nat) : List Byte := (s.parts[p]).dram.readN a n

/-- The modulus of a slot of a parameter set. -/
def psetQ (pset : List Byte) (slot : Nat) : Nat := leNat ((pset.drop (64 + 64 * slot)).take 8) % 2 ^ 61

/-- The root of a slot for N = 2^n. -/
def psetPsi (pset : List Byte) (slot n : Nat) : Nat :=
  let e := pset.drop (64 + 64 * slot)
  psiFor (psetQ pset slot) (leNat ((e.drop 8).take 8) % 2 ^ 61) (leNat ((e.drop 16).take 1) % 32) n

/-- KEYSET_FP of a parameter set. -/
def psetFp (pset : List Byte) : Nat := leNat ((pset.drop 8).take 8)

/-- An integer modulo q. -/
def modQ (q : Nat) (x : Int) : Nat := (x % (q : Int)).toNat

/-- The integer of least size that a residue stands for. -/
def centred (q x : Nat) : Int := if 2 * (x % q) ≤ q then ((x % q : Nat) : Int) else (x % q : Nat) - (q : Int)

/-- An integer brought to a size of at most `b`. -/
def within (b : Nat) (x : Int) : Int := x % (2 * (b : Int) + 1) - b

/-- Word `w` of the payload of a key (R189, R191): 8,184 words follow 64 bytes in every block. -/
def State.keyWord (s : State) (p : Fin 16) (key w : Nat) : Nat := leNat (s.dramAt p (key + 65536 * (w / 8184) + 64 + 8 * (w % 8184)) 8)

/-! ## DR_LWE (R231) -/

/-- Value `a` of sample (i, t), modulo 2^32: 1,025 values in 513 words, two in each, the low half first. -/
def State.lweValue (s : State) (p : Fin 16) (key i t a : Nat) : Nat :=
  s.keyWord p key ((3 * i + t) * 513 + a / 2) / 2 ^ (32 * (a % 2)) % 2 ^ 32

/-- The error e of sample (i, t): b − Σ a_j × u_j − s_i × 2^(24 − 8t) modulo 2^32, under the binary small key u. -/
def State.lweError (s : State) (p : Fin 16) (key fp i t : Nat) : Int :=
  let sum : Nat := ((List.range 1024).map (fun j => if Config.smallKey fp j then s.lweValue p key i t j else 0)).foldl (· + ·) 0
  centred (2 ^ 32) (modQ (2 ^ 32) ((s.lweValue p key i t 1024 : Int) - sum - Config.secretCoeff fp i * 2 ^ (24 - 8 * t)))

/-- The payload is a DR_LWE key of the key set: every sample's error is small. -/
def State.lweFits (s : State) (p : Fin 16) (key fp n : Nat) : Bool :=
  (List.range n).all (fun i => (List.range 3).all (fun t => (s.lweError p key fp i t).natAbs ≤ Config.keyNoise fp 0))

/-! ## DR_BLIND (R232) -/

/-- The modulus of BR_BASIS entry `m` (R171). -/
def brQ (br : List Byte) (m : Nat) : Nat := leNat ((br.drop (64 * m)).take 8) % 2 ^ 61

/-- Its root for 2,048 coefficients. -/
def brPsi (br : List Byte) (m : Nat) : Nat :=
  let e := br.drop (64 * m)
  psiFor (brQ br m) (leNat ((e.drop 8).take 8) % 2 ^ 61) (leNat ((e.drop 16).take 1) % 32) 11

/-- Coefficient `c` of polynomial `pl` of row `r` for small-key bit `j`, modulo BR_BASIS entry `m` (section A). -/
def State.brWord (s : State) (p : Fin 16) (key j r pl m c : Nat) : Nat := s.keyWord p key ((((j * 8 + r) * 2 + pl) * 2 + m) * 2048 + c)

/-- The gadget g_r (R232). -/
def gadget (br : List Byte) (r : Nat) : Nat := brQ br 0 * brQ br 1 / 2 ^ (12 * (r + 1))

/-- The blind-rotation key z modulo an entry, in NTT representation. -/
def rotationHat (br : List Byte) (fp m : Nat) : List Nat :=
  nttFwd (brQ br m) (brPsi br m) 11 ((List.range 2048).map (fun c => modQ (brQ br m) (Config.rotationKey fp c)))

/-- The errors of row `r` for bit `j` modulo entry `m`, coefficient by coefficient: its phase under z less u_j × g_r, on the first component in
rows 0 to 3 and on the second, which z multiplies, in rows 4 to 7. -/
def State.rowErrors (s : State) (p : Fin 16) (key : Nat) (br : List Byte) (fp j r m : Nat) : List Int :=
  let q := brQ br m
  let z := rotationHat br fp m
  let g := if Config.smallKey fp j then gadget br (r % 4) else 0
  let diff := (List.range 2048).map (fun c =>
    modQ q ((s.brWord p key j r 0 m c + s.brWord p key j r 1 m c * z.getD c 0 : Nat) - (g * (if r < 4 then 1 else z.getD c 0) : Nat)))
  (nttInv q (brPsi br m) 11 diff).map (centred q)

/-- Section A is a blind-rotation key: each row's error is one small polynomial, the same modulo both entries. -/
def State.rotationFits (s : State) (p : Fin 16) (key : Nat) (br : List Byte) (fp : Nat) : Bool :=
  (List.range 1024).all (fun j => (List.range 8).all (fun r =>
    let e := s.rowErrors p key br fp j r 0
    e == s.rowErrors p key br fp j r 1 && e.all (fun x => x.natAbs ≤ Config.keyNoise fp 1)))

/-- The first word of section B. -/
def sectionB : Nat := 67108864

/-- Coefficient `c` of limb `l` of polynomial `pl` of repack sub-key `k` (section B): 1 + K limbs, slot 0 and then slots 64 onwards. -/
def State.repackWord (s : State) (p : Fin 16) (key n k' k pl l c : Nat) : Nat :=
  s.keyWord p key (sectionB + ((k * 2 + pl) * (1 + k') + l) * n + c)

/-- The slot of a limb of a sub-key. -/
def repackSlot (l : Nat) : Nat := if l = 0 then 0 else 63 + l

/-- A polynomial of a set of terms (power of Y, coefficient) modulo Y^n + 1. -/
def negaTerms (n : Nat) (l : List (Nat × Int)) : List Int :=
  (List.range n).map (fun i => (l.map (fun e =>
    if e.1 % (2 * n) = i then e.2 else if e.1 % (2 * n) = n + i then -e.2 else 0)).foldl (· + ·) 0)

/-- The target s′ of a sub-key (R232): z(Y^(N ÷ 2,048)), then s(Y^(2^k + 1)). -/
def repackTarget (fp n k : Nat) : List Int :=
  if k = 0 then negaTerms n ((List.range 2048).map (fun c => (c * (n / 2048), Config.rotationKey fp c)))
  else negaTerms n ((List.range n).map (fun i => (i * (2 ^ k + 1), Config.secretCoeff fp i)))

/-- P: the product of the special primes (R211). -/
def specialProduct (pset : List Byte) (k' : Nat) : Nat := ((List.range k').map (fun m => psetQ pset (64 + m))).foldl (· * ·) 1

/-- The errors of limb `l` of a sub-key (R211): b + a × s, less P × s′ on slot 0, which the one digit holds. -/
def State.repackErrors (s : State) (p : Fin 16) (key : Nat) (pset : List Byte) (logN k' k l : Nat) : List Int :=
  let n := 2 ^ logN
  let fp := psetFp pset
  let q := psetQ pset (repackSlot l)
  let psi := psetPsi pset (repackSlot l) logN
  let hat (x : List Int) : List Nat := nttFwd q psi logN (x.map (modQ q))
  let sec := hat ((List.range n).map (Config.secretCoeff fp))
  let target := hat (repackTarget fp n k)
  let g : Int := if l = 0 then (specialProduct pset k' : Nat) else 0
  let diff := (List.range n).map (fun c =>
    modQ q ((s.repackWord p key n k' k 0 l c : Int) + s.repackWord p key n k' k 1 l c * sec.getD c 0 - g * target.getD c 0))
  (nttInv q psi logN diff).map (centred q)

/-- Section B holds the twelve repack keys: each one's error is one small polynomial, the same in every limb. -/
def State.repackFits (s : State) (p : Fin 16) (key : Nat) (pset : List Byte) (logN k' : Nat) : Bool :=
  (List.range 12).all (fun k =>
    let e := s.repackErrors p key pset logN k' k 0
    (List.range k').all (fun l => s.repackErrors p key pset logN k' k (l + 1) == e)
      && e.all (fun x => x.natAbs ≤ Config.keyNoise (psetFp pset) 2))

/-- The two keys of a LOOKUP are those of the parameter set's key set (R231, R232). -/
def State.lookupKeysFit (s : State) (p : Fin 16) (d : Desc) (pset br : List Byte) : Bool :=
  s.lweFits p (d.addr 4) (psetFp pset) d.n && s.rotationFits p (d.addr 5) br (psetFp pset)
    && s.repackFits p (d.addr 5) pset d.logN d.spPrimes

end Sys2Proof.Machine
end

