-- ==== Sys2Proof/Machine/DrJobs.lean ====
section
/-! DEFINITION. Derailleur jobs (R138, R222 to R239): the descriptor, the duration of a job, dr.job, and the ends of LOOKUP,
BLIND and UNBLIND jobs with their outcome words. The descriptor is in DrDesc. -/

namespace Sys2Proof.Machine

open Sys2Proof.Machine.Crypto

/-! ## Duration (R224, R225) -/

/-- U_ntt of R197. -/
def uNtt (n logN : Nat) : Nat := n / 2 * logN / 128 + 40
/-- U_pw of R197. -/
def uPw (n : Nat) : Nat := n / 128 + 12
/-- U_auto of R197. -/
def uAuto (n : Nat) : Nat := n / 128 + 40
/-- U_fold of R197. -/
def uFold (n : Nat) : Nat := n / 64 + 6

/-- S of R225: the stages of R213 at L = 1, β = 1, α = 1 and C = 8, with one automorphism and one addition. -/
def repackCycles (n logN k : Nat) : Nat :=
  let r (ops : Nat) : Nat := ceilDiv ops 8
  (1 + r k + r (2 * k) + r 2) * uNtt n logN
    + (1 + r k + r (2 * (1 + k)) + r (2 * k) + (2 * k - 1) * r 4 + 2 * r 2 + 2 * r 2) * uPw n + 2 * r 2 * uFold n
    + uAuto n + uPw n

/-- The phases of a job as (X, B) (R225). -/
def Desc.phases (d : Desc) : List (Nat × Nat) :=
  let n := d.n
  let k := d.spPrimes
  match d.kind with
  | 0 =>
    [(6 * n, 65536 * bcLwe n + 16 * n + 12288), (3244032, 65536 * 8201),
     (8 * (12 * repackCycles n d.logN k + 1048), 65536 * 8 * (bcBlind n k - 8200) + 2 * (16 * n + 4096))]
  | 1 =>
    [(ceilDiv (d.level + 1) 8 * (3 * uNtt n d.logN + 6 * uPw n + n / 4), 3 * (4096 + 16 * n * (d.level + 1)) + 8272)]
  | 2 =>
    [(ceilDiv d.ctPrimes 8 * (uNtt n d.logN + 2 * uPw n + n / 4), 3 * (4096 + 16 * n * d.ctPrimes) + 8272)]
  | _ => []

/-- F (R225) for `bf` bytes in a frame. -/
def Desc.frames (d : Desc) (bf : Nat) : Nat :=
  4 + (d.phases.map (fun x => Nat.max (ceilDiv x.1 frameCycles) (ceilDiv x.2 bf))).foldl (· + ·) 0

/-- Program slots in a frame that the slot map gives the cores of a cluster rank, over all stacks, by their number (R141). -/
def Running.slotTimes (r : Running) (rank : Nat) : List Nat :=
  r.slots.flatMap (fun l => (l.zipIdx.filter (fun e => e.1 / 8 == rank)).map Prod.snd)

/-- How many those are. -/
def Running.clusterSlots (r : Running) (rank : Nat) : Nat := (r.slotTimes rank).length

/-- The first program-frame start at or after a cycle. -/
def frameAt (c : Nat) : Nat := ceilDiv c frameCycles * frameCycles

/-- A move whose slot would fall into a job takes the first slot after it (R224). -/
def Core.reslot (x : Core) (r : Running) (jobs : List DrJob) (own core : Nat) (j : DrJob) : Core :=
  x.moves.foldl (fun x m =>
    if m.passed || m.slot < j.begins || j.ends ≤ m.slot then x
    else
      match x.takeSlot r jobs core m.rank (m.slot - 32) with
      | none => x
      | some t =>
        let m' : Move := { m with slot := t, done := r.tickAt (t + moveLatency own m.rank) }
        { x with
          moves := x.moves.map (fun n => if n.issue = m.issue then m' else n)
          slotsTaken := x.slotsTaken.filter (fun e => e != (m.rank, m.slot)) ++ [(m.rank, t)]
          fence := Nat.max x.fence m'.done }) x

/-- DR_JOB (R138, R224): the derailleur takes the job, which begins at the first program-frame start at least 4 cycles later and
after the cluster's previous job. Where the map gives the cluster no slot, the manual states no duration. -/
def execDrJob (c : Fin 32) (k : Fin 8) (s : State) : Host.Outcome State Fault Refusal :=
  .next (s.issue c k 3 5 1 (fun i s =>
    let a := s.regNat i 53 49
    match badOperand .shared 64 a 128 with
    | some (kind, x) => s.fault i .badParam kind x
    | none =>
      let (b, s) := s.readStore i .shared a 128
      let d : Desc := bytesToWords 16 b
      let rank := (s.parts[i.p]).rankOf c
      let bf := 32768 * i.r.clusterSlots rank
      let (f, s) := if bf = 0 then s.fresh else (d.frames bf, s)
      let last := (s.clusters[c]).der.jobs.foldl (fun t j => Nat.max t j.ends) 0
      let begins := frameAt (Nat.max (i.t + 4) last)
      let j : DrJob := ⟨k.val, a, d, begins, begins + f * frameCycles,
        if nfield i.v 39 39 = 1 then some (nfield i.v 38 28) else none, i.t, false, none⟩
      let s := ((s.meter i.p 5 i.t 4).book i.p ⟨9, begins, begins + f * frameCycles, some (i.r.slotTimes rank)⟩).modCluster c (fun x => { x with der := { x.der with jobs := x.der.jobs ++ [j] } })
      let jobs := (s.clusters[c]).der.jobs
      let s := s.modCore c k (fun x => { x with drFree := i.t + 4 })
      (List.finRange 8).foldl (fun s e => s.modCore c e (fun x => x.reslot i.r jobs rank (rank * 8 + e.val) j)) s))

/-! ## What a job reads (R184, R186, R192) -/

/-- SCHEME of an identity half (R182). -/
def schemeOf (id : List Byte) : Nat := leNat ((id.drop 5).take 1)
/-- PT_MODULUS of an identity half. -/
def ptModulus (id : List Byte) : Nat := leNat ((id.drop 24).take 8)

/-- The state half that a header must carry, with FLAGS as given (R186, R202). -/
def stateHalf (level repr kind flags scale : Nat) : List Byte :=
  [byte level, 0, 2, byte repr, byte kind, byte flags] ++ leBytes 2 scale ++ zeros 24

/-- What a state half is, compared with the two templates of R202: none where it matches neither, else whether it is
POISONED. -/
def stateCheck (h : List Byte) (level repr kind scale : Nat) : Option Bool :=
  if h = stateHalf level repr kind 0 scale then some false
  else if h = stateHalf level repr kind 1 scale then some true
  else none

/-- The header of an evaluation-key block that a job expects (R192, R231 to R233). -/
def keyHeader (id : List Byte) (kind logN seq count : Nat) : List Byte :=
  (id.drop 8).take 8 ++ [byte kind, 0, byte logN, 0] ++ zeros 4 ++ leBytes 4 seq ++ leBytes 4 count ++ (id.drop 6).take 2
    ++ zeros 6

/-- Key blocks from `lo` to below `hi` whose header differs from the expected one; a block outside the partition's DRAM differs (DESIGN
CHOICE: row 1 of R227 then decides, and R226 does not say what is counted). -/
def State.badBlocks (s : State) (p : Fin 16) (key : Nat) (id : List Byte) (kind logN count lo hi : Nat) : Nat :=
  countBelow (hi - lo) (fun i =>
    s.dramAt p (key + 65536 * (lo + i)) 32 != keyHeader id kind logN (lo + i) count)

/-- BAD_BLOCKS of a LOOKUP (R226, R233). -/
def State.lookupBad (s : State) (p : Fin 16) (d : Desc) (id : List Byte) : Nat :=
  let n := bcLwe d.n
  let m := bcBlind d.n d.spPrimes
  Nat.min 65535 (s.badBlocks p (d.addr 4) id 4 d.logN n 0 n + s.badBlocks p (d.addr 5) id 5 11 m 0 8201
    + 8 * s.badBlocks p (d.addr 5) id 5 11 m 8200 m)

/-! ## Outcomes (R226, R227) -/

/-- The outcome word (R226). -/
def outcomeWord (kind : Nat) (st : Status) (bad : Nat) (out inp written : Bool) : W64 :=
  w64 (st.code * 2 ^ 48 + kind * 2 ^ 40 + bad * 2 ^ 16 + b2n out * 4 + b2n inp * 2 + b2n written)

/-- Row 1 of R227, without what the scheme decides. -/
def State.rowRange (s : State) (p : Fin 16) (j : DrJob) : Bool :=
  let d := j.desc
  j.addr ≥ 0x200000 || Desc.fieldsBad d
    || (Desc.ranges d).any (fun x => x.1 % x.2.2 != 0 || x.1 + x.2.1 > (s.parts[p]).dramSize)

/-- The scheme's part of row 1: LOOKUP on BGV; a BLIND whose mask does not fit (R227), or MASK_BITS against its scheme. A parameter set whose SCHEME
is a reserved value is taken as one of CKKS (DESIGN CHOICE: R182 reserves the values and no row of R227 names them; log 149). -/
def Desc.schemeBad (d : Desc) (pset : List Byte) : Bool :=
  let sch := schemeOf pset
  match d.kind with
  | 0 => sch == 0
  | 1 =>
    if sch ≤ 1 then d.maskBits != 0
    else
      d.maskBits < 32 || d.maskBits > 120
        || d.maskBits + 2 > ((List.range (d.level + 1)).map (fun i => Nat.log2 (psetQ pset i))).foldl (· + ·) 0
  | _ => false

/-- What the job loaded in its first frame. -/
def DrJob.loaded (j : DrJob) : JobLoad := j.load.getD ⟨[], [], [], [], [], [], false, Ticket.zero, none⟩

/-- Row 3 for the key set: D0 agrees with the parameter set. -/
def Desc.psetAgrees (d : Desc) (pset : List Byte) : Bool :=
  leNat ((pset.drop 4).take 1) == d.logN && leNat ((pset.drop 36).take 1) == d.ctPrimes
    && leNat ((pset.drop 37).take 1) == d.spPrimes

/-- A BR_BASIS entry passes (R227 row 3). -/
def brEntryOk (w : List W64) : Bool := entryOk w && 2 ^ 29 < bits (word w 0) 60 0 && bits (word w 0) 60 0 < 2 ^ 30

/-- What a job decided. -/
structure JobVerdict where
  st : Status
  bad : Nat
  poisonIn : Bool
  poisonOut : Bool
  written : Bool
  deriving DecidableEq, Repr

/-- A verdict of rows 1 to 6: nothing is written. Every other condition is evaluated too (R227), so BAD_BLOCKS counts here as well. -/
def JobVerdict.refuse (st : Status) (bad : Nat) (poison : Bool) : JobVerdict := ⟨st, bad, poison, false, false⟩

/-! ## Objects in DRAM -/

/-- The address of the vector of a limb and a polynomial of an object (R185). -/
def vecAddr (base n limb poly : Nat) : Nat := base + 4096 + (limb * 2 + poly) * 8 * n

/-- A vector of an object as numbers. -/
def State.objVec (s : State) (p : Fin 16) (base n limb poly : Nat) : List Nat :=
  wordNats (s.dramAt p (vecAddr base n limb poly) (8 * n))

/-- Write a vector of an object. -/
def State.setVec (s : State) (p : Fin 16) (base n limb poly : Nat) (v : List Nat) : State :=
  s.writePages p (vecAddr base n limb poly) (natsBytes v)

/-- The vectors of an object with two polynomials up to a level. -/
def vecsOf (level : Nat) : List (Nat × Nat) := (List.range (level + 1)).flatMap (fun i => [(i, 0), (i, 1)])

/-- Zero-fill a destination and mark it POISONED (R227 rows 7 and 8). -/
def State.poisonObj (s : State) (p : Fin 16) (base n level : Nat) : State :=
  let s := s.writePages p (base + 4096) (zeros (16 * n * (level + 1)))
  s.writePartial p (base + 37) [1]

/-- An untouched destination is committed as it was: each limb word is replaced by its residue, which is itself where it is canonical
(R203). -/
def State.recommit (s : State) (p : Fin 16) (pset : List Byte) (base n level : Nat) : State :=
  (vecsOf level).foldl (fun s x =>
    let q := psetQ pset x.1
    if q = 0 then s else s.setVec p base n x.1 x.2 ((s.objVec p base n x.1 x.2).map (· % q))) s

/-- A buffer of a job that may be written whatever the job's verdict: LOG_N gives it its size, it lies in the partition's DRAM, and nothing owns
it (DESIGN CHOICE: rows 1 and 2 of R227 do not say what becomes of a buffer that cannot be written). -/
def State.bufferFree (s : State) (p : Fin 16) (d : Desc) (a len align : Nat) : Bool :=
  14 ≤ d.logN && d.logN ≤ 16 && d.ctPrimes ≤ 64 && a % align == 0 && a + len ≤ (s.parts[p]).dramSize && !s.ownedRange p a len

/-- The destination of a LOOKUP or an UNBLIND on rows 1 to 6 of R227. -/
def State.untouched (s : State) (p : Fin 16) (d : Desc) (pset : List Byte) (level : Nat) : State :=
  if s.bufferFree p d (d.addr 3) (objBytes d.n level) 4096 then s.recommit p pset (d.addr 3) d.n level else s

/-- Fill the vectors of an object with values without a stated result, canonical for their slots. -/
def State.freeObj (s : State) (p : Fin 16) (pset : List Byte) (base n level : Nat) : State :=
  (vecsOf level).foldl (fun s x =>
    let (v, s) := s.freshBelow (psetQ pset x.1) n
    s.setVec p base n x.1 x.2 v) s

/-! ## LOOKUP (R228 to R233) -/

/-- The verdict of a LOOKUP by R227. -/
def State.lookupVerdict (s : State) (p : Fin 16) (j : DrJob) : JobVerdict :=
  let d : Desc := j.desc
  let l := j.loaded
  let si := stateCheck (l.inHdr.drop 32) 0 0 0 d.inScale
  let so := stateCheck (l.outHdr.drop 32) 0 1 0 d.dstScale
  let poison := si == some true || so == some true
  let id := l.pset.take 32
  let bad := s.lookupBad p d (l.inHdr.take 32)
  if s.rowRange p j || d.schemeBad l.pset || meetBytes (d.addr 2) (objBytes d.n 0) (d.addr 3) (objBytes d.n 0) then
    .refuse .badParam bad poison
  else if l.owned then .refuse .notPermitted bad poison
  else if l.inHdr.take 32 != id || l.outHdr.take 32 != id || !d.psetAgrees l.pset || !brEntryOk (bytesToWords 8 (l.br.take 64))
      || !brEntryOk (bytesToWords 8 (l.br.drop 64)) then .refuse .paramMismatch bad poison
  else if si.isNone || so.isNone then .refuse .badState bad poison
  else if bad != 0 then ⟨.keyMismatch, bad, poison, true, true⟩
  else if poison then ⟨.ok, 0, true, true, true⟩
  else ⟨.ok, 0, false, false, true⟩

/-- SAMPLES of a LOOKUP. -/
def Desc.samples (d : Desc) : Nat := bits (word d 0) 14 12 + 1

/-- What a LOOKUP computes a sample's phase and its error with: the input, its two keys (R231, R232) and the two constants; the table is no part
of it. -/
def State.lookupInput (s : State) (p : Fin 16) (j : DrJob) : List Byte :=
  let d : Desc := j.desc
  s.dramAt p (d.addr 2) (objBytes d.n 0) ++ s.dramAt p (d.addr 4) (65536 * bcLwe d.n)
    ++ s.dramAt p (d.addr 5) (65536 * bcBlind d.n d.spPrimes) ++ j.loaded.br

/-- How far the approximation of a sample's phase lies from the phase (R229): bounded by the key set's noise. It comes from the switches that the
DR_LWE key takes part in, and neither the table nor the DR_BLIND key does. -/
def State.lookupDrift (s : State) (p : Fin 16) (j : DrJob) (k : Nat) : Int :=
  let d : Desc := j.desc
  within (Config.driftSize (psetFp j.loaded.pset))
    (Config.lookupDrift (s.dramAt p (d.addr 2) (objBytes d.n 0) ++ s.dramAt p (d.addr 4) (65536 * bcLwe d.n)) k)

/-- e_k (R229): its size depends on the key set's noise alone, and it never depends on v, which the table gives. -/
def State.lookupError (s : State) (p : Fin 16) (j : DrJob) (k : Nat) : Int :=
  within (Config.noiseSize (psetFp j.loaded.pset)) (Config.lookupNoise (s.lookupInput p j) k)

/-- Coefficient `i` of the product of two polynomials of degree below `n` modulo Y^n + 1. -/
def negaCoeff (n : Nat) (x : List Nat) (y : Nat → Int) (i : Nat) : Int :=
  ((List.range n).map (fun k => (x.getD k 0 : Int) * (if k ≤ i then y (i - k) else -y (n + i - k)))).foldl (· + ·) 0

/-- Entry `i` of the table as R229 looks it up: the lower half is the table, the upper half its negative; words are reduced (R230). -/
def tableValue (q e : Nat) (table : List Byte) (i : Nat) : Nat :=
  let w (i : Nat) : Nat := leNat ((table.drop (8 * i)).take 8) % q
  if i < e / 2 then w i else (q - w (i - e / 2)) % q

/-- The value v of sample `k` (R229): the input's phase under the key set's secret, with the deviation of its approximation, picks the entry. The
manual states neither the secret, which the part never forms, nor the deviation. -/
def State.sampleValue (s : State) (p : Fin 16) (j : DrJob) (k : Nat) : Nat :=
  let d : Desc := j.desc
  let q := psetQ j.loaded.pset 0
  let secret := Config.secretCoeff (psetFp j.loaded.pset)
  let i := d.pos 6 k
  let phi := ((s.objVec p (d.addr 2) d.n 0 0).getD i 0 : Int) + negaCoeff d.n (s.objVec p (d.addr 2) d.n 0 1) secret i
    + s.lookupDrift p j k
  tableValue q d.tableSize j.loaded.table (((2 * d.tableSize * modQ q phi + q) / (2 * q)) % d.tableSize)

/-- What the destination's phase gains (R229): v + e_k at POS_OUT[k] for each sample, and nothing at any other position. -/
def State.lookupGain (s : State) (p : Fin 16) (j : DrJob) : List Nat :=
  let d : Desc := j.desc
  let ks := List.range d.samples
  (List.range d.n).map (fun x =>
    modQ (psetQ j.loaded.pset 0) (((ks.filter (fun k => d.pos 8 k == x)).map (fun k =>
      (s.sampleValue p j k : Int) + s.lookupError p j k)).foldl (· + ·) 0))

/-- Polynomial 0 or 1 of a LOOKUP's result. Polynomial 1 gains residues that the manual does not state, polynomial 0 what then makes the
phase gain `lookupGain`. Keys that are not the key set's give a wrong result without a report (R214), with no word of it stated. Every word
is a function of what the job reads, so it repeats from run to run (R148, R242). -/
def State.lookupVec (s : State) (p : Fin 16) (j : DrJob) (poly : Nat) : List Nat :=
  let d : Desc := j.desc
  let src := s.lookupInput p j ++ j.loaded.table
  let q := psetQ j.loaded.pset 0
  let old := s.objVec p (d.addr 3) d.n 0 poly
  let t (x : List Nat) : List Nat := nttFwd q (psetPsi j.loaded.pset 0 d.logN) d.logN x
  let a := (List.range d.n).map (fun i => Config.lookupMask src i % q)
  if !s.lookupKeysFit p d j.loaded.pset j.loaded.br then (List.range d.n).map (fun i => Config.lookupJunk src poly i % q)
  else if poly = 1 then zip2 (fun x y => (x + y) % q) old a
  else
    let secret := t ((List.range d.n).map (fun i => modQ q (Config.secretCoeff (psetFp j.loaded.pset) i)))
    zip2 (fun x y => (x + y) % q) old (zip2 (subWord q) (t (s.lookupGain p j)) (zip2 (fun x y => x * y % q) a secret))

/-- The effect of a LOOKUP: untouched, zero-filled and POISONED, or the table's results added (R227 to R229). The result of a spoiled job is
undefined (R224). -/
def State.lookup (s : State) (p : Fin 16) (j : DrJob) : JobVerdict × State :=
  let d : Desc := j.desc
  let v := s.lookupVerdict p j
  let pset := j.loaded.pset
  (v,
   if v.poisonOut then s.poisonObj p (d.addr 3) d.n 0
   else if v.written then
     (if j.spoiled then s.freeObj p pset (d.addr 3) d.n 0
      else (s.setVec p (d.addr 3) d.n 0 0 (s.lookupVec p j 0)).setVec p (d.addr 3) d.n 0 1 (s.lookupVec p j 1))
   else s.untouched p d pset 0)

/-! ## BLIND and UNBLIND (R234 to R239) -/

/-- The nonce of a refresh message (R235). -/
def refreshNonce (p : Fin 16) (c : Fin 32) (dir ticket epoch : Nat) : List Byte :=
  leBytes 2 p.val ++ [byte c.val, byte dir] ++ leBytes 2 ticket ++ zeros 2 ++ leBytes 4 epoch

/-- The refresh header (R235). -/
def refreshHeader (p : Fin 16) (c : Fin 32) (dir ticket epoch : Nat) (fp : List Byte) (level len : Nat) : List Byte :=
  leBytes 4 0x46524B53 ++ [byte dir, byte c.val] ++ leBytes 2 ticket ++ leBytes 4 epoch ++ leBytes 2 p.val ++ zeros 2 ++ fp
    ++ [byte level] ++ zeros 7 ++ leBytes 8 len ++ zeros 24

/-- The mask coefficients of a seed (R236 step 2). A PT_MODULUS outside 2 to 2^61 − 1 is computed with as it stands, and a t of 0 leaves x
unreduced (DESIGN CHOICE: no rule says what a job does with such a parameter set; log 149). -/
def maskCoeffs (seed : List Byte) (n modulus : Nat) : List Nat :=
  (chop 16 n (ctrBlocks (aesKeys seed) 0 128 n 0)).map (fun b => leNat b % modulus)

/-- The modulus of the mask: t, or 2^MASK_BITS for CKKS, and for a reserved SCHEME (DESIGN CHOICE, log 149). -/
def maskModulus (id : List Byte) (maskBits : Nat) : Nat := if schemeOf id ≤ 1 then ptModulus id else 2 ^ maskBits

/-- floor(Q_LEVEL ÷ t) for BFV, 1 otherwise: what scales the mask (R236 step 4). A t of 0 gives 0 (DESIGN CHOICE, log 149). -/
def maskScale (id pset : List Byte) (level : Nat) : Nat :=
  if schemeOf id = 1 then ((List.range (level + 1)).map (psetQ pset)).foldl (· * ·) 1 / ptModulus id else 1

/-- The factor of the errors: t for BGV, 1 otherwise. -/
def errorScale (id : List Byte) : Nat := if schemeOf id = 0 then ptModulus id else 1

/-- Bytes that a BLIND draws for its noise (R308): 116 bits for each coefficient. -/
def noiseBytes (n : Nat) : Nat := n * 29 / 2

/-- The draws of each coefficient, in turn: 116 bits each, the lowest first (DESIGN CHOICE: R308 gives the amounts and not their order). -/
def noiseDraws (n : Nat) (b : List Byte) : List Nat := (chop 29 (n / 2) b).flatMap (fun x => [leNat x % 2 ^ 116, leNat x / 2 ^ 116])

/-- u of a coefficient: its first 32 bits, reduced to −1, 0 or 1 (R308; DESIGN CHOICE: as the residue modulo 3, less 1). -/
def ternary (x : Nat) : Int := ((x % 2 ^ 32 % 3 : Nat) : Int) - 1

/-- e0 or e1 of a coefficient: the difference of the bit counts of the two halves of its 42 bits (R308). -/
def binomial (x first : Nat) : Int :=
  let ones (lo : Nat) : Nat := countBelow 21 (fun i => x.testBit (lo + i))
  (ones first : Int) - ones (first + 21)

/-- One vector of the blinded object: the input's, plus pk × u + the scaled error and, on polynomial 0, the scaled mask. -/
def State.blindVec (s : State) (p : Fin 16) (d : Desc) (pset : List Byte) (u e : List Int) (r : List Nat) (limb poly : Nat) :
    List Nat :=
  let id := pset.take 32
  let q := psetQ pset limb
  let psi := psetPsi pset limb d.logN
  let t (x : List Nat) : List Nat := nttFwd q psi d.logN x
  let pk := s.objVec p (d.addr 4) d.n limb poly
  let inp := s.objVec p (d.addr 2) d.n limb poly
  let un := t (u.map (modQ q))
  let en := t (e.map (fun x => modQ q (x * errorScale id)))
  let rn := if poly = 0 then t (r.map (fun x => maskScale id pset d.level * x % q)) else List.replicate d.n 0
  (List.zipWith (fun x (y : Nat × Nat × Nat × Nat) => (x + y.1 * y.2.1 + y.2.2.1 + y.2.2.2) % q) inp
    (pk.zip (un.zip (en.zip rn))))

/-- The verdict of a BLIND on rows 1 to 5 and 8 of R227. -/
def State.blindVerdict (s : State) (p : Fin 16) (j : DrJob) : JobVerdict :=
  let d : Desc := j.desc
  let l := j.loaded
  let si := stateCheck (l.inHdr.drop 32) d.level 1 0 d.inScale
  let poison := si == some true
  let id := l.pset.take 32
  if s.rowRange p j || d.schemeBad l.pset then .refuse .badParam 0 poison
  else if l.owned then .refuse .notPermitted 0 poison
  else if l.inHdr.take 32 != id || l.keyHdr != id || !d.psetAgrees l.pset then .refuse .paramMismatch 0 poison
  else if si.isNone || l.ticket.st != .free then .refuse .badState 0 poison
  else
    match l.rng with
    | some st => .refuse st 0 poison
    | none => if poison then ⟨.ok, 0, true, false, false⟩ else ⟨.ok, 0, false, false, true⟩

/-- Queue the sealed message of a BLIND on its queue pair (R237); without that queue pair, or with one in ERROR, whose queue is empty, its
sending starts and fails at once. -/
def State.queueRefresh (s : State) (p : Fin 16) (c : Fin 32) (d : Desc) (epoch task : Nat) : State :=
  let qp := bits (word d 11) 31 16
  let r : RefreshSend :=
    { cluster := c.val, ticket := d.ticket, epoch := epoch, addr := d.addr 3, length := 80 + d.bodyLength d.level
      va := (word d 12).toNat, rkey := bits (word d 11) 63 32, imm := bits (word d 13) 63 32, peer := bits (word d 11) 5 0
      sentCtr := bits (word d 14) 58 48, task := task }
  if (s.qp? p qp).all (fun q => decide (q.st = .error)) then s.refreshFailed p c d.ticket epoch .badState
  else s.modQp p qp (fun q => { q with egress := q.egress ++ [.refresh r] })

/-- The message of a BLIND (R236): the seed and the noise are drawn from the cluster's instance in one run (R308), the blinded object is sealed and written to the outbound
buffer, and the ticket is SENDING; it keeps the seed and, in the byte after it, MASK_BITS. A spoiled job's message is undefined. -/
def State.blindMessage (s : State) (p : Fin 16) (c : Fin 32) (j : DrJob) (task : Nat) : State :=
  let d : Desc := j.desc
  let pset := j.loaded.pset
  let id := pset.take 32
  let fp := (id.drop 8).take 8
  let (drawn, g) := (s.clusters[c]).drbg.draw (32 + noiseBytes d.n)
  let s := s.modCluster c (fun x => { x with drbg := g })
  let seed := drawn.take 32
  let noise := noiseDraws d.n (drawn.drop 32)
  let r := maskCoeffs seed d.n (maskModulus id d.maskBits)
  let vecs := (vecsOf d.level).flatMap (fun x =>
    natsBytes (s.blindVec p d pset (noise.map ternary) (noise.map (fun e => binomial e (if x.2 = 0 then 32 else 74))) r x.1 x.2))
  let body := s.dramAt p (d.addr 2) 64 ++ zeros 4032 ++ vecs
  let (body, s) := if j.spoiled then s.freshBytes body.length else (body, s)
  let old := (s.clusters[c]).der.ticket d.ticket
  let epoch := (old.epoch + 1) % 2 ^ 32
  let h := refreshHeader p c 0 d.ticket epoch fp d.level body.length
  let (ct, tag) := gcmSeal (s.jobKey p c fp) (refreshNonce p c 0 d.ticket epoch) h body
  let s := s.writePages p (d.addr 3) (h ++ ct ++ tag)
  let s := s.setTicket c d.ticket
    ⟨.sending, seed ++ [byte d.maskBits], epoch, s.clock + bits (word d 13) 31 0 * ms, w64 (leNat fp), d.logN, d.ctPrimes⟩
  s.queueRefresh p c d epoch task

/-- The effect of a BLIND (R227, R236): without a message the outbound buffer is zero-filled, also where only the input's POISONED flag
stands in the way (DESIGN CHOICE: row 8 does not name the buffer). A job that ends with RNG_NOT_READY is counted (R306). -/
def State.blind (s : State) (p : Fin 16) (c : Fin 32) (j : DrJob) (task : Nat) : JobVerdict × State :=
  let d : Desc := j.desc
  let v := s.blindVerdict p j
  let len := 80 + d.bodyLength d.level
  let s := if v.st = .rngNotReady then s.count (vf p) .rngNotReady 1 else s
  (v,
   if v.written then s.blindMessage p c j task
   else if s.bufferFree p d (d.addr 3) len 64 then s.writePages p (d.addr 3) (zeros len)
   else s)

/-- The verdict of an UNBLIND by R227, with the opened object. A ticket that expires while the job runs fails row 4 as well (DESIGN CHOICE: R240 lets
its return never be opened). -/
def State.unblindVerdict (s : State) (p : Fin 16) (c : Fin 32) (j : DrJob) : JobVerdict × List Byte :=
  let d : Desc := j.desc
  let top := d.ctPrimes - 1
  let pset := j.loaded.pset
  let id := pset.take 32
  let fp := (id.drop 8).take 8
  let k := (s.clusters[c]).der.ticket d.ticket
  let len := d.bodyLength top
  let h := j.loaded.inHdr
  let ct := s.dramAt p (d.addr 2 + 64) len
  let tag := s.dramAt p (d.addr 2 + 64 + len) 16
  let nonce := refreshNonce p c 1 d.ticket k.epoch
  let key := s.jobKey p c fp
  let obj := gcmCrypt (aesKeys key) nonce ct
  let so := stateCheck (j.loaded.outHdr.drop 32) top 1 0 d.dstScale
  let sr := stateCheck ((obj.take 64).drop 32) top 1 0 d.dstScale
  let poison := sr == some true
  let want := refreshHeader p c 1 d.ticket k.epoch fp top len
  let v : JobVerdict :=
    if s.rowRange p j then .refuse .badParam 0 poison
    else if j.loaded.owned then .refuse .notPermitted 0 poison
    else if j.loaded.outHdr.take 32 != id || obj.take 32 != id || !d.psetAgrees pset then .refuse .paramMismatch 0 poison
    else if so.isNone || sr.isNone || k.st = .free || h != want || w64 (leNat fp) != k.keysetFp || d.logN != k.logN
        || d.ctPrimes != k.ctPrimes then .refuse .badState 0 poison
    else if (gcmOpen key nonce h ct tag).isNone then .refuse .authFailed 0 poison
    else if poison then ⟨.ok, 0, true, true, true⟩
    else ⟨.ok, 0, false, false, true⟩
  (v, obj)

/-- The effect of an UNBLIND (R227, R239). The mask's modulus for CKKS is that of the BLIND, which the descriptor of an UNBLIND
does not carry; the ticket keeps it with the seed. -/
def State.unblind (s : State) (p : Fin 16) (c : Fin 32) (j : DrJob) : JobVerdict × State :=
  let d : Desc := j.desc
  let top := d.ctPrimes - 1
  let (v, obj) := s.unblindVerdict p c j
  let pset := j.loaded.pset
  let id := pset.take 32
  let k := (s.clusters[c]).der.ticket d.ticket
  let free (s : State) : State := s.setTicket c d.ticket { k with st := .free, seed := [] }
  (v,
   if v.poisonOut then free (s.poisonObj p (d.addr 3) d.n top)
   else if v.written then
     let r := maskCoeffs (k.seed.take 32) d.n (maskModulus id (leNat (k.seed.drop 32)))
     let s := (vecsOf top).foldl (fun s x =>
       let q := psetQ pset x.1
       let a := (wordNats ((obj.drop (4096 + (x.1 * 2 + x.2) * 8 * d.n)).take (8 * d.n))).map (· % q)
       let m := nttFwd q (psetPsi pset x.1 d.logN) d.logN (r.map (fun y => maskScale id pset top * y % q))
       s.setVec p (d.addr 3) d.n x.1 x.2 (if x.2 = 0 then zip2 (subWord q) a m else a)) s
     let s := if j.spoiled then s.freeObj p pset (d.addr 3) d.n top else s
     free (s.writePartial p (d.addr 3 + 37) ((obj.drop 37).take 1))
   else s.untouched p d pset top)

/-! ## The end of a job (R224, R226) -/

/-- The cluster's running job ends: it writes what its kind decides and its outcome word, leaves the engines in ring mode, and
signals. Nothing happens where no job of that kind runs, or its task stops first. -/
def State.endJob (s : State) (c : Fin 32) (mine : Nat → Bool) (run : Fin 16 → Running → DrJob → State → JobVerdict × State) : State :=
  match s.ownerOf c.val with
  | none => s
  | some p =>
    match (s.parts[p]).job.running, (s.clusters[c]).der.jobs with
    | some r, j :: rest =>
      if !mine (Desc.kind j.desc) || r.stopped j.ends then s
      else
        let s := s.advance (r.clockOf j.ends)
        let s := (s.settleSignals p j.ends).settleDram p j.ends
        let j := (s.clusters[c]).der.jobs.headD j
        let s := s.modCluster c (fun x => x.settleShared j.ends)
        let (v, s) := run p r j s
        let s := s.dropJobKey p c
        let w := outcomeWord (Desc.kind j.desc) v.st v.bad v.poisonOut v.poisonIn v.written
        let s := s.modCluster c (fun x =>
          { x with
            shared := x.shared.writeN (j.addr + 120) (leBytes 8 w.toNat)
            der := { x.der with jobs := rest, lastEnd := Nat.max x.der.lastEnd j.ends }
            cores := x.cores.map (fun k => { k with eng := { k.eng with tensor := false } }) })
        match j.sig with
        | some n => s.send p ⟨⟨c.val, n⟩, 1, ⟨3, c.val, 0, j.issued, false⟩, j.ends, j.ends, false⟩
        | none => s
    | _, _ => s

/-- DR_JOB_LOOKUP (R228 to R230). A job of a reserved kind ends here too, with BAD_PARAM (R227). -/
def execDrJobLookup (c : Fin 32) (s : State) : Host.Outcome State Fault Refusal :=
  .next (s.endJob c (fun k => k == 0 || k ≥ 3) (fun p _ j s =>
    if Desc.kind j.desc = 0 then s.lookup p j else (.refuse .badParam 0 false, s)))

/-- DR_JOB_BLIND (R236). -/
def execDrJobBlind (c : Fin 32) (s : State) : Host.Outcome State Fault Refusal :=
  .next (s.endJob c (· == 1) (fun p r j s => s.blind p c j r.taskId))

/-- DR_JOB_UNBLIND (R239). -/
def execDrJobUnblind (c : Fin 32) (s : State) : Host.Outcome State Fault Refusal :=
  .next (s.endJob c (· == 2) (fun p _ j s => s.unblind p c j))

/-! ## Tickets (R237, R240) -/

/-- The signal to SENT_CTR (R237, R278): to a task counter only while the task that issued the BLIND runs; one that is on its way when that task
ends is discarded there (`State.strand`). -/
def State.sentSignal (s : State) (p : Fin 16) (ctr : CtrRef) (task : Nat) : State :=
  let running := (s.parts[p]).job.running.any (fun r => r.taskId == task)
  if (s.parts[p]).holds ctr || running then s.signalExternal p ctr 1 4 else s.count (vf p) .syncDiscarded 1

/-- REFRESH_FLUSH_COMPLETE (R237): the FLUSH of the refresh message that a queue pair sends has completed. -/
def execRefreshFlushComplete (p : Fin 16) (i : Nat) (s : State) : Host.Outcome State Fault Refusal :=
  .next (
    match s.qp? p i with
    | none => s
    | some q =>
      match q.sending with
      | none => s
      | some d =>
        match d.kind with
        | .egress _ => s
        | .refresh c t epoch ctr task =>
          if d.acked != d.length || !d.unacked.isEmpty then s
          else
            let s := s.modQp p i (fun q => { q with sending := none })
            let cl := Fin.ofNat 32 c
            let k := (s.clusters[cl]).der.ticket t
            let s := if k.st = .sending && k.epoch = epoch then s.setTicket cl t { k with st := .waiting } else s
            s.sentSignal p ⟨c, ctr⟩ task)

/-- REFRESH_TICKET_EXPIRY (R240): the deadline passes while the ticket is SENDING or WAITING. -/
def execRefreshTicketExpiry (c : Fin 32) (t : Fin 128) (s : State) : Host.Outcome State Fault Refusal :=
  .next (
    match s.ownerOf c.val with
    | none => s
    | some p =>
      let k := (s.clusters[c]).der.ticket t.val
      if k.st = .free then s
      else
        ((s.advance k.deadline).setTicket c t.val { k with st := .free, seed := [] }).postPart p 0x0521 .ok
          [ticketWord c t.val k])

/-- A ticket of the partition's clusters is not FREE. -/
def State.ticketsBusy (s : State) (p : Fin 16) : Bool :=
  (s.parts[p]).clusterFins.any (fun c => (s.clusters[c]).der.tickets.any (fun e => e.2.st != .free))

/-- Zero the tickets of the partition's clusters without an event (R234). -/
def State.zeroTickets (s : State) (p : Fin 16) : State :=
  (s.parts[p]).clusterFins.foldl (fun s c => s.modCluster c (fun x => { x with der := { x.der with tickets := [] } })) s

end Sys2Proof.Machine
end

