-- ==== Sys2Proof/Machine/Programs.lean ====
section
/-! DEFINITION. Program images and LOAD_PROGRAM (R150 to R157). -/

namespace Sys2Proof.Machine

open Sys2Proof.Machine.Crypto

/-! ## Images (R150 to R152) -/

/-- A little-endian number of `n` bytes at an offset of a byte string. -/
def leAt (b : List Byte) (o n : Nat) : Nat := leNat ((b.drop o).take n)

/-- An entry of the section table (R151). -/
structure Section where
  ty : Nat
  cluster : Nat
  core : Nat
  clean : Bool
  off : Nat
  len : Nat
  target : Nat
  deriving DecidableEq, Repr

/-- Read an entry of 32 bytes. -/
def readSection (b : List Byte) : Section :=
  ⟨leAt b 0 1, leAt b 1 1, leAt b 2 1, leAt b 3 5 == 0, leAt b 8 8, leAt b 16 8, leAt b 24 8⟩

/-- SECTIONS of a header (R150). -/
def imgSections (h : List Byte) : Nat := leAt h 6 2
/-- CLUSTERS. -/
def imgClusters (h : List Byte) : Nat := leAt h 16 1
/-- FOLD_K. -/
def imgFoldK (h : List Byte) : Nat := leAt h 17 1
/-- LOCAL_KIB in bytes. -/
def imgLocal (h : List Byte) : Nat := leAt h 20 2 * 1024
/-- SHARED_KIB in bytes. -/
def imgShared (h : List Byte) : Nat := leAt h 22 2 * 1024

/-- The entries of the section table. -/
def readTable (h body : List Byte) : List Section := (chop 32 (imgSections h) body).map readSection

/-- The header is as R150 lays it out, for an image of `len` bytes. -/
def imageHeaderOk (h : List Byte) (len : Nat) : Bool :=
  leAt h 0 4 == 0x4E435141 && leAt h 4 2 == 1 && 1 ≤ imgSections h && imgSections h ≤ 4096 && 2 ≤ imgClusters h
    && imgClusters h ≤ 32 && imgClusters h % 2 == 0 && imgFoldK h ≤ 24 && leAt h 18 1 ≤ 3 && leAt h 19 1 == 0
    && leAt h 20 2 ≤ 2048 && leAt h 22 2 ≤ 8192 && leAt h 40 4 + 80 == len && leAt h 44 20 == 0

/-- A field that names a cluster rank, or every cluster. -/
def rankField (clusters v : Nat) : Bool := v < clusters || v == 0xFF

/-- A field that names a core, or every core. -/
def coreField (v : Nat) : Bool := v < 8 || v == 0xFF

/-- An entry of the table is as R151 and R152 state. -/
def entryFits (h : List Byte) (bodyLen : Nat) (x : Section) : Bool :=
  let n := imgClusters h
  x.clean && x.off + x.len ≤ bodyLen && (x.len == 0 || 32 * imgSections h ≤ x.off) &&
    match x.ty with
    | 1 => rankField n x.cluster && coreField x.core && x.target == 0 && x.len % 32 == 0 && x.len ≤ 262144
    | 2 => x.cluster == 0 && x.core == 0 && x.target == 0 && x.len == n * 128
    | 3 => rankField n x.cluster && coreField x.core && x.target + x.len ≤ imgLocal h
    | 4 => rankField n x.cluster && x.core == 0 && x.target + x.len ≤ imgShared h
    | 5 => x.cluster == 0 && x.core == 0 && x.target == 0
    | _ => false

/-- Two sections overlap. -/
def sectionsMeet (x y : Section) : Bool := x.len != 0 && y.len != 0 && x.off < y.off + y.len && y.off < x.off + x.len

/-- No section of a list overlaps a later one. -/
def apart : List Section → Bool
  | [] => true
  | x :: xs => xs.all (fun y => !sectionsMeet x y) && apart xs

/-- The section is for a core of a cluster rank. -/
def Section.covers (x : Section) (rank core : Nat) : Bool :=
  (x.cluster == rank || x.cluster == 0xFF) && (x.core == core || x.core == 0xFF)

/-- The CODE sections of a core. -/
def codeOf (t : List Section) (rank core : Nat) : List Section := t.filter (fun x => x.ty == 1 && x.covers rank core)

/-- The data of a section. -/
def Section.data (x : Section) (body : List Byte) : List Byte := (body.drop x.off).take x.len

/-- A slot map is as R141 and R152 state: reserved slots have no owner, others a core of the image's clusters or none. -/
def slotMapOk (h data : List Byte) : Bool :=
  (List.range (imgClusters h)).all (fun s =>
    (List.range 64).all (fun n =>
      let v := leAt data (128 * s + 2 * n) 2
      v == 0xFFFF || (4 + imgFoldK h ≤ n && v < 8 * imgClusters h)))

/-- Every bundle of a CODE section is free of reserved encodings and names ranks below CLUSTERS (R127, R155). -/
def codeOk (clusters : Nat) (data : List Byte) : Bool :=
  (chop 32 (data.length / 32) data).all (fun b => bundleOk clusters (leNat b))

/-- An image meets R150 to R152 and holds no reserved encoding. -/
def imageOk (h body : List Byte) (len : Nat) : Bool :=
  imageHeaderOk h len && 32 * imgSections h ≤ body.length &&
    let t := readTable h body
    t.all (entryFits h body.length) && apart t && (t.filter (fun x => x.ty == 2)).length == 1
      && (t.filter (fun x => x.ty == 2)).all (fun x => slotMapOk h (x.data body))
      && (List.range (imgClusters h)).all (fun r => (List.range 8).all (fun k => (codeOf t r k).length ≤ 1))
      && (t.filter (fun x => x.ty == 1)).all (fun x => codeOk (imgClusters h) (x.data body))

/-! ## Sealing (R153) -/

/-- K_prog. -/
def State.programKey (s : State) (p : Fin 16) (id : List Byte) : List Byte :=
  hkdf sha256Kind ((s.keyAt (partSlot p 0)).getD []) id (ascii "skv9032 program") 32

/-- Open an image: its header and its decrypted body; none where the tag fails. -/
def State.openImage (s : State) (p : Fin 16) (img : List Byte) : Option (List Byte × List Byte) :=
  let h := img.take 64
  let ct := (img.drop 64).take (img.length - 80)
  (gcmOpen (s.programKey p ((h.drop 8).take 8)) ((h.drop 36).take 4 ++ zeros 8) h ct (img.drop (img.length - 16))).map
    (fun b => (h, b))

/-! ## LOAD_PROGRAM (R154 to R157) -/

/-- IMG_LENGTH. -/
def loadLength (w : List W64) : Nat := bits (word w 2) 26 0
/-- RES_ADDR. -/
def loadAddr (w : List W64) : Nat := bits (word w 3) 38 0

/-- Bytes of a resident copy (R155). -/
def residentSize (len : Nat) : Nat := ceilDiv len 4096 * 4096

/-- The refusals of R155 for an opened image of `len` bytes. -/
def State.loadRefusal (s : State) (p : Fin 16) (h body : List Byte) (len addr : Nat) : Option Status :=
  let q := s.parts[p]
  if !imageOk h body len then some .badParam
  else if imgClusters h != q.stacks then some .paramMismatch
  else if Table.has q.job.resident (leAt h 8 8) then some .duplicate
  else if q.job.resident.length ≥ 64 then some .tableFull
  else if addr + residentSize len > q.dramSize || s.ownedRange p addr (residentSize len) then some .noResource
  else none

/-- LOAD of a whole image (R155, R156): its measurement, in the attestation log too, and its resident copy. The running task's moves and jobs have met DRAM
up to now. -/
def State.loadImage (s : State) (p : Fin 16) (img : List Byte) (addr : Nat) : Handled :=
  match s.openImage p img with
  | none => .refuse .authFailed
  | some (h, body) =>
    match s.loadRefusal p h body img.length addr with
    | some st => .refuse st
    | none =>
      let m := sha384 (h ++ body)
      let x : Program := ⟨addr, residentSize img.length, imgFoldK h, leAt h 18 1, leAt h 24 8, leAt h 32 4⟩
      let s := s.writePages p addr (padTo (residentSize img.length) (h ++ body))
      let s := s.modJob p (fun j => { j with resident := Table.put j.resident (leAt h 8 8) x })
      .done .ok (bytesToWords 6 m) (s.attest p 3 m)

/-- A refusal of a whole image, or of a LOAD_PROGRAM that is no part of an inline load: the channel's chain has ended with it
(R154; that a last part ends its chain whatever becomes of the image is a DESIGN CHOICE). -/
def State.refuseChain (s : State) (ch : Fin 17) (st : Status) : Handled :=
  .done st [] ((s.modChan ch (fun c => { c with chain := none })).count ch .cmdRefused 1)

/-- The payload of a part of an inline LOAD has a wrong length (R154, R519): the last part carries exactly the words that its IMG_LENGTH
still wants, an earlier one at least one word and fewer than those. -/
def State.partLengthBad (s : State) (ch : Fin 17) (r : Req) : Bool :=
  let old := ((s.chans[ch]).chain.map (fun c => c.bytes.length)).getD 0
  let total := loadLength r.payload
  let words := (r.payload.drop 5).length
  if r.last then words != ceilDiv (total - old) 8 || total < old else words == 0 || old + 8 * words ≥ total

/-- One command of an inline LOAD (R154, R430): parts before the last are answered ACCEPTED; the last one's words complete
IMG_LENGTH. A part that is refused has no effect (R426), so that the parts before it stand. -/
def State.loadPart (s : State) (ch : Fin 17) (r : Req) : Handled :=
  let w := r.payload
  let old := ((s.chans[ch]).chain.map Chain.bytes).getD []
  let total := loadLength w
  let words := w.drop 5
  if (s.chans[ch]).chain.any (fun c => c.total != total) then .refuse .badParam
  else if r.last then
    if ((wordsToBytes words).drop (total - old.length)).any (· != 0) then .refuse .badParam
    else
      let s := s.modChan ch (fun c => { c with chain := none })
      match (s.syncDram (chanPart ch)).loadImage (chanPart ch) (old ++ (wordsToBytes words).take (total - old.length)) (loadAddr w) with
      | .refuse st => s.refuseChain ch st
      | x => x
  else .done .accepted [] (s.modChan ch (fun c => { c with chain := some ⟨0x0501, total, old ++ wordsToBytes words⟩ }))

/-- A task of the program is queued, in a cassette or running (R157). -/
def JobPart.uses (j : JobPart) (id : W64) : Bool :=
  let c (x : Cassette) : Bool := match x with
    | .tenant t => t.program == id
    | .recovery _ => false
  j.queue.any (fun t => t.program == id) || j.cassettes.any c || j.running.any (fun r => c r.what)

/-- UNLOAD (R157). -/
def State.unload (s : State) (p : Fin 16) (id : W64) : Handled :=
  match Table.get? (s.parts[p]).job.resident id.toNat with
  | none => .refuse .badParam
  | some x =>
    if (s.parts[p]).job.uses id then .refuse .badState
    else
      let s := (s.syncDram p).writePages p x.addr (zeros x.length)
      let s := s.modJob p (fun j => { j with resident := Table.del j.resident id.toNat })
      .done .ok [] (s.attest p 4 (leBytes 8 id.toNat))

/-- Reserved bits of the payload, and fields that the operation reserves (R154). -/
def loadReserved (w : List W64) : Bool :=
  let op := bits (word w 0) 17 16
  let mem := bitAt (word w 0) 11
  (if op = 1 then mem || word w 1 != 0 || word w 2 != 0 || word w 3 != 0 else word w 4 != 0 || (!mem && word w 1 != 0))
    || nonZero (word w 0) 63 18 || op ≥ 2 || nonZero (word w 0) 15 12 || nonZero (word w 0) 10 0 || nonZero (word w 1) 63 39
    || nonZero (word w 2) 63 27 || nonZero (word w 3) 63 39

/-- A value of the payload is out of range (R154), or a flag stands that the operation does not allow (R430, R431). An image in memory that
does not lie wholly in the partition's DRAM is one (DESIGN CHOICE: the manual states no status for it). -/
def loadRange (q : Partition) (r : Req) : Bool :=
  let w := r.payload
  let unload := bits (word w 0) 17 16 = 1
  let mem := bitAt (word w 0) 11
  if unload then
    r.async || !r.last
  else
    loadLength w < 80 || loadLength w > 2 ^ 26 || loadAddr w % 4096 != 0 ||
      if mem then bits (word w 1) 38 0 % 64 != 0 || bits (word w 1) 38 0 + loadLength w > q.dramSize || !r.last
      else r.async

/-- LOAD_PROGRAM (R153 to R157). Any command that is not a part of an inline LOAD abandons one in progress (R154), refused or not; a part
that is refused leaves it standing. A LOAD from memory that a resident copy, a round or the context store owns in part is refused with
NOT_PERMITTED: no interface reads such memory (R62, R156), and the manual states no status (DESIGN CHOICE). -/
def handleLoadProgram : Handler := fun ch r s =>
  let p := chanPart ch
  let w := r.payload
  let inl := bits (word w 0) 17 16 = 0 ∧ !bitAt (word w 0) 11
  let no (st : Status) : Handled := if inl then s.returnPart ch r st else s.refuseChain ch st
  if loadReserved w then no .badParam
  else if if inl then s.partLengthBad ch r else w.length != 5 then no .badLength
  else if loadRange (s.parts[p]) r then no .badParam
  else if inl then s.loadPart ch r
  else
    let s := s.modChan ch (fun c => { c with chain := none })
    let x : Handled :=
      if bits (word w 0) 17 16 = 1 then s.unload p (word w 4)
      else if !s.placed p r then .hold .retry s
      else if (s.parts[p]).sourceOwned none (bits (word w 1) 38 0) (loadLength w) then .refuse .notPermitted
      else
        let s := s.syncDram p
        s.loadImage p (s.dramAt p (bits (word w 1) 38 0) (loadLength w)) (loadAddr w)
    match x with
    | .refuse st => s.refuseChain ch st
    | x => x

/-- LOAD_PROGRAM_LOAD. -/
def execLoadProgramLoad (ch : Fin 17) (c : Cmd) (s : State) : Host.Outcome State Fault Refusal :=
  .next (s.submit handleLoadProgram 0x0501 ch (cmdSel c 0 17 16 0))

/-- LOAD_PROGRAM_UNLOAD. -/
def execLoadProgramUnload (ch : Fin 17) (c : Cmd) (s : State) : Host.Outcome State Fault Refusal :=
  .next (s.submit handleLoadProgram 0x0501 ch (cmdSel c 0 17 16 1))

end Sys2Proof.Machine
end

