-- ==== Sys2Proof/Machine/Tasks.lean ====
section
/-! DEFINITION. Tasks (R123, R158 to R167, R286, R453 to R457): the queue and the cassettes, the governor's choice, preparation and
dispatch, the ends of a task and the boundary that follows, and the commands on tasks. -/

namespace Sys2Proof.Machine

/-! ## The queue and the cassettes (R158) -/

/-- Fill free cassettes: the next recovery task ahead of the tenant tasks of the queue. -/
def State.fillCassettes (s : State) (p : Fin 16) : Nat → State
  | 0 => s
  | n + 1 =>
    let q := s.parts[p]
    if q.job.cassettes.length ≥ 4 then s
    else
      match q.nextRecovery with
      | some t =>
        (s.modJob p (fun j => { j with cassettes := j.cassettes ++ [.recovery { t with entered := s.clock }] })).fillCassettes p n
      | none =>
        match q.job.queue with
        | [] => s
        | t :: ts =>
          let x : Task := { t with st := .cassette, entered := s.clock }
          (s.modJob p (fun j => { j with queue := ts, cassettes := j.cassettes ++ [.tenant x] })).fillCassettes p n

/-! ## Estimates and the choice of clock (R453 to R457) -/

/-- The class coefficient of a KIND in nanojoules per cluster and cycle (R454). -/
def classCoeff : Nat → Nat
  | 0 => 24
  | 1 => 24
  | 2 => 22
  | _ => 16

/-- The runs of a program that the history holds, latest first. -/
def Account.runs (a : Account) (id : W64) : List (Nat × Nat) := ((a.history.find? (fun e => e.1 == id)).map Prod.snd).getD []

/-- Eight times E16, in nanojoules, and eight times C (R453, R454). -/
def Partition.estimate (q : Partition) : Cassette → Nat × Nat
  | .recovery t => (8 * classCoeff 3 * t.cycles * q.stacks, 8 * t.cycles)
  | .tenant t =>
    let runs := q.acct.runs t.program
    if runs.length ≥ 8 then
      (1000 * (runs.map Prod.fst).foldl (· + ·) 0, (runs.map Prod.snd).foldl (· + ·) 0)
    else
      match Table.get? q.job.resident t.program.toNat with
      | none => (0, 0)
      | some x =>
        (8 * if x.estMj = 0 then classCoeff x.kind * x.estCycles * q.stacks else x.estMj * 1250000, 8 * x.estCycles)

/-- The estimated power at a P-state is at or below the share (R457). -/
def withinShare (units : Nat) (e : Nat × Nat) (f : Nat) : Bool := e.1 * energyPercent f * clockTenths f ≤ 5 * units * 1000 * e.2

/-- The highest P-state from `r` on whose estimated power fits the share, or P800 (R457). -/
def choosePstate (units r : Nat) (e : Nat × Nat) : Nat :=
  ((List.range 4).find? (fun f => r ≤ f && withinShare units e f)).getD 3

/-- E_eff ≤ BALANCE + OD (R455). -/
def Account.allows (a : Account) (e : Nat × Nat) (f : Nat) : Bool :=
  min (e.1 * energyPercent f : Int) (a.cap * 800000) ≤ (a.balance + a.od) * 800000

/-- When a cassette's task entered it. -/
def Cassette.since : Cassette → Nat
  | .tenant t => t.entered
  | .recovery t => t.entered

/-- It is a recovery task. -/
def Cassette.isRecovery : Cassette → Bool
  | .tenant _ => false
  | .recovery _ => true

/-- A protected task (R456). -/
def Cassette.protectedAt (x : Cassette) (now : Nat) : Bool := x.since + 100 * ms ≤ now

/-- The task that the governor dispatches now, with its P-state: recovery tasks first, then in order of entry, eligible, and no
task before it in the cassettes protected (R455, R456). -/
def Partition.choose (q : Partition) (now : Nat) : Option (Nat × Cassette × Nat) :=
  let l := (List.range q.job.cassettes.length).zip q.job.cassettes
  let order := l.filter (fun e => e.2.isRecovery) ++ l.filter (fun e => !e.2.isRecovery)
  (order.map (fun e => (e.1, e.2, choosePstate q.acct.units q.acct.reqP (q.estimate e.2)))).find? (fun e =>
    q.acct.allows (q.estimate e.2.1) e.2.2 && !(q.job.cassettes.take e.1).any (fun x => x.protectedAt now))

/-! ## Boundaries (R161, R286) -/

/-- The signals of a task's time that are still on their way when it ends (R268, R278, R286): those to held counters, and those from outside,
become visible at their ticks while no task runs; a refresh signal to a task counter is discarded and counted; the others go with the
counters' clearing. -/
def State.strand (s : State) (p : Fin 16) : State :=
  let q := s.parts[p]
  match q.job.running with
  | none => s
  | some r =>
    (q.job.transit.filter (fun w => !w.landed)).foldl (fun s w =>
      if q.holds w.ctr || w.src.kind > 4 then s.sendStray p ⟨r.clockOf w.allAt, w.ctr, w.amount, w.src⟩
      else if w.src.kind = 4 then s.count (vf p) .syncDiscarded 1
      else s) s

/-- Every store, counter and queue of the partition's clusters at a task boundary: counters that are held keep their values, and
tickets, which belong to the partition, stay. Signals that are visible by now land first. -/
def State.clearStores (s : State) (p : Fin 16) : State :=
  let s := (s.catchUp p).strand p
  let s := (s.parts[p]).clusterFins.foldl (fun s c => s.dropJobKey p c) s
  let q := s.parts[p]
  let s := q.clusterFins.foldl (fun s c =>
    s.modCluster c (fun x =>
      { x with
        cores := Vector.replicate 8 Core.clear, shared := [], sharedPending := []
        counters := x.counters.filter (fun e => q.holds ⟨c.val, e.1⟩), der := { x.der with jobs := [], lastEnd := 0 } })) s
  s.modJob p (fun j => { j with transit := [], bar := ⟨false, []⟩ })

/-- The bindings that name a partition of this part. -/
def State.bindsOf (s : State) (p : Fin 16) : List BindDesc :=
  match s.group with
  | some g =>
    match g.position with
    | some me => g.binds.filter (fun b => b.local? me == some p)
    | none => []
  | none => []

/-- The blocks that the partition's ports have sent count from 0 again (R399). -/
def State.clearPorts (s : State) (p : Fin 16) : State :=
  (s.bindsOf p).foldl (fun s b => s.modTandem (fun t => { t with sent := Table.delRange t.sent (b.id * 32) (b.id * 32 + 32) })) s

/-- This member's entry of a group-wide round ends with its task: the barrier channel is back at generation 0 with no participant entered
(R286). The root keeps the other members' entries. -/
def State.leaveRounds (s : State) (p : Fin 16) : State :=
  match s.group.bind GroupDesc.position with
  | none => s
  | some me =>
    (s.bindsOf p).foldl (fun s b => s.modTandem (fun t =>
      match Table.get? t.rounds b.id with
      | none => t
      | some r =>
        let l := Table.del (Table.del r.entered me) (me + 16)
        { t with rounds := if l.isEmpty then Table.del t.rounds b.id else Table.put t.rounds b.id { r with entered := l } })) s

/-- The task that ran leaves the tick dividers as they count (R25): its cycles run from the release it counts ticks from (R401). -/
def JobPart.keepTicks (j : JobPart) : JobPart :=
  match j.running with
  | none => j
  | some r =>
    if r.base < r.tickBase then { j with tickAt := r.clockOf r.tickBase, tickPhase := 0, tickSlow := r.slow }
    else { j with tickAt := r.start, tickPhase := r.base - r.tickBase, tickSlow := r.slow }

/-- A task boundary: nothing runs, the stores are clear, a new k takes effect (R161, R351), which a binding's condition depends on (R392). -/
def State.boundary (s : State) (p : Fin 16) : State :=
  let s := ((s.clearStores p).clearPorts p).leaveRounds p
  let s := s.modJob p (fun j => { j.keepTicks with running := none })
  (s.modPart p (fun q => { q with foldK := q.foldKNext })).bindingsEval

/-- The destination of a job that stops with its task is undefined (R224, chapter 8: "If … while …"). -/
def State.spoilJob (s : State) (p : Fin 16) (j : DrJob) : State :=
  let d : Desc := j.desc
  if s.rowRange p j || j.loaded.owned then s
  else
    let len := if d.kind = 0 then objBytes d.n 0 else if d.kind = 1 then 80 + d.bodyLength d.level else objBytes d.n (d.ctPrimes - 1)
    let (b, s) := s.freshBytes len
    s.writePartial p (d.addr 3) b

/-- What the moment at which a task stops leaves behind: moves that have issued complete, with their signals (R131, R164, R167), and jobs that
run stop. -/
def State.stopEngines (s : State) (p : Fin 16) (t : Nat) : State :=
  let s := (s.loadJobs p t 64).finishMoves p
  (s.parts[p]).clusterFins.foldl (fun s c =>
    ((s.clusters[c]).der.jobs.filter (fun j => j.begins ≤ t && t < j.ends)).foldl (fun s j => s.spoilJob p j) s) s

/-- Zero everything that the partition's clusters hold (R353). -/
def State.clearClusters (s : State) (p : Fin 16) : State :=
  (s.parts[p]).clusterFins.foldl (fun s c => s.modCluster c (fun _ => Cluster.reset)) s

/-- Every task goes at once and without an event, with the boundary's clearing (R353 steps 2 and 3). -/
def State.dropTasks (s : State) (p : Fin 16) : State :=
  let s := s.settleMoves p (2 ^ 64) (s.moveCount p)
  (s.modJob p (fun j => { j with queue := [], cassettes := [] })).boundary p

/-! ## The end of a task (R162 to R167) -/

/-- Encoding of a task's state (R163). -/
def TaskState.code : TaskState → Nat
  | .queued => 0
  | .cassette => 1
  | .running => 2
  | .ended => 3
  | .cancelled => 4

/-- Record a tenant task that has ended and post TASK_ENDED (R163, R165). Of the 64 later tasks that R163 counts, the later ones are those that end
later (DESIGN CHOICE: the rule does not say by what they are later; log 147). -/
def State.taskOver (s : State) (p : Fin 16) (t : Task) : State :=
  let s := s.modJob p (fun j =>
    let l := j.known ++ [t]
    { j with known := l.drop (l.length - 64) })
  s.postPart p 0x0510 t.status [w64 (t.st.code * 2 ^ 32 + t.code * 2 ^ 16 + t.id)]

/-- Core-cycles in external waits, summed over the cores (R163). -/
def State.externalCycles (s : State) (p : Fin 16) : Nat :=
  ((s.parts[p]).coreList.map (fun x => (s.core x.1 x.2).external)).foldl (· + ·) 0

/-- The tenant task of a cassette. -/
def Cassette.task? : Cassette → Option Task
  | .tenant t => some t
  | .recovery _ => none

/-- Remove every tenant task that waits: each ends CANCELLED (R164, R476). -/
def State.cancelAll (s : State) (p : Fin 16) (st : Status) : State :=
  let j := (s.parts[p]).job
  let l := j.cassettes.filterMap Cassette.task? ++ j.queue
  let s := s.modJob p (fun j => { j with queue := [], cassettes := j.cassettes.filter Cassette.isRecovery })
  l.foldl (fun s t => s.taskOver p { t with st := .cancelled, status := st }) s

/-- A partition reset waits for the running task of a partition. -/
def State.resetAwaited (s : State) (p : Fin 16) : Bool :=
  match (s.chans[(0 : Fin 17)]).held with
  | some h => h.why = .partitionReset p.val
  | none => false

/-- Answer a partition reset that waits for the running task (R476). -/
def State.answerReset (s : State) (p : Fin 16) : State := if s.resetAwaited p then s.finishHeld 0 .ok [] else s

/-- The running task ends at a task cycle: its remainder is charged, a tenant task is recorded as `f` leaves it, and the boundary
follows. A partition reset that waited for it is answered; after a recovery task the waiting tenant tasks go only now (R476). -/
def State.endRun (s : State) (p : Fin 16) (cycles : Nat) (f : Task → Task) : State :=
  match (s.parts[p]).job.running with
  | none => s
  | some r =>
    let s := (s.advance (r.clockOf cycles)).chargeTo p cycles
    let energy := ((s.parts[p]).job.running.map Running.charged).getD 0
    let ext := s.externalCycles p
    let s := s.boundary p
    let s : State := match r.what with
      | .tenant t => s.taskOver p (f { t with cycles := cycles, external := ext, energy := energy })
      | .recovery _ => s
    let s := if r.what.isRecovery && s.resetAwaited p then s.cancelAll p .retryLater else s
    (s.fillCassettes p 5).answerReset p

/-- The cores that have executed ctl.end: cycle, the value of register a31, CODE, cluster, core, bundle, last move. -/
structure Finished where
  cycle : Nat
  order : Nat
  code : Nat
  cluster : Nat
  core : Nat
  bundle : Nat
  moves : Nat
  deriving DecidableEq, Repr

/-- What the cores of a running task have ended with. -/
def State.finished (s : State) (p : Fin 16) : List Finished :=
  let q := s.parts[p]
  q.coreList.filterMap (fun x =>
    let k := s.core x.1 x.2
    k.ended.map (fun e =>
      ⟨e.1, (k.reg 31).toNat, e.2, x.1.val, x.2.val, k.ptr, (k.moves.map Move.done).foldl Nat.max k.lastMove⟩))

/-- The ctl.end executed last; of two in one cycle, that of the higher a31 (R162). Where a program has made two a31 equal, the first in the order of
the cores stands (DESIGN CHOICE: the rule does not say; log 147). -/
def lastFinished : List Finished → Option Finished
  | [] => none
  | x :: xs => some (xs.foldl (fun b y => if b.cycle < y.cycle || (b.cycle == y.cycle && b.order < y.order) then y else b) x)

/-- The cycle at which a running task ends by itself, with the core whose ctl.end was last: the latest of that ctl.end, the core's last move
and the end of every job (R162, R224). None while a core runs, a job has not ended, or a core has faulted (R167). A recovery task ends after its
fixed cycles (R116). A task whose image gives no core a CODE section ends at cycle 0 with CODE 0 (DESIGN CHOICE: R162 speaks of its last core;
log 147). -/
def State.naturalEnd (s : State) (p : Fin 16) : Option (Nat × Option Finished) :=
  let q := s.parts[p]
  match q.job.running with
  | none => none
  | some r =>
    match r.what with
    | .recovery t => some (t.cycles, none)
    | .tenant _ =>
      let active := q.coreList.filter (fun x => (s.core x.1 x.2).active)
      let live (k : Core) : Bool := k.ended.isNone || k.wait == some .halted
      if active.any (fun x => live (s.core x.1 x.2)) || q.clusterFins.any (fun c => !(s.clusters[c]).der.jobs.isEmpty) then
        none
      else
        match lastFinished (s.finished p) with
        | none => some (0, none)
        | some e =>
          let jobs := (q.clusterFins.map (fun c => (s.clusters[c]).der.lastEnd)).foldl Nat.max 0
          some (Nat.max jobs (Nat.max e.cycle e.moves), some e)

/-- Put a run into the history of its program (R453): its charge at 1.6 GHz and its cycles; 8 runs of 256 programs are kept. -/
def Account.addRun (a : Account) (id : W64) (x : Nat × Nat) : Account :=
  { a with history := ((id, (x :: a.runs id).take 8) :: a.history.filter (fun e => e.1 != id)).take 256 }

/-- The running task has ended by itself: its moves are complete, a tenant task enters the history, a recovery task applies its
corrections. -/
def State.completeRun (s : State) (p : Fin 16) (cycles : Nat) (last : Option Finished) : State :=
  match (s.parts[p]).job.running with
  | none => s
  | some r =>
    match r.what with
    | .recovery t =>
      let s := s.advance (r.clockOf cycles)
      (s.applyTask p t).endRun p cycles id
    | .tenant t =>
      let s := s.advance (r.clockOf cycles)
      let s := s.finishMoves p
      let s : State := match last with
        | some e => s.traceAt p cycles t.id 2 e.cluster e.core e.bundle e.code
        | none => s
      let e16 := (r.drawn (s.parts[p]).stacks cycles) / 1000
      let s := s.modPart p (fun q => { q with acct := q.acct.addRun t.program (e16, cycles) })
      let code := (last.map Finished.code).getD 0
      s.endRun p cycles (fun t => { t with st := .ended, status := .ok, code := code })

/-- TASK_END (R162): the last core has executed ctl.end and its last move is complete. A task that has faulted ends by its fault, also where the
tick of its stop is still ahead (R167). -/
def execTaskEnd (p : Fin 16) (s : State) : Host.Outcome State Fault Refusal :=
  .next (
    match (s.parts[p]).job.running, s.naturalEnd p with
    | some r, some (t, last) =>
      if r.stopped t || r.stop.any (fun x => !x.cancel) then s else s.completeRun p t last
    | _, _ => s)

/-- The task ends with the status and fault words of its stop (R163, R166). -/
def Task.stopWith (t : Task) (x : Stop) : Task :=
  { t with
    st := if x.cancel then .cancelled else .ended
    status := x.status, fault := x.fault, faultCluster := x.cluster, faultCore := x.core, faultBundle := x.bundle
    faultAddr := x.addr }

/-- A running task stops (R164, R167). A recovery task that a defect stops tears its round (R64). -/
def State.stopRun (s : State) (p : Fin 16) (x : Stop) : State :=
  match (s.parts[p]).job.running with
  | none => s
  | some r =>
    let s := s.advance (r.clockOf x.atCycle)
    let s := s.stopEngines p x.atCycle
    let s : State := match r.what with
      | .tenant t =>
        if x.cancel then s else s.traceAt p x.atCycle t.id 3 x.cluster x.core x.bundle x.fault
      | .recovery t => if x.fault = 6 then s.endRound p t.tag (.torn 4) else s
    s.endRun p x.atCycle (fun t => t.stopWith x)

/-- TASK_CANCEL_STOP (R164). -/
def execTaskCancelStop (p : Fin 16) (s : State) : Host.Outcome State Fault Refusal :=
  .next (
    match (s.parts[p]).job.running with
    | some r =>
      match r.stop with
      | some x => if x.cancel then s.stopRun p x else s
      | none => s
    | none => s)

/-- TASK_FAULT_STOP (R167). -/
def execTaskFaultStop (p : Fin 16) (s : State) : Host.Outcome State Fault Refusal :=
  .next (
    match (s.parts[p]).job.running with
    | some r =>
      match r.stop with
      | some x => if x.cancel then s else s.stopRun p x
      | none => s
    | none => s)

/-- TASK_CYCLE_LIMIT (R159, R166): the task reaches MAX_CYCLES before it ends or is stopped. -/
def execTaskCycleLimit (p : Fin 16) (s : State) : Host.Outcome State Fault Refusal :=
  .next (
    match (s.parts[p]).job.running with
    | some r =>
      match r.limit with
      | some n =>
        if r.stop.any (fun x => x.atCycle ≤ n) || (s.naturalEnd p).any (fun e => e.1 < n) then s
        else s.stopRun p ⟨r.tickAt n, false, .badState, 5, 0, 0, 0, 0⟩
      | none => s
    | none => s)

/-! ## Dispatch (R123, R161, R455) -/

/-- Place an INIT section into the stores of the cores and clusters it names (R151). -/
def State.placeInit (s : State) (p : Fin 16) (body : List Byte) (x : Section) : State :=
  let q := s.parts[p]
  let d := x.data body
  if x.ty = 3 then
    q.coreList.foldl (fun s e =>
      if x.covers (q.rankOf e.1) e.2.val then s.modCore e.1 e.2 (fun k => { k with loc := k.loc.writeN x.target d }) else s) s
  else if x.ty = 4 then
    q.clusterFins.foldl (fun s c =>
      if x.cluster = q.rankOf c ∨ x.cluster = 0xFF then s.modCluster c (fun k => { k with shared := k.shared.writeN x.target d })
      else s) s
  else s

/-- The scalar registers at task start (R123). -/
def startRegs (args : List W64) (width order : Nat) : List W64 :=
  List.replicate 22 0 ++ (List.range 8).map (fun i => word args i) ++ [w64 width, w64 order]

/-- The slot map of an image: for each stack rank 64 owners (R141). -/
def slotMap (clusters : Nat) (data : List Byte) : List (List Nat) :=
  (List.range clusters).map (fun s => (List.range 64).map (fun n => leAt data (128 * s + 2 * n) 2))

/-- Steps 2 and 3 of R161: the stores are clear, and code, INIT data and registers are in place. Answers the slot map. -/
def State.prepare (s : State) (p : Fin 16) (x : Program) (t : Task) : List (List Nat) × State :=
  let img := s.dramAt p x.addr x.length
  let h := img.take 64
  let body := img.drop 64
  let tab := readTable h body
  let q := s.parts[p]
  let s := s.clearStores p
  let s := q.coreList.foldl (fun s e =>
    let r := q.rankOf e.1
    match codeOf tab r e.2.val with
    | c :: _ =>
      s.modCore e.1 e.2 (fun k =>
        { k with active := true, code := Mem.writeN [] 0 (c.data body), a := startRegs t.args q.stacks (r * 8 + e.2.val) })
    | [] => s) s
  let s := tab.foldl (fun s y => s.placeInit p body y) s
  (((tab.find? (fun y => y.ty == 2)).map (fun y => slotMap (imgClusters h) (y.data body))).getD [], s)

/-- How long a task boundary's switch takes: at most 20 µs (R161), taken as 20 µs. -/
def switchUnits : Nat := 20 * us

/-- The first program-frame start of a partition at or after a moment: frames of 27 device ticks follow one another from the release of the tick
dividers (R21, R25). -/
def State.programFrameFrom (s : State) (p : Fin 16) (t : Nat) : Nat :=
  s.islandClock p (ceilDiv (s.islandCycles p (t + s.islandCycle p - 1)) frameCycles * frameCycles)

/-- The clusters of a partition run at a P-state from now on. A change releases their tick dividers together (R25). -/
def State.setPstate (s : State) (p : Fin 16) (f : Nat) : State :=
  if (s.parts[p]).acct.curP = f then s
  else ((s.modPart p (fun q => { q with acct := { q.acct with curP := f } })).releaseTicks p).rebaseSeeds p (s.islandCycle p)

/-- The chosen task leaves its cassette and is prepared, to run from the next program-frame start on (R161, R457), or it ends with
PARAM_MISMATCH where k exceeds its image's FOLD_K (R160). -/
def State.dispatch (s : State) (p : Fin 16) (i : Nat) (x : Cassette) (f : Nat) : State :=
  let s := s.modJob p (fun j => { j with cassettes := j.cassettes.take i ++ j.cassettes.drop (i + 1) })
  let s := (s.modPart p (fun q => { q with foldK := q.foldKNext })).bindingsEval
  let run (s : State) (what : Cassette) (k : Nat) (slots : List (List Nat)) : State :=
    let s := (s.setPstate p f).clearPorts p
    let r : Running := ⟨what, s.programFrameFrom p (s.clock + switchUnits), 0, s.halfClock, f, k, slots, 0, none, 0, 0, []⟩
    s.modJob p (fun j => { j with running := some r })
  let s : State := match x with
    | .recovery t => run (s.clearStores p) (.recovery t) (s.parts[p]).foldK []
    | .tenant t =>
      match Table.get? (s.parts[p]).job.resident t.program.toNat with
      | none => s
      | some y =>
        if (s.parts[p]).foldK > y.foldK then s.taskOver p { t with st := .ended, status := .paramMismatch }
        else
          let (slots, s) := s.prepare p y t
          (run s (.tenant t) y.foldK slots).traceAt p 0 t.id 1 0 0 0 0
  s.fillCassettes p 5

/-- The partition may dispatch now: it is ACTIVE and runs nothing, and no hold, nor the period after one, stops it (R463,
R464). -/
def State.mayDispatch (s : State) (p : Fin 16) : Bool :=
  (s.parts[p]).st = .active && (s.parts[p]).job.running.isNone && s.power.hold.isNone && s.power.resumeAfter.isNone

/-- The first eligible task of the cassettes is dispatched (R455 to R457). -/
def State.tryDispatch (s : State) (p : Fin 16) : State :=
  if !s.mayDispatch p then s
  else
    let s := s.fillCassettes p 5
    match (s.parts[p]).choose s.clock with
    | some (i, x, f) => s.dispatch p i x f
    | none => s

/-- TASK_DISPATCH (R455 to R457). -/
def execTaskDispatch (p : Fin 16) (s : State) : Host.Outcome State Fault Refusal := .next (s.tryDispatch p)

/-! ## Commands on tasks (R159, R160, R163, R164) -/

/-- RUN_TASK (R159, R160). -/
def handleRunTask : Handler := fun ch r s =>
  let p := chanPart ch
  let w := r.payload
  let argc := bits (word w 1) 35 32
  let j := (s.parts[p]).job
  if nonZero (word w 1) 63 36 then .refuse .badParam
  else if argc > 8 then .refuse .badParam
  else if !Table.has j.resident (word w 0).toNat || w.length != 2 + argc then .refuse .badParam
  else if j.queue.length ≥ 64 then .refuse .tableFull
  else
    let t : Task :=
      { id := j.nextTask, program := word w 0, args := w.drop 2, maxCycles := bits (word w 1) 31 0, st := .queued, status := .ok
        code := 0, cycles := 0, external := 0, energy := 0, fault := 0, faultCluster := 0, faultCore := 0, faultBundle := 0
        faultAddr := 0, entered := 0 }
    let s := s.modJob p (fun j => { j with nextTask := (j.nextTask + 1) % 65536, queue := j.queue ++ [t] })
    .done .accepted [w64 t.id] (s.fillCassettes p 5)

/-- RUN_TASK. -/
def execRunTask (ch : Fin 17) (c : Cmd) (s : State) : Host.Outcome State Fault Refusal :=
  .next (s.submit handleRunTask 0x0502 ch c)

/-- The tasks that are known (R163), the dispatched one with its figures so far: it is RUNNING from its task cycle 0 on (R161). -/
def State.tasks (s : State) (p : Fin 16) : List Task :=
  let j := (s.parts[p]).job
  let live := (j.running.bind (fun r => r.what.task?.map (fun t =>
    { t with
      st := if (s.taskCycle p).isSome then .running else .cassette
      cycles := (s.taskCycle p).getD 0, external := s.externalCycles p, energy := r.charged }))).toList
  live ++ j.cassettes.filterMap Cassette.task? ++ j.queue ++ j.known.reverse

/-- T0 to T5 (R163). -/
def Task.words (t : Task) : List W64 :=
  [w64 (t.status.code * 2 ^ 48 + t.code * 2 ^ 40 + t.st.code * 2 ^ 32 + t.id), w64 t.cycles, w64 t.external, w64 t.energy,
   w64 (t.fault * 2 ^ 56 + t.faultCluster * 2 ^ 51 + t.faultCore * 2 ^ 48 + t.faultBundle * 2 ^ 35), w64 t.faultAddr]

/-- TASK_STATUS (R163). -/
def handleTaskStatus : Handler := fun ch r s =>
  let w := word r.payload 0
  if nonZero w 63 16 then .refuse .badParam
  else
    match (s.tasks (chanPart ch)).find? (fun t => t.id == bits w 15 0) with
    | some t => .done .ok t.words s
    | none => .refuse .badParam

/-- TASK_STATUS. -/
def execTaskStatus (ch : Fin 17) (c : Cmd) (s : State) : Host.Outcome State Fault Refusal :=
  .next (s.submit handleTaskStatus 0x0503 ch c)

/-- Remove a task that waits: it ends CANCELLED (R164). One that is being prepared has not reached its task cycle 0, and goes with a
boundary (R161). -/
def State.cancelWaiting (s : State) (p : Fin 16) (t : Task) (st : Status) : State :=
  let s := if (s.parts[p]).job.running.any (fun r => r.what.task?.any (fun y => y.id == t.id)) then s.boundary p else s
  let keep (x : Cassette) : Bool := x.task?.all (fun y => y.id != t.id)
  let s := s.modJob p (fun j => { j with queue := j.queue.filter (fun y => y.id != t.id), cassettes := j.cassettes.filter keep })
  (s.taskOver p { t with st := .cancelled, status := st }).fillCassettes p 5

/-- Mark the running task to stop at the next program-frame start (R164): cycle 0 where it has not begun. -/
def State.cancelRunning (s : State) (p : Fin 16) (st : Status) : State :=
  s.noteStop p (fun _ => ⟨((s.taskCycle p).map nextProgramFrame).getD 0, true, st, 0, 0, 0, 0, 0⟩)

/-- CANCEL_TASK (R164). An ID that is not known is refused with BAD_PARAM, as TASK_STATUS refuses it, and a second CANCEL_TASK of a task whose stop is
still to come is answered OK (DESIGN CHOICE: R164 names neither case; log 147). -/
def handleCancelTask : Handler := fun ch r s =>
  let p := chanPart ch
  let w := word r.payload 0
  if nonZero w 63 16 then .refuse .badParam
  else
    match (s.tasks p).find? (fun t => t.id == bits w 15 0) with
    | some t =>
      match t.st with
      | .queued => .done .ok [] (s.cancelWaiting p t .ok)
      | .cassette => .done .ok [] (s.cancelWaiting p t .ok)
      | .running => .done .ok [] (s.cancelRunning p .ok)
      | .ended => .refuse .badState
      | .cancelled => .refuse .badState
    | none => .refuse .badParam

/-- CANCEL_TASK. -/
def execCancelTask (ch : Fin 17) (c : Cmd) (s : State) : Host.Outcome State Fault Refusal :=
  .next (s.submit handleCancelTask 0x0504 ch c)

/-! ## A defect of a site (R29, R64, R166, R491) -/

/-- A site's stack holds pages of the round's accumulators, bitmap region or seed table (R64). -/
def Partition.roundOnStack (q : Partition) (r : Round) (rank : Nat) : Bool :=
  q.stackMeets rank r.bitmapAddr (r.clients * r.bitmapStride)
    || (q.roundWindows r).any (fun w => (List.range w.vecChunks).any (fun j => (w.chunkAddr j / 4096) % q.stacks == rank))
    || r.recovery.any (fun k => q.stackMeets rank k.seedTable r.seedTableSize)

/-- The rounds of a partition that lose a stack are torn with cause 4 (R64). -/
def State.tearRounds (s : State) (p : Fin 16) (rank : Nat) : State :=
  let q := s.parts[p]
  (q.rnd.rounds.filter (fun r => q.roundOnStack r rank)).foldl (fun s r => s.endRound p r.tag (.torn 4)) s

/-- The task ID of a running tenant task, for the log; 0 where none runs or a recovery task does (DESIGN CHOICE: the manual gives a SITE_FAULT record
no other value; log 148). -/
def Partition.taskNow (q : Partition) : Nat := ((q.job.running.bind (fun r => r.what.task?)).map Task.id).getD 0

/-- SITE_DEFECT_DETECTED (R29, R64, R166, R356): a defect of a site behind a logical cluster. It is logged, the site waits for
retirement at the next boot, the running task of the cluster's partition ends with DEVICE_FAULT, rounds on its stack are
torn, and every ACTIVE partition is told. Between a task's dispatch and its task cycle 0 it lets the task begin and stops it at the first tick after
cycle 0 (DESIGN CHOICE: R167 stops a task at the next device tick and a task being prepared counts none; log 147). -/
def execSiteDefectDetected (site : Fin 36) (s : State) : Host.Outcome State Fault Refusal :=
  .next (
    match leastBelow 32 (fun c => s.nvm.siteMap.getD c 36 == site.val) with
    | none => s
    | some c =>
      match s.ownerOf c with
      | none => s
      | some p =>
        let q := s.parts[p]
        let s := s.log 0x0103 1 [w64 (q.taskNow * 2 ^ 32 + p.val * 2 ^ 16 + c * 2 ^ 8 + site.val)]
        let s := { s with nvm := { s.nvm with
          pendingRetire := s.nvm.pendingRetire.filter (fun x => x != site.val) ++ [site.val] } }
        let t := (s.taskCycle p).getD 0
        let s := s.noteStop p (fun r => ⟨r.tickAfter t, false, .deviceFault, 6, c, 0, 0, 0⟩)
        (s.tearRounds p (q.rankOf (Fin.ofNat 32 c))).postAll 0x0560 .deviceFault [w64 1])

end Sys2Proof.Machine
end

