-- ==== Sys2Proof/Machine/Partitions.lean ====
section
/-! DEFINITION. Partitions (R342 to R353): CREATE_PARTITION and its end, QUERY_PARTITION, DESTROY_PARTITION and its end. -/

namespace Sys2Proof.Machine

open Sys2Proof.Machine.Crypto

/-! ## Resources of a creation (R349) -/

/-- The partitions that exist, other than `p`. -/
def State.others (s : State) (p : Fin 16) : List Partition :=
  ((allParts.filter (fun q => q != p)).map (fun q => s.parts[q])).filter Partition.exists'

/-- A sum over the partitions that exist. -/
def sumOf (l : List Partition) (f : Partition → Nat) : Nat := (l.map f).foldl (· + ·) 0

/-- The lowest 802.1Q priority that no other partition holds on any link of the mask (R349). -/
def freePriority (others : List Partition) (mask : Nat) : Option Nat :=
  leastBelow 8 (fun v => !others.any (fun q => q.shared && q.linkMask &&& mask != 0 && q.prio == v))

/-- Links of the mask that may not be taken (R349). -/
def State.linkConflict (s : State) (others : List Partition) (mask : Nat) (shared : Bool) : Bool :=
  (maskList 24 mask).any (fun l =>
    let mode := (s.links[Fin.ofNat 24 l]).mode
    let users := others.filter (fun q => q.linkMask.testBit l)
    mode == 0 || mode == 3 || if shared then users.any (fun q => !q.shared) || users.length ≥ 8 else !users.isEmpty)

/-- The lowest-numbered active bank that no partition owns and that is sound (R292, R305). -/
def State.freeBank (s : State) : Option (Fin 18) :=
  (List.finRange 18).find? (fun b => (s.banks[b]).role = .unallocated && (s.banks[b]).stateCode != 4)

/-- The owner of a ledger bank in the ownership map (R345). -/
def State.ledgerOwner (s : State) (b : Nat) : Option (Fin 16) := allParts.find? (fun p => (s.parts[p]).ledger.contains b)

/-- The ledger banks without an owner. -/
def State.freeLedger (s : State) : List Nat := (List.range 32).filter (fun b => (s.ledgerOwner b).isNone)

/-- The checks of CREATE_PARTITION after R426: reserved fields and ranges (R348), then R349 in order, entropy apart. -/
def checkCreatePartition (s : State) (w : List W64) : Option Status :=
  let p0 := word w 0
  let p1 := word w 1
  let p2 := word w 2
  let p := pid (bits p0 3 0)
  let mask := bits p1 55 32
  let shared := bitAt p1 56
  let oth := s.others p
  if nonZero p0 63 53 || nonZero p0 31 22 || nonZero p0 15 4 || nonZero p1 63 57 || nonZero p1 31 25 || nonZero p1 15 0
      || nonZero p2 63 41 || nonZero p2 31 7 then some .badParam
  else if bits p0 52 48 > 24 || bits p0 47 32 = 0 || bits p0 21 16 > 32 || mask = 0 || bits p1 24 16 = 0
      || bits p1 24 16 > 264 || bits p2 40 32 = 0 || bits p2 40 32 > 256 || bits p2 6 0 = 0 || bits p2 6 0 > 64
      || (readPoint (wordsToBytesBE w)).isNone then some .badParam
  else if (s.parts[p]).st != .absent then some .badState
  else if oth.any (fun q => q.pairMask &&& bits p0 47 32 != 0) || bits p0 21 16 > s.freeLedger.length
      || s.freeBank.isNone then some .noResource
  else if s.linkConflict oth mask shared || (shared && (freePriority oth mask).isNone) then some .noResource
  else if sumOf oth Partition.qpQuota + bits p2 40 32 > 256 || sumOf oth Partition.ctxShare + bits p2 6 0 > 64
      || s.unitsHeld + bits p1 24 16 > s.poolUnits then some .noResource
  else none
where
  /-- OWNER_PUB of the payload as its 96 bytes in wire order (R348). -/
  wordsToBytesBE (w : List W64) : List Byte := wordsToBytes (w.drop 3)

/-- The personalisation string of a DRBG instance (R307). -/
def personalisation (p inst creation : Nat) : List Byte := leBytes 2 p ++ [byte inst] ++ leBytes 8 creation

/-- The part of a VF's channel that a creation starts afresh: its buffers, ESEQ, the sequence and the counts (R425, R444, R446). CMD_LOST stays
until FLUSH, and EMPTY and DROPPED until they are read (R413, R415). -/
def Channel.starting (c : Channel) : Channel :=
  { c with
    partialCmd := [], waiting := [], held := none, asyncs := [], unplaced := [], replies := [], events := [], eseq := 0
    seqExpect := 0, chain := none, counts := List.replicate 32 0 }

/-- Steps 1 and 2 of R350: the creation number, the key instance and key A, the ownership map, with the lowest free ledger banks (DESIGN
CHOICE: the manual does not say which). -/
def State.beginCreation (s : State) (b : Fin 18) (w : List W64) : State :=
  let p0 := word w 0
  let p1 := word w 1
  let p := pid (bits p0 3 0)
  let n := s.nvm.creations + 1
  let prio := if bitAt p1 56 then (freePriority (s.others p) (bits p1 55 32)).getD 0 else 0
  let banks := s.freeLedger.take (bits p0 21 16)
  let old := s
  let s := { s with nvm := { s.nvm with creations := n } }
  let (e, s) := s.bankWords b 6
  let s := s.modBank b (fun k => { k with role := .owned p.val })
  let s := s.modPart p (fun _ =>
    { Partition.absent with
      st := .creating, p0 := p0, p1 := p1, p2 := word w 2, ownerPub := wordsToBytes (w.drop 3), creation := n
      foldK := bits p0 52 48, foldKNext := bits p0 52 48, prio := prio, ledger := banks, phaseAt := s.clock
      acct := { Account.empty with units := bits p1 24 16 }
      keyDrbg := Drbg.instantiate e (personalisation p.val 0xFF n) })
  let (k, s) := s.partDraw p 64
  let s := (s.clearKeys (partSlot p 0) (partSlot p 240)).placeKey (partSlot p 1) 8 k 0 0 2
  State.noteCredit (old.credits (vf p)) (State.noteStates old (s.modChan (vf p) Channel.starting)) (vf p)

/-- CREATE_PARTITION (R348 to R350). A PF command draws through the device pool (R301), and the key instance takes its seed
from the partition's own bank (R307): the command is held until both have 384 bits. -/
def handleCreatePartition : Handler := fun _ r s =>
  match checkCreatePartition s r.payload, s.freeBank with
  | some st, _ => .refuse st
  | none, none => .refuse .noResource
  | none, some b =>
    match s.entropy 0, (s.banks[b]).entropy with
    | .ready, .ready => .hold (.creation (bits (word r.payload 0) 3 0)) (s.beginCreation b r.payload)
    | .failed, _ => .refuse .rngFailed
    | _, .failed => .refuse .rngFailed
    | _, _ => .hold .entropy s

/-- CREATE_PARTITION. -/
def execCreatePartition (ch : Fin 17) (c : Cmd) (s : State) : Host.Outcome State Fault Refusal :=
  .next (s.submit handleCreatePartition 0x0201 ch c)

/-- Instantiate the DRBG of each cluster of a partition from 384 bits of its bank (R307). -/
def State.seedClusters (s : State) (p : Fin 16) (b : Fin 18) : List Nat → State
  | [] => s
  | c :: cs =>
    let (e, s) := s.bankWords b 6
    (s.modCluster (Fin.ofNat 32 c) (fun x =>
      { x with drbg := Drbg.instantiate e (personalisation p.val c (s.parts[p]).creation), reseedBuf := [] })).seedClusters
      p b cs

/-- The duration of a scrub: 8,739 stack frames (R350, R353). -/
def scrubUnits : Nat := 8739 * frameUnits

/-- The reply words of an accepted CREATE_PARTITION (R350). -/
def Partition.createReply (q : Partition) : List W64 :=
  [w64 q.creation, w64 q.stacks, if q.shared then w64 (q.linkMask + q.prio * 2 ^ 24) else 0]

/-- PARTITION_CREATION_DONE (R350 steps 3 to 5), answered in the next turn of the PF (R518). The tick dividers of the clusters are released as the
partition becomes ACTIVE (R25; DESIGN CHOICE: "when the partition is created" names no step). Every page is zero under key A at epoch 0, the cluster DRBGs are
instantiated, record 0 and the kickstand record are written, the VF opens and the PF is answered. Without the words its
cluster DRBGs need, the creation has not ended. -/
def execPartitionCreationDone (p : Fin 16) (s : State) : Host.Outcome State Fault Refusal :=
  .next (
    let q := s.parts[p]
    match s.bankOf p with
    | none => s
    | some b =>
      if q.st != .creating || (s.banks[b]).own < 6 * q.stacks then s
      else
        let old := s
        let s := (s.advance (q.phaseAt + scrubUnits)).seedClusters p b q.clusterList
        let s := s.modPart p (fun q =>
          { q with
            st := .active, dram := [], mem := ⟨false, List.replicate q.stacks [], none, 0⟩
            acct := { q.acct with balance := q.acct.cap } })
        let s := (s.releaseTicks p).attest p 1 (sha384 q.ownerPub)
        let s := s.log 0x0401 4 [w64 (p.val + q.pairMask * 2 ^ 16), w64 q.creation]
        let s := State.noteStates old s.bindingsEval
        match (s.chans[(0 : Fin 17)]).held with
        | some h => if h.why = .creation p.val then s.finishHeld 0 .ok q.createReply else s
        | none => s)

/-! ## QUERY_PARTITION (R351, R352) -/

/-- The DESCRIBE words (R352). -/
def State.describe (s : State) (p : Fin 16) : List W64 :=
  let q := s.parts[p]
  let st := match q.st with
    | .absent => 0 | .creating => 1 | .active => 2 | .destroying => 3
  [w64 (q.foldKNext * 2 ^ 56 + q.foldK * 2 ^ 48 + q.pairMask * 2 ^ 32 + st * 2 ^ 28 + q.ledgerBanks * 2 ^ 16 + p.val),
   setBits q.p1 24 16 q.acct.units, q.p2, w64 q.creation,
   w64 (s.residentCount p * 2 ^ 24 + s.roundsOpen p * 2 ^ 16 + b2n q.debugOn * 2 ^ 9 + b2n q.mirrorOn * 2 ^ 8
     + s.allowCount p)] ++ bytesToWords 6 (sha384 q.ownerPub)

/-- QUERY_PARTITION DESCRIBE (R351): one's own partition on a VF, any on the PF, and it must be ACTIVE. -/
def handleDescribe : Handler := fun ch r s =>
  let w := word r.payload 0
  let p := pid (bits w 3 0)
  if nonZero w 63 53 || nonZero w 52 48 || nonZero w 47 18 || nonZero w 15 4 then .refuse .badParam
  else if ch != 0 && p != chanPart ch then .refuse .wrongPartition
  else if (s.parts[p]).st != .active then .refuse .badState
  else .done .ok (s.describe p) s

/-- The checks of SET_FOLD_K (R351). -/
def checkSetFoldK (s : State) (ch : Fin 17) (r : Req) : Option Status :=
  let w := word r.payload 0
  let p := pid (bits w 3 0)
  if ch = 0 || !r.sealed || p != chanPart ch then some .notPermitted
  else if nonZero w 63 53 || nonZero w 47 18 || nonZero w 15 4 then some .badParam
  else if bits w 52 48 > 24 then some .badParam
  else if s.roundsOpen p != 0 then some .badState
  else if bits w 52 48 = 0 && (s.netHolds p || s.boundByTandem p) then some .badState
  else none

/-- QUERY_PARTITION SET_FOLD_K (R351): the new k waits for the next task boundary, or applies at once when no task runs. -/
def handleSetFoldK : Handler := fun ch r s =>
  match checkSetFoldK s ch r with
  | some st => .refuse st
  | none =>
    let k := bits (word r.payload 0) 52 48
    let p := chanPart ch
    .done .ok [] (s.modPart p (fun q => { q with foldKNext := k, foldK := if s.taskRunning p then q.foldK else k })).bindingsEval

/-- QUERY_PARTITION by its OP field; other values are reserved (R7). -/
def handleQueryPartition : Handler := fun ch r s =>
  match bits (word r.payload 0) 17 16 with
  | 0 => handleDescribe ch r s
  | 1 => handleSetFoldK ch r s
  | _ => .refuse .badParam

/-- QUERY_PARTITION_DESCRIBE. -/
def execQueryPartitionDescribe (ch : Fin 17) (c : Cmd) (s : State) : Host.Outcome State Fault Refusal :=
  .next (s.submit handleQueryPartition 0x0203 ch (cmdSel c 0 17 16 0))

/-- QUERY_PARTITION_SET_FOLD_K. -/
def execQueryPartitionSetFoldK (ch : Fin 17) (c : Cmd) (s : State) : Host.Outcome State Fault Refusal :=
  .next (s.submit handleQueryPartition 0x0203 ch (cmdSel c 0 17 16 1))

/-! ## DESTROY_PARTITION (R353) -/

/-- Steps 1 and 2 of R353: no work of the partition goes on, its events are discarded. -/
def State.stopPartition (s : State) (p : Fin 16) : State :=
  let old := s
  let s := s.modPart p (fun q => { q with st := .destroying, phaseAt := s.clock })
  let s := (((s.netDestroy p).dropTasks p).abortRounds p 3).zeroTickets p
  let s := s.modPart p (fun q => { q with mirrorOn := false, debugOn := false, mem := { q.mem with sweep := none } })
  (State.noteStates old s.bindingsEval).answerReset p

/-- Steps 1 and 2 of R353, and what the partition's VF still owes. -/
def State.beginDestruction (s : State) (p : Fin 16) : State := (s.stopPartition p).answerOwed (vf p)

/-- The checks of DESTROY_PARTITION (R353). -/
def checkDestroyPartition (s : State) (ch : Fin 17) (r : Req) : Option Status :=
  let w := word r.payload 0
  let p := pid (bits w 3 0)
  if nonZero w 63 4 then some .badParam
  else if ch != 0 && p != chanPart ch then some .wrongPartition
  else if (s.parts[p]).st != .active then some .badState
  else none

/-- DESTROY_PARTITION: accepted, it is answered when the destruction completes. -/
def handleDestroyPartition : Handler := fun ch r s =>
  match checkDestroyPartition s ch r with
  | some st => .refuse st
  | none =>
    let p := pid (bits (word r.payload 0) 3 0)
    .hold (.destruction p.val) (s.beginDestruction p)

/-- DESTROY_PARTITION. -/
def execDestroyPartition (ch : Fin 17) (c : Cmd) (s : State) : Host.Outcome State Fault Refusal :=
  .next (s.submit handleDestroyPartition 0x0202 ch c)

/-- Answer whichever channel waits for the destruction of a partition (R353). -/
def State.answerDestruction (s : State) (p : Fin 16) (ch : Fin 17) : State :=
  match (s.chans[ch]).held with
  | some h => if h.why = .destruction p.val then s.finishHeld ch .ok [] else s
  | none => s

/-- Step 5 of R353: nothing of the partition remains, and everything it held is free. A DESTROY_PARTITION that its own VF sent is answered
before the commands behind it (R428), and all of them before the channel closes. -/
def State.endDestruction (s : State) (p : Fin 16) (warm : Bool) : State :=
  let q := s.parts[p]
  let s := (s.clearClusters p).answerDestruction p (vf p)
  let s := s.refuseWaiting (vf p) (s.chans[vf p]).waiting
  let s := s.clearKeys (partSlot p 0) (partSlot p 240)
  let s : State := match s.bankOf p with
    | some b => s.modBank b (fun k => { k with role := .unallocated })
    | none => s
  let s := s.modPart p (fun _ => Partition.absent)
  s.log 0x0402 4 [w64 (p.val + b2n warm * 2 ^ 4 + q.pairMask * 2 ^ 16), w64 q.creation]

/-- ZEROISE once every partition is ABSENT (R317 steps 2 to 5). -/
def State.zeroiseIfReady (s : State) : State :=
  match (s.chans[(0 : Fin 17)]).held with
  | some h =>
    if h.why = .zeroise && allParts.all (fun p => (s.parts[p]).st = .absent) then
      let s := { s with pannier := [] }.dropAllLinks
      let s := (s.modChan 0 (fun c => { c with seqExpect := 0 })).deriveIdentity
      (s.log 0x0301 3 []).finishHeld 0 .ok []
    else s
  | none => s

/-- PARTITION_DESTRUCTION_DONE (R353 steps 3 to 5). -/
def execPartitionDestructionDone (p : Fin 16) (s : State) : Host.Outcome State Fault Refusal :=
  .next (
    let q := s.parts[p]
    if q.st != .destroying then s
    else
      let old := s
      let s := (s.advance (q.phaseAt + scrubUnits)).endDestruction p false
      (State.noteStates old (s.answerDestruction p 0).bindingsEval).zeroiseIfReady)

end Sys2Proof.Machine
end

