-- ==== Sys2Proof/Machine/Keys.lean ====
section
/-! DEFINITION. Keys and attestation (R311 to R336, R340, R341): KEY_GENERATE, KEY_ATTEST, KEY_ROTATE, KEY_DESTROY,
SET_REMASK and re-masking, OPEN_SESSION, the memory-key sweep, weights bundles, and DEBUG_UNLOCK. -/

namespace Sys2Proof.Machine

open Sys2Proof.Machine.Crypto

/-! ## Generating keys (R314 to R316) -/

/-- A fresh key of a kind a tenant may generate, drawn for a channel (R314). -/
def State.genKey (s : State) (ch : Fin 17) (kind : Nat) : List Byte × State :=
  match kind with
  | 3 =>
    let (b, s) := s.chanDraw ch 32
    (leBytes 32 (clamp b), s)
  | 4 => s.chanDraw ch 32
  | 5 => s.chanDraw ch 48
  | _ =>
    let (b, s) := s.chanDraw ch 56
    (beBytes 48 (scalarOf b), s)

/-- The public part of a key as 96 bytes (R316): zeros for symmetric kinds. -/
def publicPart (kind : Nat) (key : List Byte) : List Byte :=
  match kind with
  | 1 => p384Pub (beNat key)
  | 2 => p384Pub (beNat key)
  | 3 => padTo 96 (x25519Pub key)
  | _ => zeros 96

/-- A POLICY that R315 and R316 refuse for a kind. -/
def policyBad (kind pol : Nat) : Bool :=
  let w := w64 pol
  nonZero w 31 10 || nonZero w 7 3 || bits w 9 8 == 3
    || (bitAt w 2 && !(kind == 2 || kind == 3))
    || (bitAt w 1 && !(kind == 1 || kind == 5))
    || (bitAt w 0 && !(kind == 4 || kind == 2 || kind == 3))

/-- Slots of the pannier that run at 10 ms (R313). -/
def State.fastSlots (s : State) : Nat := (s.pannier.filter (fun e => e.2.period == 1)).length

/-- The lowest free tenant slot of a partition (R316). -/
def State.freeSlot (s : State) (p : Fin 16) : Option Nat :=
  findFrom (fun i => !Table.has s.pannier (partSlot p i)) 224 16

/-- The local slot a KEY_GENERATE names. -/
def State.chosenSlot (s : State) (p : Fin 16) (slot : Nat) : Option Nat := if slot = 0xFFFF then s.freeSlot p else some slot

/-- The checks of KEY_GENERATE (R316), entropy apart. -/
def checkKeyGenerate (s : State) (ch : Fin 17) (w : W64) : Option Status :=
  let kind := bits w 55 48
  let slot := bits w 47 32
  let pol := bits w 31 0
  let p := chanPart ch
  if nonZero w 63 56 then some .badParam
  else if kind < 1 || kind > 5 || policyBad kind pol || !(slot == 0xFFFF || (16 ≤ slot && slot ≤ 239)) then some .badParam
  else if slot != 0xFFFF && Table.has s.pannier (partSlot p slot) then some .badState
  else if (s.chosenSlot p slot).isNone then some .tableFull
  else if bits (w64 pol) 9 8 = 1 && s.fastSlots ≥ 256 then some .tableFull
  else none

/-- The VALUE of a KEY_GENERATED or KEY_DESTROYED record (R322). -/
def keyRecord (serial kind loc pol : Nat) : List Byte :=
  leBytes 8 serial ++ [byte kind] ++ leBytes 2 loc ++ [0] ++ leBytes 4 pol

/-- Generate a key into a local slot, with the next SERIAL, and log it (R316): the reply words and the state. -/
def State.installFresh (s : State) (ch : Fin 17) (loc kind pol period : Nat) : List W64 × State :=
  let p := chanPart ch
  let (k, s) := s.genKey ch kind
  let serial := s.nvm.serials + 1
  let s := { s with nvm := { s.nvm with serials := serial } }
  let s := s.placeKey (partSlot p loc) kind k pol serial period
  let s := s.attest p 5 (keyRecord serial kind loc pol)
  ([w64 loc, w64 serial] ++ bytesToWords 12 (publicPart kind k), s)

/-- KEY_GENERATE (R316). -/
def handleKeyGenerate : Handler := fun ch r s =>
  let w := word r.payload 0
  match checkKeyGenerate s ch w, s.chosenSlot (chanPart ch) (bits w 47 32) with
  | some st, _ => .refuse st
  | none, none => .refuse .tableFull
  | none, some loc =>
    withEntropy ch s (fun s =>
      let pol := bits w 31 0
      let (ws, s) := s.installFresh ch loc (bits w 55 48) pol (bits (w64 pol) 9 8)
      .done .ok ws s)

/-- KEY_GENERATE. -/
def execKeyGenerate (ch : Fin 17) (c : Cmd) (s : State) : Host.Outcome State Fault Refusal :=
  .next (s.submit handleKeyGenerate 0x0401 ch c)

/-! ## Destroying keys (R317) -/

/-- The checks of KEY_DESTROY with OP SLOT. -/
def checkKeyDestroySlot (s : State) (ch : Fin 17) (w : W64) : Option Status :=
  let loc := bits w 15 0
  if ch = 0 then some .notPermitted
  else if nonZero w 63 18 then some .badParam
  else if loc < 16 || loc > 239 then some .badParam
  else if !Table.has s.pannier (partSlot (chanPart ch) loc) then some .badState
  else none

/-- Zero a tenant key slot and log it. -/
def State.destroyKey (s : State) (p : Fin 16) (loc : Nat) : State :=
  match Table.get? s.pannier (partSlot p loc) with
  | some k => (s.clearKey (partSlot p loc)).attest p 6 (keyRecord k.serial k.kind loc k.policy)
  | none => s

/-- KEY_DESTROY with OP SLOT: a use under way completes first. -/
def handleKeyDestroySlot : Handler := fun ch r s =>
  let w := word r.payload 0
  match checkKeyDestroySlot s ch w with
  | some st => .refuse st
  | none =>
    let p := chanPart ch
    if s.slotInUse p (bits w 15 0) then .hold (.slotUse (bits w 15 0)) s
    else .done .ok [] (s.destroyKey p (bits w 15 0))

/-- KEY_DESTROY with OP ZEROISE: every ACTIVE partition is destroyed; the rest follows once all are ABSENT (R317). -/
def handleZeroise : Handler := fun ch r s =>
  if ch != 0 then .refuse .notPermitted
  else if nonZero (word r.payload 0) 63 18 || nonZero (word r.payload 0) 15 0 then .refuse .badParam
  else
    let ps := allParts.filter (fun p => (s.parts[p]).st = .active)
    let s := ps.foldl (fun s p => s.answerOwed (vf p)) (ps.foldl State.stopPartition s)
    let s := s.modChan 0 (fun c => { c with held := some ⟨r, .zeroise⟩ })
    .silent s.zeroiseIfReady

/-- KEY_DESTROY by its OP field. -/
def handleKeyDestroy : Handler := fun ch r s =>
  match bits (word r.payload 0) 17 16 with
  | 0 => handleKeyDestroySlot ch r s
  | 1 => handleZeroise ch r s
  | _ => .refuse .badParam

/-- KEY_DESTROY_SLOT. -/
def execKeyDestroySlot (ch : Fin 17) (c : Cmd) (s : State) : Host.Outcome State Fault Refusal :=
  .next (s.submit handleKeyDestroy 0x0404 ch (cmdSel c 0 17 16 0))

/-- KEY_DESTROY_ZEROISE. -/
def execKeyDestroyZeroise (ch : Fin 17) (c : Cmd) (s : State) : Host.Outcome State Fault Refusal :=
  .next (s.submit handleKeyDestroy 0x0404 ch (cmdSel c 0 17 16 1))

/-! ## Re-masking (R313) -/

/-- The checks of SET_REMASK. -/
def checkSetRemask (s : State) (ch : Fin 17) (w : W64) : Option Status :=
  let slot := bits w 11 0
  let per := bits w 17 16
  let at' := if ch = 0 then slot else partSlot (chanPart ch) slot
  if nonZero w 63 18 || nonZero w 15 12 || per = 3 then some .badParam
  else if (if ch = 0 then slot > 255 else slot > 239) || (ch = 0 && slot ≤ 1 && per = 0) then some .badParam
  else
    match Table.get? s.pannier at' with
    | none => some .badState
    | some k => if per = 1 && k.period != 1 && s.fastSlots ≥ 256 then some .tableFull else none

/-- SET_REMASK (R313). -/
def handleSetRemask : Handler := fun ch r s =>
  let w := word r.payload 0
  match checkSetRemask s ch w with
  | some st => .refuse st
  | none =>
    let slot := bits w 11 0
    let per := bits w 17 16
    let f (k : KeySlot) : KeySlot := { k with period := per, remaskAt := s.clock + (remaskUnits per).getD 0 }
    .done .ok [] { s with pannier := Table.modify s.pannier (if ch = 0 then slot else partSlot (chanPart ch) slot) f }

/-- SET_REMASK. -/
def execSetRemask (ch : Fin 17) (c : Cmd) (s : State) : Host.Outcome State Fault Refusal :=
  .next (s.submit handleSetRemask 0x0407 ch c)

/-- The re-mask step: a fresh m′ from the device DRBG replaces the shares with k xor m xor m′ and m xor m′, in the slot and in its
engine copies (R313). -/
def State.remask (s : State) (slot : Nat) (k : KeySlot) (period : Nat) : State :=
  let (m, s) := s.deviceDraw k.shareA.length
  let k' := { k.reshare m with remaskAt := k.remaskAt + period }
  { s with pannier := Table.put s.pannier slot k' }

/-- REMASK_PERIOD: a slot's re-masking period ends, and the RTP re-masks it in its turn for device housekeeping (R313, R344). -/
def execRemaskPeriod (slot : Nat) (s : State) : Host.Outcome State Fault Refusal :=
  .next (
    match Table.get? s.pannier slot with
    | some k =>
      match remaskUnits k.period with
      | some u => ((s.advance k.remaskAt).inHousekeeping).remask slot k u
      | none => s
    | none => s)

/-! ## Statements (R324, R325) -/

/-- The 256 bytes of a statement (R324). -/
def statement (type flags part slot kind pol : Nat) (serial time created : Nat) (nonce pub : List Byte) : List Byte :=
  leBytes 4 0x54414B53 ++ [byte type, 1, byte flags, 0] ++ leBytes 2 part ++ leBytes 2 slot ++ [byte kind, 0, 0, 0]
    ++ leBytes 4 pol ++ zeros 4 ++ leBytes 8 serial ++ leBytes 8 time ++ leBytes 8 created ++ deviceFp
    ++ padTo 32 nonce ++ padTo 96 pub ++ zeros 32

/-- FLAGS of a statement: the device scope unlocked since cold reset, the partition scope on. -/
def State.statementFlags (s : State) (ch : Fin 17) : Nat :=
  b2n s.debugAccess.unlocked + 2 * b2n (ch != 0 && (s.parts[chanPart ch]).debugOn)

/-- The NONCE of a KEY_ATTEST. -/
def attestNonce (w : List W64) : List Byte := wordsToBytes ((w.drop 2).take 4)

/-- A KEY statement of a slot with its signature, as 44 words. -/
def State.keyStatement (s : State) (ch : Fin 17) (slot : Nat) (k : KeySlot) (nonce : List Byte) : List W64 × State :=
  let m := statement 1 (s.statementFlags ch) (if ch = 0 then 0xFFFF else ch.val - 1) slot k.kind k.policy k.serial
    s.nvm.life.seconds k.created nonce (publicPart k.kind k.key)
  let (sig, s) := s.signIdentity m
  (bytesToWords 44 (m ++ sig), s)

/-- KEY_ATTEST with OP KEY (R325). -/
def handleAttestKey : Handler := fun ch r s =>
  let p0 := word r.payload 0
  let slot := bits p0 15 0
  if ch != 0 && !r.sealed then .refuse .notPermitted
  else if nonZero p0 63 18 || (word r.payload 1) != 0 then .refuse .badParam
  else if (if ch = 0 then slot > 1 else slot < 16 || slot > 239) then .refuse .badParam
  else
    match Table.get? s.pannier (if ch = 0 then slot else partSlot (chanPart ch) slot) with
    | none => .refuse .badState
    | some k =>
      let (ws, s) := s.keyStatement ch slot k (attestNonce r.payload)
      .done .ok ws s

/-- The records of an attestation log from SEQ max(FIRST, oldest kept), at most MAX (R325). -/
def AttLog.select (l : AttLog) (first max : Nat) : List (List Byte) := (l.kept.drop (first - (l.count - l.kept.length))).take max

/-- KEY_ATTEST with OP LOG (R325). -/
def handleAttestLog : Handler := fun ch r s =>
  let p0 := word r.payload 0
  let p1 := word r.payload 1
  let l := (s.parts[chanPart ch]).log
  let first := bits p1 31 0
  let max := bits p1 43 32
  if ch != 0 && !r.sealed then .refuse .notPermitted
  else if nonZero p0 63 18 || nonZero p0 15 0 || nonZero p1 63 44 then .refuse .badParam
  else if ch = 0 || max = 0 || max > 1000 || first > l.count then .refuse .badParam
  else
    let m := statement 2 (s.statementFlags ch) (ch.val - 1) 0 0 0 l.count s.nvm.life.seconds 0 (attestNonce r.payload) l.digest
    let (sig, s) := s.signIdentity m
    let rs := l.select first max
    .done .ok (bytesToWords 44 (m ++ sig) ++ [w64 rs.length] ++ bytesToWords (8 * rs.length) rs.flatten) s

/-- KEY_ATTEST by its OP field. -/
def handleKeyAttest : Handler := fun ch r s =>
  match bits (word r.payload 0) 17 16 with
  | 0 => handleAttestKey ch r s
  | 1 => handleAttestLog ch r s
  | _ => if ch != 0 && !r.sealed then .refuse .notPermitted else .refuse .badParam

/-- KEY_ATTEST_KEY. -/
def execKeyAttestKey (ch : Fin 17) (c : Cmd) (s : State) : Host.Outcome State Fault Refusal :=
  .next (s.submit handleKeyAttest 0x0402 ch (cmdSel c 0 17 16 0))

/-- KEY_ATTEST_LOG. -/
def execKeyAttestLog (ch : Fin 17) (c : Cmd) (s : State) : Host.Outcome State Fault Refusal :=
  .next (s.submit handleKeyAttest 0x0402 ch (cmdSel c 0 17 16 1))

/-! ## Sessions (R326, R327) -/

/-- A LOAD_PROGRAM chain is in progress on a channel. -/
def State.loadChain (s : State) (ch : Fin 17) : Bool :=
  match (s.chans[ch]).chain with
  | some k => k.op == 0x0501
  | none => false

/-- What OPEN_SESSION signs and derives from: partition ID, creation number and expected SESSION_NO (R326). -/
def State.sessionIds (s : State) (ch : Fin 17) : Nat × Nat × Nat :=
  if ch = 0 then (0xFFFF, 0, s.nvm.pfSessions)
  else ((chanPart ch).val, (s.parts[chanPart ch]).creation, (s.parts[chanPart ch]).sessions)

/-- The owner key of a channel (R326). -/
def State.ownerKey (s : State) (ch : Fin 17) : List Byte := if ch = 0 then s.adminPub else (s.parts[chanPart ch]).ownerPub

/-- The message that TENANT_SIG signs (R326). -/
def State.sessionMessage (s : State) (ch : Fin 17) (w : List W64) : List Byte :=
  let (id, cr, no) := s.sessionIds ch
  ascii "skv9032 session" ++ leBytes 2 id ++ leBytes 8 cr ++ leBytes 4 no ++ wordsToBytes ((w.drop 1).take 16)

/-- The checks of OPEN_SESSION (R327), entropy apart. -/
def checkOpenSession (s : State) (ch : Fin 17) (w : List W64) : Option Status :=
  let (_, _, no) := s.sessionIds ch
  if nonZero (word w 0) 63 32 || (readPoint (wordsToBytes ((w.drop 1).take 12))).isNone then some .badParam
  else if bits (word w 0) 31 0 != no
      || !ecdsaVerify (s.ownerKey ch) (s.sessionMessage ch w) (wordsToBytes ((w.drop 17).take 12)) then some .authFailed
  else if ch != 0 && (s.roundsOpen (chanPart ch) != 0 || s.ticketsBusy (chanPart ch)) || s.loadChain ch then some .badState
  else none

/-- The steps of an accepted OPEN_SESSION (R327). -/
def State.openSession (s : State) (ch : Fin 17) (w : List W64) : List W64 × State :=
  let (id, _, no) := s.sessionIds ch
  let tenantPub := wordsToBytes ((w.drop 1).take 12)
  let tenantNonce := wordsToBytes ((w.drop 13).take 4)
  let tenantSig := wordsToBytes ((w.drop 17).take 12)
  let ht := sha384 (s.sessionMessage ch w)
  let (d, s) := s.chanDraw ch 56
  let (partNonce, s) := s.chanDraw ch 32
  let e := scalarOf d
  let partPub := p384Pub e
  let key := hkdf sha384Kind (ecdh e tenantPub) (tenantNonce ++ partNonce)
    (ascii "skv9032 session" ++ leBytes 2 id ++ leBytes 4 no) 32
  let s := s.placeKey (sessionSlot ch) 9 key 0 0 2
  let s : State :=
    if ch = 0 then { s with nvm := { s.nvm with pfSessions := s.nvm.pfSessions + 1 } }
    else (s.modPart (chanPart ch) (fun q => { q with sessions := q.sessions + 1 })).attest (chanPart ch) 2 (sha384 tenantPub)
  let s := s.modChan ch (fun c => { c with seqExpect := 0 })
  let (sig, s) := s.signIdentity (ht ++ tenantSig ++ partPub ++ partNonce ++ deviceFp)
  (bytesToWords 12 partPub ++ bytesToWords 4 partNonce ++ bytesToWords 6 deviceFp ++ bytesToWords 12 sig, s)

/-- OPEN_SESSION (R326, R327, R429): it waits until the channel's ASYNC commands have finished. -/
def handleOpenSession : Handler := fun ch r s =>
  if !(s.chans[ch]).asyncs.isEmpty then .hold .retry s
  else
    match checkOpenSession s ch r.payload with
    | some st => .refuse st
    | none =>
      withEntropy ch s (fun s =>
        let (ws, s) := s.openSession ch r.payload
        .done .ok ws s)

/-- OPEN_SESSION. -/
def execOpenSession (ch : Fin 17) (c : Cmd) (s : State) : Host.Outcome State Fault Refusal :=
  .next (s.submit handleOpenSession 0x0204 ch c)

/-! ## Rotation (R330, R331) -/

/-- A partition has an epoch flip or a sweep under way. -/
def State.rotating (s : State) (p : Fin 16) : Bool :=
  (s.parts[p]).mem.sweep.isSome ||
    match (s.chans[vf p]).held with
    | some h => h.why = .epochFlip p.val
    | none => false

/-- KEY_ROTATE with TARGET MEMORY (R330): the new key goes into the slot that E does not use; the flip follows. -/
def handleRotateMemory : Handler := fun ch r s =>
  let p := chanPart ch
  if ch = 0 then .refuse .notPermitted
  else if nonZero (word r.payload 0) 63 4 then .refuse .badParam
  else if s.rotating p then .refuse .busy
  else
    withEntropy ch s (fun s =>
      let (k, s) := s.partDraw p 64
      .hold (.epochFlip p.val) (s.placeKey (partSlot p (if (s.parts[p]).mem.epoch then 1 else 2)) 8 k 0 0 2))

/-- The checks of KEY_ROTATE with TARGET TENANT_KEY. An empty slot has no kind to renew (DEDUCED: BAD_STATE). -/
def checkRotateTenant (s : State) (ch : Fin 17) (w : W64) : Option Status :=
  let loc := bits w 47 32
  if ch = 0 then some .notPermitted
  else if nonZero w 63 48 || nonZero w 31 4 then some .badParam
  else if loc < 16 || loc > 239 then some .badParam
  else if !Table.has s.pannier (partSlot (chanPart ch) loc) then some .badState
  else none

/-- KEY_ROTATE with TARGET TENANT_KEY (R330): same kind, policy and period, new SERIAL. -/
def handleRotateTenant : Handler := fun ch r s =>
  let w := word r.payload 0
  let loc := bits w 47 32
  let p := chanPart ch
  match checkRotateTenant s ch w, Table.get? s.pannier (partSlot p loc) with
  | some st, _ => .refuse st
  | none, none => .refuse .badState
  | none, some k =>
    if s.slotInUse p loc then .hold (.slotUse loc) s
    else
      withEntropy ch s (fun s =>
        let (ws, s) := (s.destroyKey p loc).installFresh ch loc k.kind k.policy k.period
        .done .ok ws s)

/-- The checks shared by the two link targets of KEY_ROTATE. -/
def checkRotateLink (ch : Fin 17) (w : W64) : Option Status :=
  if ch != 0 then some .notPermitted
  else if nonZero w 63 37 || nonZero w 31 4 || bits w 36 32 > 23 then some .badParam
  else none

/-- KEY_ROTATE with TARGET LINK_SAK (R330, R332). -/
def handleRotateSak : Handler := fun ch r s =>
  let w := word r.payload 0
  match checkRotateLink ch w with
  | some st => .refuse st
  | none => withEntropy ch s (fun s => .done .ok [] (s.rotateSak (Fin.ofNat 24 (bits w 36 32))))

/-- KEY_ROTATE with TARGET LINK_BINIGAL (R330, R333). -/
def handleRotateBinigal : Handler := fun ch r s =>
  let w := word r.payload 0
  match checkRotateLink ch w with
  | some st => .refuse st
  | none => withEntropy ch s (fun s => .done .ok [] (s.rekeyBinigal (Fin.ofNat 24 (bits w 36 32))))

/-- KEY_ROTATE by its TARGET field. -/
def handleKeyRotate : Handler := fun ch r s =>
  match bits (word r.payload 0) 3 0 with
  | 0 => handleRotateMemory ch r s
  | 1 => handleRotateTenant ch r s
  | 2 => handleRotateSak ch r s
  | 3 => handleRotateBinigal ch r s
  | _ => .refuse .badParam

/-- KEY_ROTATE_MEMORY. -/
def execKeyRotateMemory (ch : Fin 17) (c : Cmd) (s : State) : Host.Outcome State Fault Refusal :=
  .next (s.submit handleKeyRotate 0x0403 ch (cmdSel c 0 3 0 0))

/-- KEY_ROTATE_TENANT_KEY. -/
def execKeyRotateTenantKey (ch : Fin 17) (c : Cmd) (s : State) : Host.Outcome State Fault Refusal :=
  .next (s.submit handleKeyRotate 0x0403 ch (cmdSel c 0 3 0 1))

/-- KEY_ROTATE_LINK_SAK. -/
def execKeyRotateLinkSak (ch : Fin 17) (c : Cmd) (s : State) : Host.Outcome State Fault Refusal :=
  .next (s.submit handleKeyRotate 0x0403 ch (cmdSel c 0 3 0 2))

/-- KEY_ROTATE_LINK_BINIGAL. -/
def execKeyRotateLinkBinigal (ch : Fin 17) (c : Cmd) (s : State) : Host.Outcome State Fault Refusal :=
  .next (s.submit handleKeyRotate 0x0403 ch (cmdSel c 0 3 0 3))

/-- EPOCH_FLIP (R330): at the next stack-frame start E flips on all stacks, the sweep starts and KEY_ROTATE is answered. -/
def execEpochFlip (p : Fin 16) (s : State) : Host.Outcome State Fault Refusal :=
  .next (
    match (s.chans[vf p]).held with
    | some h =>
      if h.why = .epochFlip p.val then
        let s := s.advance (nextFrame s.clock)
        let s := s.modPart p (fun q => { q with mem := { q.mem with epoch := !q.mem.epoch, sweep := some ⟨s.clock, 0⟩ } })
        s.finishHeld (vf p) .ok []
      else s
    | none => s)

/-- The stack controller of a partition page holds a key for its epoch: the key under which the page's blocks are stored (R328, R329). -/
def State.pageKey (s : State) (p : Fin 16) (page : Nat) : Option (List Byte) :=
  let q := s.parts[p]
  s.engineKey (partSlot p (if q.mem.epochOf q.stacks page then 2 else 1)) (.stack (q.ofRank (page % q.stacks)).val)

/-- Block `j` of a partition page as the DRAM holds it: AES-XTS-256 with the page number as tweak, each block on its own (R328). The state
holds the page as its accesses read it. -/
def State.storedBlock (s : State) (p : Fin 16) (page j : Nat) : Option (List Byte) :=
  (s.pageKey p page).map (fun k => xtsSeal k page j ((s.parts[p]).dram.readN (page * 4096 + 16 * j) 16))

/-- The stack of a rank is below 85 °C by its last sample (R331). -/
def State.stackCool (s : State) (q : Partition) (rank : Nat) : Bool :=
  s.power.stack.getD (s.nvm.siteMap.getD (q.ofRank rank).val 0) 0 < 340

/-- A partition address lies on the stack of a rank (R124). -/
def Partition.onStack (q : Partition) (rank a : Nat) : Bool := a / 4096 % q.stacks == rank

/-- Clearing traffic of R49 that a stack has to carry: an opening round has a bitmap or accumulator page there. -/
def Partition.clears (q : Partition) (rank : Nat) : Bool :=
  q.rnd.rounds.any (fun r => r.opening &&
    (q.stackMeets rank r.bitmapAddr (r.clients * r.bitmapStride)
      || (q.roundWindows r).any (fun w => (List.range (Nat.min w.vecChunks q.stacks)).any (fun j => q.onStack rank (w.chunkAddr j)))))

/-- The accumulator chunk of a window and client-vector chunk lies on the stack. -/
def Partition.foldsOn (q : Partition) (rank win c : Nat) : Bool :=
  (Table.get? q.rnd.windows win).any (fun w => q.onStack rank (w.chunkAddr (c - w.vecOffset / 4096)))

/-- What a chunk in flight still brings to a stack's fold slots (R80, R86). -/
def Partition.chunkOn (q : Partition) (rank : Nat) (k : Chunk) : Bool :=
  match k.stage with
  | 1 => (q.rnd.rounds.find? (fun r => r.tag == k.tag)).any (fun r => q.onStack rank (r.bitAddr (k.client - r.base) k.chunk))
      || q.foldsOn rank k.win k.chunk
  | 2 => q.foldsOn rank k.win k.chunk
  | _ => k.imm.isSome && q.rnd.aq.any (fun a => q.onStack rank (a.addr + a.m % 2 ^ a.log2 * 16))

/-- Bytes of fold traffic that wait for a stack's fold slots (R80, R376): 8,320 for a chunk, 4,096 for a page of a region. -/
def Partition.slotBytes (q : Partition) (rank : Nat) : Nat :=
  8320 * (q.rnd.inFlight.filter (q.chunkOn rank)).length
    + (q.rnd.foldQ.map (fun e => match e with
      | .fold win _ _ c _ _ _ _ => if q.foldsOn rank win c then 8320 else 0
      | .place _ _ a _ _ _ _ => if q.onStack rank a then 4096 else 0)).foldl (· + ·) 0

/-- A fold slot of a stack carries neither fold nor clearing traffic in this frame (R331): no clearing is due there, and what waits for the
stack fits into fewer than k slots of 32,768 bytes (R20; DESIGN CHOICE: clearing takes every slot it can, as R49 lets it, and the traffic
of a frame is what waits at its moment; log 151). -/
def Partition.foldIdle (q : Partition) (rank : Nat) : Bool := !q.clears rank && ceilDiv (q.slotBytes rank) 32768 < q.foldK

/-- MEMORY_SWEEP_SLOT (R331): a slot that its stack does not use, of refresh below 85 °C or of an idle fold path, re-encrypts up to 4 pages of
the stack. At or above 85 °C with busy fold slots the sweep stands still. -/
def execMemorySweepSlot (p : Fin 16) (rank : Nat) (s : State) : Host.Outcome State Fault Refusal :=
  .next (
    let q := s.parts[p]
    match q.mem.sweep with
    | some sw =>
      if rank < q.stacks && (s.stackCool q rank || q.foldIdle rank) then
        let (m, k) := q.mem.sweepPages rank 4
        s.modPart p (fun q => { q with mem := { m with sweep := some { sw with pages := sw.pages + k } } })
      else s
    | none => s)

/-- MEMORY_SWEEP_DONE (R331): at the frame start after no old-epoch page remains, the old key is zeroed, ROTATION_COMPLETE
is posted and MEMORY_ROTATED is logged. -/
def execMemorySweepDone (p : Fin 16) (s : State) : Host.Outcome State Fault Refusal :=
  .next (
    let q := s.parts[p]
    match q.mem.sweep with
    | some sw =>
      if (List.range q.stacks).all (fun r => (q.mem.oldPage r 0).isNone) then
        let s := (s.advance (nextFrame s.clock)).clearKey (partSlot p (if q.mem.epoch then 1 else 2))
        let n := q.mem.rotations + 1
        let s := s.modPart p (fun q => { q with mem := { q.mem with sweep := none, rotations := n } })
        let s := s.attest p 9 (leBytes 8 n)
        s.postPart p 0x0550 .ok [w64 sw.pages, w64 ((s.clock - sw.flipAt) / ms)]
      else s
    | none => s)

/-! ## Weights bundles (R334 to R336) -/

/-- SEGMENTS of a bundle. -/
def segments (plain : Nat) : Nat := ceilDiv plain 65536

/-- Length of a bundle. -/
def bundleLength (n plain : Nat) : Nat := 128 + 192 * n + 65552 * segments plain

/-- Two address ranges share a byte. -/
def overlap (a la b lb : Nat) : Bool := a < b + lb && b < a + la && la > 0 && lb > 0

/-- The key-encryption key of a member entry (R334). -/
def weightsKek (z digest fp : List Byte) : List Byte := hkdf sha384Kind z digest (ascii "skv9032 weights" ++ fp) 32

/-- The body of a bundle from segment `i` on (R334). -/
def sealSegments (w header bid plain : List Byte) (i : Nat) : Nat → List Byte
  | 0 => []
  | n + 1 =>
    let (ct, tag) := gcmSeal w (bid ++ leBytes 4 i) header (padTo 65536 (plain.drop (65536 * i)))
    ct ++ tag ++ sealSegments w header bid plain (i + 1) n

/-- Open the body of a bundle: the padded plaintext, or none where a tag fails. -/
def openSegments (w header bid : List Byte) (i : Nat) : Nat → List Byte → Option (List Byte)
  | 0, _ => some []
  | n + 1, body =>
    match gcmOpen w (bid ++ leBytes 4 i) header (body.take 65536) ((body.drop 65536).take 16) with
    | some pt => (openSegments w header bid (i + 1) n (body.drop 65552)).map (pt ++ ·)
    | none => none

/-- The fields of a BIND_WEIGHTS. -/
structure Bind where
  n : Nat
  src : Nat
  plain : Nat
  fleet : Nat
  dst : Nat
  deriving DecidableEq, Repr

/-- Read the payload of BIND_WEIGHTS (R335). -/
def readBind (w : List W64) : Bind := ⟨bits (word w 0) 47 32, bits (word w 1) 38 0, bits (word w 2) 39 0, bits (word w 3) 38 0, bits (word w 4) 38 0⟩

/-- The member records of a fleet list. -/
def members (m : Mem) (b : Bind) : List (List Byte) := (List.range b.n).map (fun i => m.readN (b.fleet + 448 * i) 448)

/-- A member record's statement passes the checks of R335. -/
def memberOk (rec : List Byte) : Bool :=
  let st := (rec.drop 96).take 256
  ecdsaVerify (rec.take 96) st ((rec.drop 352).take 96) && leNat ((st.drop 4).take 1) == 1
    && leNat ((st.drop 8).take 2) == 0xFFFF && leNat ((st.drop 10).take 2) == 1 && leNat ((st.drop 12).take 1) == 2
    && (st.drop 48).take 48 == sha384 (rec.take 96)

/-- DEVICE_FP of a member record. -/
def memberFp (rec : List Byte) : List Byte := (rec.drop 144).take 48

/-- No two elements of a list are equal. -/
def distinct {α : Type} [BEq α] : List α → Bool
  | [] => true
  | x :: xs => !xs.contains x && distinct xs

/-- The checks of BIND_WEIGHTS (R335), entropy apart. -/
def checkBindWeights (s : State) (p : Fin 16) (w : List W64) : Option Status :=
  let b := readBind w
  let q := s.parts[p]
  let len := bundleLength b.n b.plain
  if nonZero (word w 0) 63 48 || nonZero (word w 0) 31 0 || nonZero (word w 1) 63 39 || nonZero (word w 2) 63 40
      || nonZero (word w 3) 63 39 || nonZero (word w 4) 63 39 then some .badParam
  else if b.n = 0 || b.n > 256 || b.plain = 0 || b.plain > 2 ^ 38 || b.fleet % 64 != 0 || b.dst % 4096 != 0
      || b.src + b.plain > q.dramSize || b.fleet + 448 * b.n > q.dramSize || b.dst + len > q.dramSize
      || overlap b.src b.plain b.fleet (448 * b.n) || overlap b.src b.plain b.dst len
      || overlap b.fleet (448 * b.n) b.dst len || !distinct ((members q.dram b).map memberFp) then some .badParam
  else if s.ownedRange p b.src b.plain || s.ownedRange p b.fleet (448 * b.n) || s.ownedRange p b.dst len then
    some .notPermitted
  else if !(members q.dram b).all memberOk then some .authFailed
  else none

/-- Member entries of a bundle, each with a fresh ephemeral key (R334, R335). -/
def State.sealEntries (s : State) (p : Fin 16) (w header digest : List Byte) : List (List Byte) → List Byte × State
  | [] => ([], s)
  | rec :: rest =>
    let (d, s) := s.partDraw p 56
    let e := scalarOf d
    let fp := memberFp rec
    let kek := weightsKek (ecdh e ((rec.drop (96 + 128)).take 96)) digest fp
    let (ct, tag) := gcmSeal kek (zeros 12) header w
    let (more, s) := s.sealEntries p w header digest rest
    (fp ++ p384Pub e ++ ct ++ tag ++ more, s)

/-- The 128-byte header of a bundle (R334). -/
def bundleHeader (n plain : Nat) (digest bid : List Byte) : List Byte :=
  leBytes 4 0x4E574B53 ++ leBytes 2 1 ++ leBytes 2 n ++ leBytes 8 plain ++ leBytes 8 (segments plain) ++ digest ++ bid
    ++ zeros 48

/-- The steps of an accepted BIND_WEIGHTS (R335). -/
def State.bindWeights (s : State) (p : Fin 16) (b : Bind) : List W64 × State :=
  let q := s.parts[p]
  let plain := q.dram.readN b.src b.plain
  let digest := sha384 plain
  let (w, s) := s.partDraw p 32
  let (bid, s) := s.partDraw p 8
  let header := bundleHeader b.n b.plain digest bid
  let (entries, s) := s.sealEntries p w header digest (members q.dram b)
  let body := sealSegments w header bid plain 0 (segments b.plain)
  let s := s.writePages p b.dst (header ++ entries ++ body)
  ([w64 (leNat bid), w64 (bundleLength b.n b.plain)] ++ bytesToWords 6 digest, s.attest p 7 digest)

/-- BIND_WEIGHTS (R335). W is drawn, used and zeroed within the command, so slot 3 is empty again afterwards. It waits
for what was acknowledged before it to be placed (R378). -/
def handleBindWeights : Handler := fun ch r s =>
  let p := chanPart ch
  if !s.placed p r then .hold .retry s
  else
  let s := s.syncDram p
  match checkBindWeights s p r.payload with
  | some st => .refuse st
  | none =>
    withEntropy ch s (fun s =>
      let (ws, s) := s.bindWeights p (readBind r.payload)
      .done .ok ws s)

/-- BIND_WEIGHTS. -/
def execBindWeights (ch : Fin 17) (c : Cmd) (s : State) : Host.Outcome State Fault Refusal :=
  .next (s.submit handleBindWeights 0x0405 ch c)

/-- A bundle header is well formed (R334, R336 step 1). -/
def headerOk (h : List Byte) : Bool :=
  let n := leNat ((h.drop 6).take 2)
  let plain := leNat ((h.drop 8).take 8)
  leNat (h.take 4) == 0x4E574B53 && leNat ((h.drop 4).take 2) == 1 && 1 ≤ n && n ≤ 256 && 1 ≤ plain && plain ≤ 2 ^ 38
    && leNat ((h.drop 16).take 8) == segments plain && (h.drop 80).all (· == 0)

/-- The checks of UNWRAP_WEIGHTS before anything is opened: reserved words and steps 1 to 3 of R336. -/
def checkUnwrapWeights (s : State) (p : Fin 16) (w : List W64) : Option Status :=
  let q := s.parts[p]
  let a := bits (word w 1) 38 0
  let len := bits (word w 2) 39 0
  let dst := bits (word w 3) 38 0
  let h := q.dram.readN a 128
  let n := leNat ((h.drop 6).take 2)
  let plain := leNat ((h.drop 8).take 8)
  let out := ceilDiv plain 4096 * 4096
  if word w 0 != 0 || nonZero (word w 1) 63 39 || nonZero (word w 2) 63 40 || nonZero (word w 3) 63 39 then some .badParam
  else if dst % 4096 != 0 || a + len > q.dramSize || len < 128 || !headerOk h || len != bundleLength n plain
      || dst + out > q.dramSize || overlap a len dst out then some .badParam
  else if s.ownedRange p a len || s.ownedRange p dst out then some .notPermitted
  else if !((List.range n).any (fun i => q.dram.readN (a + 128 + 192 * i) 48 == deviceFp)) then some .notPermitted
  else none

/-- Steps 4 to 6 of R336. -/
def State.unwrapWeights (s : State) (p : Fin 16) (w : List W64) : Status × List W64 × State :=
  let q := s.parts[p]
  let a := bits (word w 1) 38 0
  let dst := bits (word w 3) 38 0
  let h := q.dram.readN a 128
  let n := leNat ((h.drop 6).take 2)
  let plain := leNat ((h.drop 8).take 8)
  let digest := (h.drop 24).take 48
  let bid := (h.drop 72).take 8
  let i := (findFrom (fun i => q.dram.readN (a + 128 + 192 * i) 48 == deviceFp) n 0).getD 0
  let e := q.dram.readN (a + 128 + 192 * i) 192
  let kek := weightsKek (ecdh bindingKey ((e.drop 48).take 96)) digest deviceFp
  match gcmOpen kek (zeros 12) h ((e.drop 144).take 32) ((e.drop 176).take 16) with
  | none => (.authFailed, [], s)
  | some wk =>
    let body := q.dram.readN (a + 128 + 192 * n) (65552 * segments plain)
    let out := ceilDiv plain 4096 * 4096
    let bad := (Status.authFailed, ([] : List W64), s.writePages p dst (zeros out))
    match openSegments wk h bid 0 (segments plain) body with
    | none => bad
    | some pt =>
      if (pt.drop plain).any (· != 0) || sha384 (pt.take plain) != digest then bad
      else (.ok, bytesToWords 6 digest, (s.writePages p dst (padTo out (pt.take plain))).attest p 8 digest)

/-- UNWRAP_WEIGHTS (R336), after what was acknowledged before it is placed (R378). -/
def handleUnwrapWeights : Handler := fun ch r s =>
  let p := chanPart ch
  if !s.placed p r then .hold .retry s
  else
  let s := s.syncDram p
  match checkUnwrapWeights s p r.payload with
  | some st => .refuse st
  | none =>
    let (st, ws, s') := s.unwrapWeights p r.payload
    .done st ws (if st = .ok then s' else s'.count ch .cmdRefused 1)

/-- UNWRAP_WEIGHTS. -/
def execUnwrapWeights (ch : Fin 17) (c : Cmd) (s : State) : Host.Outcome State Fault Refusal :=
  .next (s.submit handleUnwrapWeights 0x0406 ch c)

/-! ## Debug unlock (R340, R341) -/

/-- No partition exists. -/
def State.noPartition (s : State) : Bool := allParts.all (fun p => (s.parts[p]).st = .absent)

/-- DEBUG_UNLOCK CHALLENGE. -/
def handleDebugChallenge : Handler := fun ch r s =>
  if ch != 0 then .refuse .notPermitted
  else if nonZero (word r.payload 0) 63 18 || nonZero (word r.payload 0) 15 0 then .refuse .badParam
  else if r.payload.length != 1 then .refuse .badLength
  else if !s.noPartition then .refuse .badState
  else
    let (n, s) := s.deviceDraw 32
    .done .ok (bytesToWords 4 n ++ bytesToWords 6 deviceFp)
      { s with debugAccess := { s.debugAccess with nonce := some (n, s.clock) } }

/-- The valid nonce, if there is one. -/
def State.validNonce (s : State) : Option (List Byte) :=
  match s.debugAccess.nonce with
  | some (n, t) => if s.clock ≤ t + 60 * sec then some n else none
  | none => none

/-- The debug authority's answer to a nonce verifies (R340). -/
def debugAnswerOk (nonce : List Byte) (w : List W64) : Bool :=
  let sig := wordsToBytes ((w.drop 1).take 12)
  let pub := wordsToBytes ((w.drop 13).take 12)
  sha384 pub == beBytes 48 Config.debugAuthorityHash.toNat
    && ecdsaVerify pub (ascii "skv9032 debug" ++ nonce ++ deviceFp) sig

/-- DEBUG_UNLOCK RESPONSE: the nonce serves one RESPONSE, whatever its outcome (DEDUCED). -/
def handleDebugResponse : Handler := fun ch r s =>
  if ch != 0 then .refuse .notPermitted
  else if nonZero (word r.payload 0) 63 18 || nonZero (word r.payload 0) 15 0 then .refuse .badParam
  else if r.payload.length != 25 then .refuse .badLength
  else if !s.noPartition then .refuse .badState
  else
    match s.validNonce with
    | none => .refuse .badState
    | some n =>
      let s := { s with debugAccess := { s.debugAccess with nonce := none } }
      if debugAnswerOk n r.payload then
        let s := { s with debugAccess := { s.debugAccess with unlocked := true } }.log 0x0302 3 [0]
        .done .ok [] (s.post 0 0x0551 .ok [0x100])
      else .done .authFailed [] (s.count ch .cmdRefused 1)

/-- Turn the partition debug scope on or off, log it in both logs and report it (R340, R341). -/
def State.setScope (s : State) (p : Fin 16) (on : Bool) : State :=
  let s := s.modPart p (fun q => { q with debugOn := on })
  let s := s.attest p 10 [byte (if on then 1 else 2)]
  let s := s.log 0x0302 3 [w64 ((if on then 1 else 2) + p.val * 256)]
  s.postPart p 0x0551 .ok [w64 (1 + b2n on * 256)]

/-- DEBUG_UNLOCK PARTITION_ON and PARTITION_OFF. -/
def handleDebugScope (on : Bool) : Handler := fun ch r s =>
  if ch = 0 || !r.sealed then .refuse .notPermitted
  else if nonZero (word r.payload 0) 63 18 || nonZero (word r.payload 0) 15 0 then .refuse .badParam
  else if r.payload.length != 1 then .refuse .badLength
  else .done .ok [] (s.setScope (chanPart ch) on)

/-- DEBUG_UNLOCK by its OP field. -/
def handleDebugUnlock : Handler := fun ch r s =>
  match bits (word r.payload 0) 17 16 with
  | 0 => handleDebugChallenge ch r s
  | 1 => handleDebugResponse ch r s
  | 2 => handleDebugScope true ch r s
  | _ => handleDebugScope false ch r s

/-- DEBUG_UNLOCK_CHALLENGE. -/
def execDebugUnlockChallenge (ch : Fin 17) (c : Cmd) (s : State) : Host.Outcome State Fault Refusal :=
  .next (s.submit handleDebugUnlock 0x0A03 ch (cmdSel c 0 17 16 0))

/-- DEBUG_UNLOCK_RESPONSE. -/
def execDebugUnlockResponse (ch : Fin 17) (c : Cmd) (s : State) : Host.Outcome State Fault Refusal :=
  .next (s.submit handleDebugUnlock 0x0A03 ch (cmdSel c 0 17 16 1))

/-- DEBUG_UNLOCK_PARTITION_ON. -/
def execDebugUnlockPartitionOn (ch : Fin 17) (c : Cmd) (s : State) : Host.Outcome State Fault Refusal :=
  .next (s.submit handleDebugUnlock 0x0A03 ch (cmdSel c 0 17 16 2))

/-- DEBUG_UNLOCK_PARTITION_OFF. -/
def execDebugUnlockPartitionOff (ch : Fin 17) (c : Cmd) (s : State) : Host.Outcome State Fault Refusal :=
  .next (s.submit handleDebugUnlock 0x0A03 ch (cmdSel c 0 17 16 3))

/-- DEBUG_NONCE_EXPIRY (R340): 60 s after its issue a nonce is no longer valid. -/
def execDebugNonceExpiry (s : State) : Host.Outcome State Fault Refusal :=
  .next (
    match s.debugAccess.nonce with
    | some (_, t) => { s.advance (t + 60 * sec) with debugAccess := { s.debugAccess with nonce := none } }
    | none => s)

end Sys2Proof.Machine
end

