-- ==== Sys2Proof/Machine/TandemLinks.lean ====
section
/-! DEFINITION. The Binigal link (R333, R393 to R400, R283): sequence, acknowledgement and resending, keying, calibration, ports,
signals and digests, with the rows of its frames. Barrier frames are in TandemBar. -/

namespace Sys2Proof.Machine

open Sys2Proof.Machine.Crypto

/-! ## Sequence (R396) -/

/-- How far a sequence number lies behind another, modulo 2^32. -/
def seqBehind (a b : Nat) : Nat := (b + 2 ^ 32 - a % 2 ^ 32) % 2 ^ 32

/-- A sequence number at or before another. -/
def seqLe (a b : Nat) : Bool := seqBehind a b < 2 ^ 31

/-- Frames of a link in the window that has been sent. -/
def Binigal.sent (b : Binigal) : List BFrame := b.replay.take replayDepth

/-- Put frames on the wire in order. -/
def State.binWires (s : State) (l : Fin 24) (fs : List BFrame) : State := fs.foldl (fun s f => s.binWire l f) s

/-- Frames up to a sequence number are acknowledged: they leave the replay buffer, and frames that waited for room go out. -/
def State.binAcked (s : State) (l : Fin 24) (seq : Nat) : State :=
  let b := (s.links[l]).bin
  let n := (b.sent.filter (fun f => seqLe f.seq seq)).length
  if n = 0 then s
  else
    let s := s.modLink l (fun k =>
      { k with bin := { k.bin with replay := k.bin.replay.drop n, resends := 0, since := s.clock } })
    s.binWires l ((b.replay.drop replayDepth).take n)

/-- Resend every frame that has been sent and not acknowledged; after eight in a row without progress the link goes down and
trains again. -/
def State.binResend (s : State) (l : Fin 24) : State :=
  let b := (s.links[l]).bin
  if b.replay.isEmpty then s
  else if b.resends ≥ 8 then s.retrain l
  else
    (s.modLink l (fun k => { k with bin := { k.bin with resends := k.bin.resends + 1, since := s.clock } })).binWires l b.sent

/-- One NAK for the first missing sequence number. -/
def State.binNak (s : State) (l : Fin 24) : State :=
  let b := (s.links[l]).bin
  if b.nakOut then s
  else (s.binControl l 8 b.seqRx (zeros 0)).modLink l (fun k => { k with bin := { k.bin with nakOut := true } })

/-- Count a frame that arrives on a link (R363). -/
def State.binCount (s : State) (l : Fin 24) : State := s.modLink l (fun k => { k with rxFrames := k.rxFrames + 1 })

/-- Relay a frame toward its destination (R397). -/
def State.binRelay (s : State) (g : GroupDesc) (me : Nat) (f : BFrame) : State :=
  if f.hops ≥ 15 then s
  else
    match s.linkFor g me f.src f.dst f.binding with
    | some l => s.binSend l { f with hops := f.hops + 1 }
    | none => s

/-- A frame in sequence arrives (R396, R397): the next one is acknowledged, and delivered here or relayed; one that is ahead is
discarded with a NAK; one that was delivered before is acknowledged again. -/
def State.binReceive (s : State) (l : Fin 24) (f : BFrame) (deliver : GroupDesc → Nat → State → State) : State :=
  if !(s.links[l]).binOpen then s
  else
    let s := s.binCount l
    let b := (s.links[l]).bin
    if f.seq = b.seqRx then
      let s := s.modLink l (fun k => { k with bin := { k.bin with seqRx := (k.bin.seqRx + 1) % 2 ^ 32, nakOut := false } })
      let s := s.binControl l 7 f.seq (zeros 0)
      match s.member with
      | none => s
      | some (g, me) => if f.kind = 6 || f.dst = me then deliver g me s else s.binRelay g me f
    else if seqLe f.seq b.seqRx then s.binControl l 7 ((b.seqRx + 2 ^ 32 - 1) % 2 ^ 32) (zeros 0)
    else s.binNak l

/-- ACK (R396). -/
def execAck (l : Fin 24) (f : BFrame) (s : State) : Host.Outcome State Fault Refusal :=
  .next (if (s.links[l]).binOpen then (s.binCount l).binAcked l f.seq else s)

/-- NAK (R396): everything before the named frame has arrived, and the sender resends from it. -/
def execNak (l : Fin 24) (f : BFrame) (s : State) : Host.Outcome State Fault Refusal :=
  .next (if (s.links[l]).binOpen then ((s.binCount l).binAcked l ((f.seq + 2 ^ 32 - 1) % 2 ^ 32)).binResend l else s)

/-- BINIGAL_RESEND_TIMEOUT (R396): 20 µs without an acknowledgement. -/
def execBinigalResendTimeout (l : Fin 24) (s : State) : Host.Outcome State Fault Refusal :=
  .next (
    let k := s.links[l]
    if k.binOpen && !k.bin.replay.isEmpty then (s.advance (k.bin.since + 20 * us)).binResend l else s)

/-- BINIGAL_TAG_FAILURE (R394, R395, R396): a frame whose tag fails, or of a reserved KIND, is as good as lost. -/
def execBinigalTagFailure (l : Fin 24) (s : State) : Host.Outcome State Fault Refusal :=
  .next (if (s.links[l]).binOpen then (s.binCount l).binNak l else s)

/-- BINIGAL_TXC_EXHAUSTED (R395): the link re-keys in the RTP's housekeeping turn (R344). -/
def execBinigalTxcExhausted (l : Fin 24) (s : State) : Host.Outcome State Fault Refusal :=
  .next (if (s.links[l]).binOpen && (s.links[l]).bin.txc ≥ 2 ^ 40 then s.inHousekeeping.rekeyBinigal l else s)

/-! ## Calibration and group time (R400) -/

/-- Group time at this member. -/
def State.groupTime (s : State) : Nat := ((s.localCycles : Int) + s.tandem.offset).toNat

/-- The clock at which group time reaches a value. -/
def State.clockOfGroup (s : State) (t : Nat) : Nat := s.localClock ((t : Int) - s.tandem.offset).toNat

/-- Ask the far end of a link for its time. -/
def State.calibrate (s : State) (g : GroupDesc) (me : Nat) (l : Fin 24) : State :=
  match g.farEnd me l with
  | some y => s.binSend l ⟨6, 0xFF, me, y, 0, 0, 0, s.localCycles, 0, []⟩
  | none => s

/-- The root by which this member sets its group time: that of its lowest binding (DESIGN CHOICE: the manual does not say which
where bindings have different roots). -/
def GroupDesc.timeRoot (g : GroupDesc) (me : Nat) : Option Nat :=
  let mine := g.binds.filter (fun b => (b.local? me).isSome)
  (leastBelow 16 (fun i => mine.any (fun b => b.id == i))).bind (fun i => (mine.find? (fun b => b.id == i)).map BindDesc.root)

/-- This member's end of the last link of the route from the root to it (R390, R400). -/
def State.linkFrom (s : State) (g : GroupDesc) (me root : Nat) : Option Nat :=
  match (s.route g me root me).map List.reverse with
  | some (_ :: x :: _) =>
    (s.hopLink g me x me).bind (fun n =>
      (g.links.findSome? (fun e =>
        if e.a = x && e.la = n && e.b = me then some e.lb
        else if e.b = x && e.lb = n && e.a = me then some e.la
        else none)))
  | _ => none

/-- A calibration answer: half of the round trip is the link's delay, which the member reports, and over the last link of the route from the
root the far end's time, so much later, is the group time (R400). -/
def State.calibrated (s : State) (g : GroupDesc) (me : Nat) (l : Fin 24) (f : BFrame) : State :=
  let d := (s.localCycles - f.arg0) / 2
  let s := s.modLink l (fun k => { k with bin := { k.bin with delay := d } })
  let s : State := match g.timeRoot me with
    | some r =>
      if r != me && s.linkFrom g me r == some l.val then
        s.modTandem (fun t => { t with offset := (leNat (f.payload.take 8) : Int) + d - s.localCycles })
      else s
    | none => s
  s.reportNews g me

/-- CALIBRATE (R400): ARG1 is 0 in a question, with the asker's cycles in ARG0, and 1 in its answer, with the answerer's group time
in the payload (DESIGN CHOICE: the manual gives the frame no layout). -/
def execCalibrate (l : Fin 24) (f : BFrame) (s : State) : Host.Outcome State Fault Refusal :=
  .next (s.binReceive l { f with kind := 6 } (fun g me s =>
    if f.arg1 = 0 then
      match g.farEnd me l with
      | some y => s.binSend l ⟨6, 0xFF, me, y, 0, 0, 0, f.arg0, 1, padTo 64 (leBytes 8 s.groupTime)⟩
      | none => s
    else s.calibrated g me l f))

/-- CALIBRATION_TIMER (R400): every second, on every Binigal link that is UP. -/
def execCalibrationTimer (s : State) : Host.Outcome State Fault Refusal :=
  .next (
    if s.boot.phase != .ready then s
    else
      let s := s.advance s.tandem.nextCalibrate
      let s := s.modTandem (fun t => { t with nextCalibrate := s.clock + sec })
      match s.member with
      | none => s
      | some (g, me) =>
        (List.finRange 24).foldl (fun s l => if (s.links[l]).binOpen then s.calibrate g me l else s) s)

/-! ## Keying (R333, R395) -/

/-- Is the device a member of the group? -/
def GroupDesc.lists (g : GroupDesc) (fp : List Byte) : Bool := g.fps.contains fp && fp != deviceFp

/-- The link keys of an exchange: the direction from the lower DEVICE_FP to the higher, then the other. -/
def linkKeys (eph : Nat) (nonce peerEph peerNonce peerFp : List Byte) : List Byte × List Byte :=
  let low := beNat deviceFp < beNat peerFp
  let k := hkdf sha384Kind (ecdh eph peerEph) (if low then nonce ++ peerNonce else peerNonce ++ nonce) (ascii "skv9032 binigal") 64
  if low then (k.take 32, k.drop 32) else (k.drop 32, k.take 32)

/-- The exchange succeeds: both keys are in place, TXC starts at 0, every frame that is not acknowledged is sent again, and a link
that was keying itself comes UP. -/
def State.keyLink (s : State) (l : Fin 24) (peerFp peerEph peerNonce : List Byte) : State :=
  let b := (s.links[l]).bin
  let (tx, rx) := linkKeys b.eph b.nonce peerEph peerNonce peerFp
  let s := s.placeKey (80 + 2 * l.val) 12 tx 0 0 (s.slotPeriod (80 + 2 * l.val))
  let s := s.placeKey (81 + 2 * l.val) 12 rx 0 0 (s.slotPeriod (81 + 2 * l.val))
  let s := s.modLink l (fun k =>
    { k with bin := { k.bin with keyed := true, eph := 0, nonce := [], peer := peerFp, txc := 0, nakOut := false, resends := 0,
                                 since := s.clock } })
  let s := s.setLink l .up
  s.binWires l (s.links[l]).bin.sent

/-- HANDSHAKE (R333): the signature verifies and the peer is a listed member, or the link stays down. The RTP keys the link in its
housekeeping turn (R344). -/
def execHandshake (l : Fin 24) (f : BFrame) (s : State) : Host.Outcome State Fault Refusal :=
  .next (
    let k := s.links[l]
    if k.mode != 3 || !k.signal || !(k.st == .up || k.st == .training) then s
    else
      let s := s.binCount l
      let s := s.inHousekeeping
      let s := if k.bin.eph = 0 then s.rekeyBinigal l else s
      let pub := f.payload.take 96
      let body := (f.payload.drop 96).take 128
      let fp := sha384 pub
      match s.member with
      | none => if k.st = .up then s.retrain l else s
      | some (g, me) =>
        if ecdsaVerify pub body (f.payload.drop 224) && g.lists fp then
          let s := s.keyLink l fp (body.take 96) (body.drop 96)
          (s.sendReports g me (s.routed g me)).calibrate g me l
        else if k.st = .up then s.retrain l
        else s)

/-! ## Digests (R402) -/

/-- DIGEST (R402): the sender's digest, conditions and links are kept, and the bindings are evaluated. -/
def execDigest (l : Fin 24) (f : BFrame) (s : State) : Host.Outcome State Fault Refusal :=
  .next (s.binReceive l { f with kind := 13 } (fun _ _ s =>
    (s.modTandem (fun t => { t with reports := Table.put t.reports f.src (readReport f.payload) })).evalBinds s))

/-! ## Ports and signals (R283, R398, R399) -/

/-- A counter as a frame names it (R443): cluster rank and index. -/
def counterWord (rank index : Nat) : Nat := rank * 2 ^ 43 + index * 2 ^ 32

/-- The binding of a frame and this member's partition in it. -/
def State.ofBinding (s : State) (g : GroupDesc) (me id : Nat) : Option (BindDesc × Fin 16) :=
  (g.binds.find? (fun b => b.id == id)).bind (fun b =>
    (b.local? me).bind (fun p => if (s.parts[p]).st = .active then some (b, p) else none))

/-- The same, where the binding stands. -/
def State.bound (s : State) (g : GroupDesc) (me id : Nat) : Option (BindDesc × Fin 16) :=
  (s.ofBinding g me id).filter (fun _ => s.bindState id != .down)

/-- Refuse a frame (R283): its sender is told the counter and the KIND. -/
def State.refuseFrame (s : State) (g : GroupDesc) (me : Nat) (f : BFrame) (ctr kind : Nat) : State :=
  s.binTo g me f.src 9 f.binding ctr kind []

/-- A counter of a partition by cluster rank and index, if the partition has it. -/
def Partition.counterRef (q : Partition) (rank index : Nat) : Option CtrRef :=
  if rank < q.stacks then some ⟨(q.ofRank rank).val, index⟩ else none

/-- What a REFUSE frame holds in place of a KIND where it tells of a withheld block (R399; the model's own). -/
def withheldMark : Nat := 0x101

/-- Which page of its block a page of a port is. -/
def PortDesc.pageOf (x : PortDesc) (addr : Nat) : Nat := (addr - x.dstAddr) / 4096 % x.pages

/-- A page of a port's block arrives (R399): it is written, and after the last page of a block that came whole the port's counter
rises. -/
def State.portPage (s : State) (b : BindDesc) (p : Fin 16) (n : Nat) (x : PortDesc) (ctr : CtrRef) (f : BFrame) : State :=
  let s := (s.syncDram p).writePages p f.arg0 (padTo 4096 f.payload)
  let key := b.id * 32 + n
  let i := x.pageOf f.arg0
  let got := if i = 0 then 1 else (Table.get? s.tandem.received key).getD 0 + 1
  if i + 1 < x.pages || got < x.pages then s.modTandem (fun t => { t with received := Table.put t.received key got })
  else (s.modTandem (fun t => { t with received := Table.del t.received key })).signalExternal p ctr 1 7

/-- A block for a port whose destination touches a page of a round or a resident program is withheld (R399): no page of it is written, and its
source counts it once. Only the destination knows what it owns: the source sends the block, and the first page of it is refused with
the mark of a withheld block (DESIGN CHOICE: the manual has the port send nothing and gives its source no way to know; log 56). -/
def State.withholdPage (s : State) (g : GroupDesc) (me : Nat) (b : BindDesc) (n : Nat) (x : PortDesc) (f : BFrame) : State :=
  let s := s.modTandem (fun t => { t with received := Table.del t.received (b.id * 32 + n) })
  if x.pageOf f.arg0 = 0 then s.refuseFrame g me f (counterWord (x.arrive / 2048) (x.arrive % 2048)) withheldMark else s

/-- The destination's pages of a port are owned by a round or a resident program (R399). -/
def Partition.portOwned (q : Partition) (x : PortDesc) : Bool :=
  q.anyRoundOwns none x.dstAddr (x.blocks * x.pages * 4096) || q.programOwns x.dstAddr (x.blocks * x.pages * 4096)

/-- DATA (R399): a page for a port of a standing binding, inside the port's ring; one that fits no port is refused, and one for a ring in
memory that a round or a resident program owns is withheld. -/
def execData (l : Fin 24) (f : BFrame) (s : State) : Host.Outcome State Fault Refusal :=
  .next (s.binReceive l { f with kind := 1 } (fun g me s =>
    match s.bound g me f.binding with
    | none => s.refuseFrame g me f 0 1
    | some (b, p) =>
      match b.ports[f.arg1]? with
      | none => s.refuseFrame g me f 0 1
      | some x =>
        let q := s.parts[p]
        let no := s.refuseFrame g me f (counterWord (x.arrive / 2048) (x.arrive % 2048)) 1
        match q.counterRef (x.arrive / 2048) (x.arrive % 2048) with
        | none => no
        | some ctr =>
          if x.dst != me || x.src != f.src || f.arg0 < x.dstAddr || f.arg0 + 4096 > x.dstAddr + x.blocks * x.pages * 4096
              || f.arg0 % 4096 != 0 || f.arg0 + 4096 > q.dramSize then no
          else if q.portOwned x then s.withholdPage g me b f.arg1 x f
          else s.portPage b p f.arg1 x ctr f))

/-- SIGNAL (R269, R283): adds 1 to 65,536 to a counter of the bound partition, or is refused. -/
def execSignal (l : Fin 24) (f : BFrame) (s : State) : Host.Outcome State Fault Refusal :=
  .next (s.binReceive l { f with kind := 2 } (fun g me s =>
    let no := s.refuseFrame g me f f.arg0 2
    match s.bound g me f.binding with
    | none => no
    | some (_, p) =>
      match (s.parts[p]).counterRef (f.arg0 / 2 ^ 43 % 32) (f.arg0 / 2 ^ 32 % 2048) with
      | none => no
      | some ctr => if f.arg1 = 0 || f.arg1 > 65536 then no else s.signalExternal p ctr f.arg1 7))

/-- REFUSE (R283, R284, R405): the sending partition counts it and receives SIGNAL_BLOCKED, unless it tells of a withheld block, which is only
counted (R399). -/
def execRefuse (l : Fin 24) (f : BFrame) (s : State) : Host.Outcome State Fault Refusal :=
  .next (s.binReceive l { f with kind := 9 } (fun g me s =>
    match (g.binds.find? (fun b => b.id == f.binding)).bind (fun b => b.local? me) with
    | none => s
    | some p =>
      let s := s.count (vf p) .syncBlocked 1
      if f.arg1 = withheldMark then s
      else s.postPart p 0x0530 .wrongPartition
        [w64 (counterWord (f.arg0 / 2 ^ 43 % 32) (f.arg0 / 2 ^ 32 % 2048) + l.val)]))

/-- A port's ranges leave the partition's DRAM or touch a page owned by a round, a resident program or the context store, which no interface
reads (R371, R399). What the destination owns only the destination knows. -/
def Partition.portBad (q : Partition) (x : PortDesc) : Bool :=
  let len := x.blocks * x.pages * 4096
  x.srcAddr + len > q.dramSize || x.dstAddr + len > q.dramSize || q.sourceOwned none x.srcAddr len

/-- The pages of a port's block `n` go out in order. -/
def State.sendBlock (s : State) (g : GroupDesc) (me : Nat) (b : BindDesc) (p : Fin 16) (port n : Nat) (x : PortDesc) : State :=
  let off := n % x.blocks * x.pages * 4096
  (List.range x.pages).foldl (fun s i =>
    s.binTo g me x.dst 1 b.id (x.dstAddr + off + i * 4096) port ((s.parts[p]).dram.readN (x.srcAddr + off + i * 4096) 4096)) s

/-- PORT_BLOCK_SEND (R399): the trigger counter, as it stands at a device tick (R9), exceeds the blocks sent. -/
def execPortBlockSend (bid : Fin 16) (port : Fin 32) (s : State) : Host.Outcome State Fault Refusal :=
  .next (
    match s.member with
    | none => s
    | some (g, me) =>
      match s.bound g me bid.val with
      | none => s
      | some (b, p) =>
        match b.ports[port.val]? with
        | none => s
        | some x =>
          let s := (s.toTick p).syncDram p
          let q := s.parts[p]
          match q.counterRef (x.trigger / 2048) (x.trigger % 2048) with
          | none => s
          | some ctr =>
            let key := b.id * 32 + port.val
            let n := (Table.get? s.tandem.sent key).getD 0
            if x.src != me || (s.counter ctr).value ≤ n then s
            else
              let s := s.modTandem (fun t => { t with sent := Table.put t.sent key (n + 1) })
              if q.portBad x then s.count (vf p) .syncBlocked 1 else s.sendBlock g me b p port.val n x)

/-! ## Counter words (R394, R405) -/

/-- COUNTER_READ (R394): the VALUE of a counter of the bound partition at the first device tick of its cluster (R9), returned to the
asker. -/
def execCounterRead (l : Fin 24) (f : BFrame) (s : State) : Host.Outcome State Fault Refusal :=
  .next (s.binReceive l { f with kind := 10 } (fun g me s =>
    match s.bound g me f.binding with
    | none => s
    | some (_, p) =>
      match (s.parts[p]).counterRef (f.arg0 / 2 ^ 43 % 32) (f.arg0 / 2 ^ 32 % 2048) with
      | none => s
      | some ctr =>
        let s := s.toTick p
        s.binTo g me f.src 11 f.binding f.arg0 0 (padTo 64 (leBytes 8 (s.counter ctr).value))))

/-- COUNTER_VALUE (R394, R405): the answer reaches the member that asked; its firmware has logged what it asked about. -/
def execCounterValue (l : Fin 24) (f : BFrame) (s : State) : Host.Outcome State Fault Refusal :=
  .next (s.binReceive l { f with kind := 11 } (fun _ _ s => s))

end Sys2Proof.Machine
end

