-- ==== Sys2Proof/Machine/TandemBar.lean ====
section
/-! DEFINITION. Barriers (R279 to R282, R401, R402, R405): the end of a round on the die, and the group-wide round of a partition
that a tandem binding names. -/

namespace Sys2Proof.Machine

/-! ## The group-wide round (R401) -/

/-- The round of a binding, or a new one that begins now. -/
def State.barRound (s : State) (id gen : Nat) : BarRound := (Table.get? s.tandem.rounds id).getD ⟨gen, [], s.clock, none, false⟩

/-- Change the round of a binding. -/
def State.setRound (s : State) (id : Nat) (r : BarRound) : State :=
  s.modTandem (fun t => { t with rounds := Table.put t.rounds id r })

/-- An entry of a generation is there. -/
def BarRound.has (r : BarRound) (gen pos : Nat) : Bool := Table.has r.entered (gen * 16 + pos)

/-- A member's entry of a generation. One that comes after the release was decided is held for the next round (R281). Entries of two generations
stand side by side: a member whose task has ended begins again with generation 0 (R286). -/
def BarRound.enter (r : BarRound) (gen pos : Nat) (digest : List Byte) : BarRound × Bool :=
  ({ r with entered := Table.put r.entered (gen * 16 + pos) digest, gen := if r.release.isSome then r.gen else gen }, r.release.isSome)

/-- The round after one that is over: the entries of the other generation. -/
def BarRound.next (r : BarRound) (now : Nat) : Option BarRound :=
  let l := r.entered.filter (fun e => e.1 / 16 != r.gen)
  if l.isEmpty then none else some ⟨1 - r.gen, l, now, none, false⟩

/-- The round of a binding is over. -/
def State.roundOver (s : State) (id : Nat) : State :=
  match Table.get? s.tandem.rounds id with
  | none => s
  | some r =>
    s.modTandem (fun t =>
      { t with rounds := match r.next s.clock with
          | some n => Table.put t.rounds id n
          | none => Table.del t.rounds id })

/-- One-way delay of a position's link in group-time cycles: measured here, or as that member reports it. -/
def State.linkDelay (s : State) (me x l : Nat) : Nat :=
  if x = me then (s.links[Fin.ofNat 24 l]).bin.delay
  else ((Table.get? s.tandem.reports x).map (fun r => r.delays.getD l 0)).getD 0

/-- One-way delay of the route from this member to a position: that of its links together (R400, R401). -/
def State.routeDelay (s : State) (g : GroupDesc) (me y : Nat) : Nat :=
  ((s.routeLinks g me me y).map (fun e => s.linkDelay me e.1 e.2.2)).foldl (· + ·) 0

/-- A round fails at this member (R402): the running task stops with CONFIG_SKEW, the binding is SKEWED, the PF and the log are told
the first position whose digest differed. -/
def State.failRound (s : State) (me : Nat) (b : BindDesc) (pos : Nat) : State :=
  let s : State := match b.local? me with
    | some p => s.stopTenant p .configSkew
    | none => s
  let s := (s.setBind me b .skewed).post 0 0x0578 .configSkew [w64 (pos * 2 ^ 8 + b.id)]
  s.log 0x0503 5 [w64 (pos * 2 ^ 8 + b.id)]

/-- The root decides a round that every member has entered in one generation, itself included (R401 steps 2 and 3, R402). -/
def State.decide (s : State) (g : GroupDesc) (me : Nat) (b : BindDesc) : State :=
  match Table.get? s.tandem.rounds b.id with
  | none => s
  | some r =>
    if r.release.isSome || b.members.any (fun m => !r.has r.gen m) then s
    else
      let others := b.members.filter (fun m => m != me)
      match b.members.find? (fun m => Table.get? r.entered (r.gen * 16 + m) != some s.configDigest) with
      | some pos => (others.foldl (fun s m => s.binTo g me m 5 b.id pos 0x90 []) s).failRound me b pos
      | none =>
        let t := s.groupTime + (others.map (fun m => s.routeDelay g me m)).foldl Nat.max 0 + 64
        (others.foldl (fun s m => s.binTo g me m 4 b.id t 0 []) s).setRound b.id { r with release := some t }

/-- This member's on-die entry has taken effect: it sends BAR_ENTER, or the root notes its own. -/
def State.enterGroup (s : State) (g : GroupDesc) (me : Nat) (b : BindDesc) (gen : Nat) : State :=
  let (r, _) := (s.barRound b.id gen).enter gen me s.configDigest
  let s := s.setRound b.id r
  if me = b.root then s.decide g me b else s.binTo g me b.root 3 b.id gen 0 (padTo 64 s.configDigest)

/-- BAR_ENTER (R401): the root notes a member's entry, in whatever state it holds the binding, and decides when all have entered. -/
def execBarEnter (l : Fin 24) (f : BFrame) (s : State) : Host.Outcome State Fault Refusal :=
  .next (s.binReceive l { f with kind := 3 } (fun g me s =>
    match s.ofBinding g me f.binding with
    | none => s
    | some (b, p) =>
      if me != b.root || !b.members.contains f.src then s
      else
        let (r, held) := (s.barRound b.id f.arg0).enter f.arg0 f.src (f.payload.take 48)
        let s := s.setRound b.id r
        let s := if held then s.count (vf p) .barHeld 1 else s
        s.decide g me b))

/-- BAR_RELEASE (R401): the root's release time for the round that this member has entered. -/
def execBarRelease (l : Fin 24) (f : BFrame) (s : State) : Host.Outcome State Fault Refusal :=
  .next (s.binReceive l { f with kind := 4 } (fun g me s =>
    match s.bound g me f.binding with
    | none => s
    | some (b, _) =>
      match Table.get? s.tandem.rounds b.id with
      | none => s
      | some r =>
        if f.src != b.root || !r.has r.gen me then s
        else s.setRound b.id { r with release := some f.arg0 }))

/-- BAR_FAIL (R402). -/
def execBarFail (l : Fin 24) (f : BFrame) (s : State) : Host.Outcome State Fault Refusal :=
  .next (s.binReceive l { f with kind := 5 } (fun g me s =>
    match s.bound g me f.binding with
    | none => s
    | some (b, _) => if f.src = b.root then s.failRound me b f.arg0 else s))

/-- TANDEM_RELEASE_TIME (R280, R401): group time reaches T_rel, the round completes, and the tick dividers of the partition's
clusters start again at that cycle. -/
def execTandemReleaseTime (bid : Fin 16) (s : State) : Host.Outcome State Fault Refusal :=
  .next (
    match s.member with
    | none => s
    | some (g, me) =>
      match s.bound g me bid.val, Table.get? s.tandem.rounds bid.val with
      | some (b, p), some r =>
        match r.release with
        | none => s
        | some t =>
          let s := s.advance (s.clockOfGroup t)
          match (s.taskCycle p), (s.lastEntry p).isSome with
          | some c, true =>
            ((s.completeRound p c true).modRunning p (fun x => { x with tickBase := c })).roundOver b.id
          | _, _ => s.roundOver b.id
      | _, _ => s)

/-- BARRIER_HELD_LONG (R405): a round has been open for 1 ms at the root: it asks the participants for their counters and logs who
has not entered. -/
def execBarrierHeldLong (bid : Fin 16) (s : State) : Host.Outcome State Fault Refusal :=
  .next (
    match s.member with
    | none => s
    | some (g, me) =>
      match s.bound g me bid.val, Table.get? s.tandem.rounds bid.val with
      | some (b, _), some r =>
        if me != b.root || r.release.isSome || r.heldReported then s
        else
          let s := (s.advance (r.since + ms)).setRound b.id { r with heldReported := true }
          let late := b.members.filter (fun m => !r.has r.gen m)
          let s := (b.members.filter (fun m => m != me)).foldl (fun s m => s.binTo g me m 10 b.id 0 0 []) s
          s.log 0x0504 5 [w64 (listMask late * 2 ^ 16 + b.id)]
      | _, _ => s)

/-! ## The end of a round on the die (R280, R282, R401) -/

/-- BARRIER_COMPLETE (R280, R401): every participant's entry has taken effect. Without a binding the round completes 40 cycles
later; in a partition whose binding is ACTIVE this member enters the group's round; while the binding is DOWN or SKEWED, or two
bindings name the partition, the cores go on waiting. -/
def execBarrierComplete (p : Fin 16) (s : State) : Host.Outcome State Fault Refusal :=
  .next (
    match (s.parts[p]).job.running, s.lastEntry p with
    | some r, some t =>
      match s.bindsOf p with
      | [] =>
        if r.stopped (t + 40) then s else (s.advance (r.clockOf (t + 40))).completeRound p (t + 40) false
      | [b] =>
        match s.member with
        | none => s
        | some (g, me) =>
          if r.stopped t || s.bindState b.id != .active then s
          else if (Table.get? s.tandem.rounds b.id).any (fun x => x.has (b2n (s.parts[p]).job.bar.gen) me) then s
          else (s.advance (r.clockOf t)).enterGroup g me b (b2n (s.parts[p]).job.bar.gen)
      | _ => s
    | _, _ => s)

end Sys2Proof.Machine
end

