-- ==== Sys2Proof/Machine/Info.lean ====
section
/-! DEFINITION. Information, calendar, budgets and logs (R432, R433, R435, R437 to R439, R486 to R497): GET_INFO, GET_STATUS,
SET_CALENDAR, SET_BUDGET, GET_ENERGY, CONFIG_DIGEST, LOG_READ, LIFETIME_READ, TRACE_READ, the counter store and the seconds
counter. -/

namespace Sys2Proof.Machine

open Sys2Proof.Machine.Crypto

/-! ## Identity and status (R432, R433) -/

/-- The running firmware image (R471). -/
def State.runningFw (s : State) : Option FwImage := s.nvm.fw.getD s.boot.fwSlot none

/-- The words of GET_INFO (R432). -/
def State.infoWords (s : State) (ch : Fin 17) : List W64 :=
  let f := s.runningFw
  [w64 (0x9032 * 2 ^ 48 + 2 ^ 40 + 2 ^ 32 + ch.val), (f.map FwImage.version).getD 0,
   w64 (s.boot.cfgSlot * 2 ^ 24 + s.boot.fwSlot * 2 ^ 16 + s.nvm.rollback * 2 ^ 8 + (f.map FwImage.svn).getD 0),
   w64 (8190 * 2 ^ 48 + 16384 * 2 ^ 32 + 16384 * 2 ^ 16 + 4096)] ++ bytesToWords 6 deviceFp

/-- GET_INFO. -/
def handleGetInfo : Handler := fun ch _ s => .done .ok (s.infoWords ch) s

/-- GET_INFO. -/
def execGetInfo (ch : Fin 17) (c : Cmd) (s : State) : Host.Outcome State Fault Refusal :=
  .next (s.submit handleGetInfo 0x0101 ch c)

/-- The words of GET_STATUS (R433): a VF reads 0 in the PF's fields. -/
def State.statusWords (s : State) (ch : Fin 17) : List W64 :=
  let pf := ch = 0
  [w64 ((if pf then s.activeMask * 2 ^ 48 + b2n s.rngAlarm * 2 ^ 10 else 0) + b2n s.power.throttle.isSome * 2 ^ 9
      + b2n s.power.hold.isSome * 2 ^ 8 + s.chState ch),
   w64 s.nvm.life.seconds, intW s.nvm.life.utc, if pf then s.bootProgress else 0]

/-- GET_STATUS. -/
def handleGetStatus : Handler := fun ch _ s => .done .ok (s.statusWords ch) s

/-- GET_STATUS. -/
def execGetStatus (ch : Fin 17) (c : Cmd) (s : State) : Host.Outcome State Fault Refusal :=
  .next (s.submit handleGetStatus 0x0102 ch c)

/-! ## The counter store and the calendar (R435, R487, R495) -/

/-- Write the counter store: one copy of 4 KiB, which is 512 words (R486, R487). -/
def State.storeCounters (s : State) : State :=
  let n := s.nvm.writing s.clock (.store s.nvm.store)
  let life := { n.life with nvmWrites := n.life.nvmWrites + 512 }
  { s with nvm := { n with life := life, store := n.store.write ⟨life, n.head, n.logSeq + 1⟩ } }

/-- COUNTER_STORE_WRITE (R487): every 60 s while the always-on rail is up, after a thermal trip too. -/
def execCounterStoreWrite (s : State) : Host.Outcome State Fault Refusal :=
  .next (
    if s.boot.phase = .off then s
    else
      let s := (s.advance s.nvm.nextStore).storeCounters
      { s with nvm := { s.nvm with nextStore := s.clock + 60 * sec } })

/-- The codewords that the FEC of the links has corrected, and those it could not, in the second that ends: what the lines do, so free values,
counted once a second for each link that is UP (DESIGN CHOICE). -/
def State.countFec (s : State) : State :=
  let up := (List.finRange 24).map (fun l => (s.links[l]).st == .up)
  let add (l : List Nat) (off : Nat) : List Nat := (List.range 24).map (fun i =>
    l.getD i 0 + if up.getD i false then Config.freeValue (s.free + off + i) else 0)
  { s with
    nvm := { s.nvm with life := { s.nvm.life with
      fecCorrected := add s.nvm.life.fecCorrected 0, fecUncorrected := add s.nvm.life.fecUncorrected 24 } }
    free := s.free + 48 }

/-- LIFETIME_SECOND (R495): the seconds counter advances while 12 V is valid. -/
def execLifetimeSecond (s : State) : Host.Outcome State Fault Refusal :=
  .next (
    if s.boot.phase = .off then s
    else
      let s := (s.advance s.nvm.nextSecond).countFec
      { s with nvm := { s.nvm with
          life := { s.nvm.life with seconds := s.nvm.life.seconds + 1 }, nextSecond := s.nvm.nextSecond + sec } })

/-- SET_CALENDAR (R435, R495): the offset is stored, logged and answered with the lifetime seconds. -/
def handleSetCalendar : Handler := fun _ r s =>
  let old := s.nvm.life.utc
  let new : Int := (word r.payload 0).toInt
  let s := { s with nvm := { s.nvm with life := { s.nvm.life with utc := new } } }
  let s := s.storeCounters.log 0x0307 3 [intW old, intW new]
  .done .ok [w64 s.nvm.life.seconds] s

/-- SET_CALENDAR. -/
def execSetCalendar (ch : Fin 17) (c : Cmd) (s : State) : Host.Outcome State Fault Refusal :=
  .next (s.submit handleSetCalendar 0x0104 ch c)

/-! ## Budgets and energy (R437, R451, R457) -/

/-- SET_BUDGET MODULE: held until the end of the cadence period. -/
def handleBudgetModule : Handler := fun ch r s =>
  let w := word r.payload 0
  let v := bits w 15 0
  if ch != 0 then .refuse .notPermitted
  else if nonZero w 63 32 || nonZero w 31 18 then .refuse .badParam
  else if v < 250 || v > 1500 then .refuse .badParam
  else if v < 180 + 5 * s.unitsHeld then .refuse .badState
  else .hold (.budgetModule v) s

/-- SET_BUDGET PARTITION: held until the end of the cadence period. -/
def handleBudgetPartition : Handler := fun ch r s =>
  let w := word r.payload 0
  let v := bits w 15 0
  let p := pid (bits w 35 32)
  if ch != 0 then .refuse .notPermitted
  else if nonZero w 63 36 || nonZero w 31 18 then .refuse .badParam
  else if v < 1 || v > 264 then .refuse .badParam
  else if (s.parts[p]).st != .active then .refuse .badState
  else if s.unitsHeld - (s.parts[p]).acct.units + v > s.poolUnits then .refuse .noResource
  else .hold (.budgetShare p.val v) s

/-- SET_BUDGET PSTATE (R457): from the next dispatch. -/
def handleBudgetPstate : Handler := fun ch r s =>
  let w := word r.payload 0
  let p := chanPart ch
  if ch = 0 then .refuse .notPermitted
  else if nonZero w 63 32 || nonZero w 31 18 then .refuse .badParam
  else if bits w 15 0 > 3 then .refuse .badParam
  else
    let s' := s.modPart p (fun q => { q with acct := { q.acct with reqP := bits w 1 0 } })
    .done (if s.taskRunning p then .powerDeferred else .ok) [] s'

/-- SET_BUDGET by its OP field; value 3 is reserved. -/
def handleSetBudget : Handler := fun ch r s =>
  match bits (word r.payload 0) 17 16 with
  | 0 => handleBudgetModule ch r s
  | 1 => handleBudgetPartition ch r s
  | 2 => handleBudgetPstate ch r s
  | _ => .refuse .badParam

/-- SET_BUDGET_MODULE. -/
def execSetBudgetModule (ch : Fin 17) (c : Cmd) (s : State) : Host.Outcome State Fault Refusal :=
  .next (s.submit handleSetBudget 0x0701 ch (cmdSel c 0 17 16 0))

/-- SET_BUDGET_PARTITION. -/
def execSetBudgetPartition (ch : Fin 17) (c : Cmd) (s : State) : Host.Outcome State Fault Refusal :=
  .next (s.submit handleSetBudget 0x0701 ch (cmdSel c 0 17 16 1))

/-- SET_BUDGET_PSTATE. -/
def execSetBudgetPstate (ch : Fin 17) (c : Cmd) (s : State) : Host.Outcome State Fault Refusal :=
  .next (s.submit handleSetBudget 0x0701 ch (cmdSel c 0 17 16 2))

/-- The words of GET_ENERGY (R437). -/
def State.energyWords (s : State) (ch : Fin 17) : List W64 :=
  if ch = 0 then [w64 s.power.deliveredMj, w64 s.power.budget, w64 s.unitsHeld]
  else
    let a := (s.parts[chanPart ch]).acct
    [w64 a.charged, intW a.balance, w64 (a.reqP * 2 ^ 18 + a.curP * 2 ^ 16 + a.units)]

/-- GET_ENERGY. -/
def handleGetEnergy : Handler := fun ch _ s => .done .ok (s.energyWords ch) s

/-- GET_ENERGY. -/
def execGetEnergy (ch : Fin 17) (c : Cmd) (s : State) : Host.Outcome State Fault Refusal :=
  .next (s.submit handleGetEnergy 0x0702 ch c)

/-! ## CONFIG_DIGEST (R438, R483) -/

/-- CONFIG_DIGEST. -/
def handleConfigDigest : Handler := fun _ _ s =>
  .done .ok (w64 ((s.activeRecord.map ConfigRec.seq).getD 0) :: bytesToWords 6 s.configDigest) s

/-- CONFIG_DIGEST. -/
def execConfigDigest (ch : Fin 17) (c : Cmd) (s : State) : Host.Outcome State Fault Refusal :=
  .next (s.submit handleConfigDigest 0x0802 ch c)

/-! ## The log (R488, R497) -/

/-- The words of a log record with its commit word (R488). -/
def LogRec.packet (r : LogRec) : List W64 :=
  let h := [w64 r.seq, w64 (r.kind * 2 ^ 48 + r.cls * 2 ^ 44 + r.data.length * 2 ^ 32 + r.source * 2 ^ 24 + r.suppressed),
    w64 r.lifetime, intW r.utc] ++ r.data
  h ++ [w64 (crc32c (wordsToBytes h) * 2 ^ 32 + 0x474C534B)]

/-- Whole records that fit into `n` words, and the cursor after them. -/
def takeRecords : Nat → Nat → List LogRec → List W64 × Nat
  | _, c, [] => ([], c)
  | n, c, r :: rs =>
    if r.words ≤ n then
      let (ws, c') := takeRecords (n - r.words) (r.seq + 1) rs
      (r.packet ++ ws, c')
    else ([], c)

/-- LOG_READ for payload words with a largest MAX (R439, R497, R498): a status and the reply. -/
def State.readLog (s : State) (top : Nat) (w : List W64) : Status × List W64 :=
  let n := bits (word w 0) 47 32
  let cur := (word w 1).toNat
  let here := s.nvm.log.filter (fun r => cur ≤ r.seq)
  if nonZero (word w 0) 63 48 || nonZero (word w 0) 31 0 then (.badParam, [])
  else if n < 1 || n > top then (.badParam, [])
  else if cur > s.nvm.logSeq + 1 then (.badParam, [])
  else
    match here with
    | [] => (.ok, [word w 1])
    | r :: _ =>
      if n < r.words then (.badLength, [])
      else
        let (ws, c) := takeRecords n r.seq here
        (.ok, w64 c :: ws)

/-- A read's status and words as what a handler decides. -/
def answerRead (s : State) (x : Status × List W64) : Handled := if x.1 = .ok then .done .ok x.2 s else .refuse x.1

/-- LOG_READ. -/
def handleLogRead : Handler := fun _ r s => answerRead s (s.readLog 8187 r.payload)

/-- LOG_READ. -/
def execLogRead (ch : Fin 17) (c : Cmd) (s : State) : Host.Outcome State Fault Refusal :=
  .next (s.submit handleLogRead 0x0901 ch c)

/-! ## Lifetime sections (R496) -/

/-- Section SUMMARY. -/
def State.summaryWords (s : State) : List W64 :=
  let l := s.nvm.life
  [w64 l.seconds, w64 (l.energyMj / 1000), w64 l.nvmWrites, w64 (l.coldResets * 2 ^ 32 + l.warmResets),
   w64 (l.trips * 2 ^ 32 + l.brownouts), w64 (l.throttles * 2 ^ 32 + l.holds), w64 s.nvm.creations, w64 s.nvm.serials]

/-- Section STACKS: two words for each site. -/
def State.stackWords (s : State) : List W64 :=
  (List.range 36).flatMap (fun t =>
    [w64 (s.nvm.life.hotSamples.getD t 0 / 100000),
     w64 (s.nvm.life.stackMax.getD t 0 * 2 ^ 52 + b2n (s.nvm.retiredSites.contains t) * 2 ^ 48
       + b2n (s.nvm.repairs.any (fun r => r.pool == 2 && !r.retire && r.site == t)) * 2 ^ 40
       + (s.nvm.repairs.filter (fun r => r.pool == 3 && !r.retire && r.site == t)).length * 2 ^ 23)])

/-- Section LINKS: three words for each link. -/
def State.linkWords (s : State) : List W64 :=
  (List.finRange 24).flatMap (fun l =>
    [w64 (s.nvm.life.fecCorrected.getD l.val 0), w64 (s.nvm.life.fecUncorrected.getD l.val 0),
     w64 (s.nvm.life.linkDowns.getD l.val 0 * 2 ^ 32 + b2n (s.links[l]).spareInUse)])

/-- A row of 36 readings as nine words, 0xFFFF for a retired site. -/
def State.readingWords (s : State) (l : List Nat) : List W64 :=
  bytesToWords 9 ((List.range 36).flatMap (fun t => leBytes 2 (if s.nvm.retiredSites.contains t then 0xFFFF else l.getD t 0)))

/-- Section LOG_STATE. -/
def State.logStateWords (s : State) : List W64 :=
  [w64 ((s.nvm.log.head?.map LogRec.seq).getD 0), w64 s.nvm.logSeq, w64 (logWords s.nvm.log), w64 s.nvm.life.withheld,
   w64 (((s.nvm.log.filter (fun r => r.kind == 0x0104)).getLast?.map LogRec.seq).getD 0)]

/-- A section by its number; 7 and above are reserved. -/
def State.section? (s : State) : Nat → Option (List W64)
  | 0 => some s.summaryWords
  | 1 => some s.sparesWords
  | 2 => some s.siteMapWords
  | 3 => some s.stackWords
  | 4 => some s.linkWords
  | 5 => some (s.readingWords s.power.logic ++ s.readingWords s.power.stack ++ s.readingWords s.nvm.life.logicMax)
  | 6 => some s.logStateWords
  | _ => none

/-- LIFETIME_READ for payload words: a status and the reply. -/
def State.readLifetime (s : State) (w : List W64) : Status × List W64 :=
  if nonZero (word w 0) 63 8 then (.badParam, [])
  else
    match s.section? (bits (word w 0) 7 0) with
    | some ws => (.ok, ws)
    | none => (.badParam, [])

/-- LIFETIME_READ. -/
def handleLifetimeRead : Handler := fun _ r s => answerRead s (s.readLifetime r.payload)

/-- LIFETIME_READ. -/
def execLifetimeRead (ch : Fin 17) (c : Cmd) (s : State) : Host.Outcome State Fault Refusal :=
  .next (s.submit handleLifetimeRead 0x0902 ch c)

/-! ## TRACE_READ (R439) -/

/-- The trace records of a partition from number `first` on, up to `n`, and the number after them. -/
def Partition.readTrace (q : Partition) (first n : Nat) : List W64 :=
  let oldest := q.traceCount - q.trace.length
  let i := Nat.max first oldest
  let l := (q.trace.drop (i - oldest)).take n
  w64 (i + l.length) :: l.flatMap (fun t => [t.t0, t.t1, t.t2, t.t3])

/-- TRACE_READ: on a VF while its debug scope is on, on the PF while the device scope is unlocked. -/
def handleTraceRead : Handler := fun ch r s =>
  let w := word r.payload 0
  let p := if ch = 0 then pid (bits w 3 0) else chanPart ch
  if !(if ch = 0 then s.debugAccess.unlocked else (s.parts[p]).debugOn) then .refuse .notPermitted
  else if nonZero w 63 48 || nonZero w 31 4 || (ch != 0 && nonZero w 3 0) || nonZero (word r.payload 1) 63 32 then
    .refuse .badParam
  else if bits w 47 32 < 1 || bits w 47 32 > 2046 then .refuse .badParam
  else if (s.parts[p]).st != .active then .refuse .badState
  else if bits (word r.payload 1) 31 0 > (s.parts[p]).traceCount then .refuse .badParam
  else .done .ok ((s.parts[p]).readTrace (bits (word r.payload 1) 31 0) (bits w 47 32)) s

/-- TRACE_READ. -/
def execTraceRead (ch : Fin 17) (c : Cmd) (s : State) : Host.Outcome State Fault Refusal :=
  .next (s.submit handleTraceRead 0x0A02 ch c)

end Sys2Proof.Machine
end

