-- ==== Sys2Proof/Machine/ConfigFw.lean ====
section
/-! DEFINITION. Configuration records and firmware images (R337 to R339, R430, R438, R478 to R485): CONFIG_WRITE, FW_STAGE and
FW_COMMIT. -/

namespace Sys2Proof.Machine

open Sys2Proof.Machine.Crypto

/-! ## Parts of a chain (R430) -/

/-- What a part of a CONFIG_WRITE or FW_STAGE chain makes of it. -/
inductive Part where
  /-- Refused by a row that comes before the rules of R430 (R519): it has no effect, and the chain stands. -/
  | refused (st : Status)
  /-- It breaks a rule of R430: the chain is abandoned. -/
  | bad
  /-- The chain as it stands after this part. -/
  | more (first : Bool) (c : Chain)
  /-- The last part: all the bytes. -/
  | whole (first : Bool) (bytes : List Byte)
  deriving DecidableEq, Repr

/-- The chain that a command continues: an ASYNC command carries its own. -/
def State.chainOf (s : State) (ch : Fin 17) (r : Req) : Option Chain := if r.async then r.chain else (s.chans[ch]).chain

/-- The number of data words is wrong for a part with its TOTAL and OFFSET: the last part carries what is left, any other no more. -/
def partLengthBad (total off words : Nat) (last : Bool) : Bool :=
  if last then off ≤ total && words != ceilDiv (total - off) 8 else off + 8 * words > total && off ≤ total

/-- Join a part to its chain: the reserved fields, ASYNC and the payload's length first (R431, R519), then the rules of R430. -/
def joinPart (op top : Nat) (c : Option Chain) (r : Req) : Part :=
  let total := bits (word r.payload 0) 31 0
  let off := bits (word r.payload 1) 31 0
  let old := (c.map Chain.bytes).getD []
  let data := wordsToBytes (r.payload.drop 2)
  if (r.async && !r.last) || nonZero (word r.payload 0) 63 32 || nonZero (word r.payload 1) 63 32 then .refused .badParam
  else if partLengthBad total off (r.payload.drop 2).length r.last then .refused .badLength
  else if total > top || off > total || off != old.length || c.any (fun k => k.total != total)
      || (r.last && (data.drop (total - off)).any (· != 0)) then .bad
  else if r.last then .whole c.isNone (old ++ data.take (total - off))
  else .more c.isNone ⟨op, total, old ++ data⟩

/-- Set the chain of a channel; that of an ASYNC command has gone with it. -/
def State.setChain (s : State) (ch : Fin 17) (r : Req) (c : Option Chain) : State :=
  if r.async then s else s.modChan ch (fun k => { k with chain := c })

/-- Refuse a part and abandon its chain. -/
def State.refusePart (s : State) (ch : Fin 17) (r : Req) (st : Status) : Handled :=
  .done st [] ((s.setChain ch r none).count ch .cmdRefused 1)

/-! ## CONFIG_WRITE (R478 to R482) -/

/-- Count 64-bit words written to the NVM (R496). -/
def State.wroteNvm (s : State) (n : Nat) : State :=
  { s with nvm := { s.nvm with life := { s.nvm.life with nvmWrites := s.nvm.life.nvmWrites + n } } }

/-- This module and the keyed peer of a Binigal link are both listed in the active tandem section (R389, R482). -/
def State.peerListed (s : State) (l : Fin 24) : Bool :=
  match s.group with
  | some g => g.position.isSome && g.fps.contains (s.links[l]).bin.peer
  | none => false

/-- The bindings of an older section that the active one does not list any more are DOWN, and reports of another fleet list are
forgotten. -/
def State.dropBinds (s : State) (old : Option GroupDesc) : State :=
  let s := s.modTandem (fun t =>
    { t with sentReport := [], reached := [], reports := if old.map GroupDesc.fps = s.group.map GroupDesc.fps then t.reports else [] })
  match old with
  | none => s
  | some g =>
    match g.position with
    | none => s
    | some me =>
      (g.binds.filter (fun b => !s.group.any (fun h => h.binds.any (fun x => x.id == b.id)))).foldl (fun s b => s.setBind me b .down) s

/-- What the activation of a record sets off (R482): every binding is evaluated again and reported, and a Binigal link whose peer
is no longer listed retrains. -/
def State.activated (s : State) (old : Option GroupDesc) : State :=
  let s := (s.dropBinds old).bindingsEval
  (List.finRange 24).foldl (fun s l =>
    if (s.links[l]).mode = 3 && ((s.links[l]).bin.keyed || (s.links[l]).st = .up) && !s.peerListed l then s.retrain l else s) s

/-- Write a record into a slot: its header is zeroed, then the body is written, then the header (R481 steps 1 to 3). A worn slot does not keep
the SIGNATURE that is written to it. -/
def State.storeRecord (s : State) (slot : Nat) (r : ConfigRec) : State :=
  let n := s.nvm.writing s.clock (.config slot (s.nvm.cfg.getD slot none) r)
  let kept := if n.cfgWorn.contains slot then { r with nonce := none } else r
  { s with nvm := { n with cfg := setAt n.cfg slot (some kept) } }.wroteNvm r.writes

/-- Read a slot back and check it under R480 (R481 step 4). -/
def State.readBack (s : State) (slot : Nat) : Bool := (s.nvm.cfg.getD slot none).any ConfigRec.valid

/-- Write a record into the slot that is not active, and make it active if it reads back (R481). -/
def State.writeConfig (s : State) (body : List Byte) : Status × List W64 × State :=
  let slot := 1 - s.boot.cfgSlot
  let seq := (s.activeRecord.map ConfigRec.seq).getD 0 + 1
  let (k, s) := s.deviceDraw 56
  let s := s.storeRecord slot (ConfigRec.made seq body (scalarOf k))
  if s.readBack slot then
    let d := bytesToWords 6 (sha384 body)
    let old := s.group
    let s := { s with boot := { s.boot with cfgSlot := slot } }
    (.ok, w64 seq :: d, (s.log 0x0304 3 (w64 slot :: w64 seq :: d)).activated old)
  else
    let (a, s) := s.fresh
    let s := { s with nvm := { s.nvm with cfg := setAt s.nvm.cfg slot (some { ConfigRec.blank with body := body }) } }
    (.deviceFault, [], (s.wroteNvm 32).log 0x0306 3 [2, w64 a])

/-- CONFIG_WRITE. A last part that joins ends its chain, whatever becomes of the body (DESIGN CHOICE). -/
def handleConfigWrite : Handler := fun ch r s =>
  match joinPart 0x0801 1048576 (s.chainOf ch r) r with
  | .refused st => s.returnPart ch r st
  | .bad => s.refusePart ch r .badParam
  | .more _ c => .done .accepted [] (s.setChain ch r (some c))
  | .whole _ body =>
    if !bodyOk tandemOk body then s.refusePart ch r .badParam
    else
      match (s.setChain ch r none).writeConfig body with
      | (.ok, ws, s) => .done .ok ws s
      | (st, _, s) => .done st [] (s.count ch .cmdRefused 1)

/-- CONFIG_WRITE. -/
def execConfigWrite (ch : Fin 17) (c : Cmd) (s : State) : Host.Outcome State Fault Refusal :=
  .next (s.submit handleConfigWrite 0x0801 ch c)

/-! ## Firmware images (R337 to R339) -/

/-- Check 1 of R338. -/
def imageFormOk (b : List Byte) : Bool :=
  let f (o n : Nat) : Nat := leNat ((b.drop o).take n)
  4096 ≤ b.length && f 0 4 == 0x4A4E4B53 && f 4 2 == 1 && f 6 1 < 4 && f 7 1 < 16 && f 8 1 ≤ 128
    && ((b.take 16).drop 9).all (· == 0) && ((b.take 4096).drop 272).all (· == 0) && f 24 8 ≤ 33554432
    && f 24 8 == b.length - 4096 && !(f 7 1).testBit (f 6 1)

/-- Check 2 of R338: the signer is not revoked, and its key is the fused one. -/
def Nvm.signerOk (n : Nvm) (b : List Byte) : Bool :=
  let k := leNat ((b.drop 6).take 1)
  !n.revokes.testBit k && sha384 ((b.drop 80).take 96) == beBytes 48 (Config.signerHash k).toNat

/-- Checks 3 and 4 of R338. -/
def imageSigned (b : List Byte) : Bool :=
  ecdsaVerify ((b.drop 80).take 96) (b.take 176) ((b.drop 176).take 96) && sha384 (b.drop 4096) == (b.drop 32).take 48

/-- The header fields of an image. -/
def imageOf (b : List Byte) : FwImage :=
  ⟨leNat ((b.drop 6).take 1), leNat ((b.drop 7).take 1), leNat ((b.drop 8).take 1), w64 (leNat ((b.drop 16).take 8)),
    (b.drop 32).take 48⟩

/-- The checks of R338 in order, with the statuses of R438. -/
def Nvm.checkImage (n : Nvm) (b : List Byte) : Option Status :=
  if !imageFormOk b then some .badParam
  else if !n.signerOk b || !imageSigned b then some .authFailed
  else if (imageOf b).svn < n.rollback then some .notPermitted
  else none

/-- An image that a slot holds is acceptable now: its signer is not revoked and its SVN is high enough; its other checks cannot
change (R338). -/
def Nvm.acceptable (n : Nvm) (slot : Nat) : Bool :=
  match n.fw.getD slot none with
  | some i => !n.revokes.testBit i.signer && n.rollback ≤ i.svn
  | none => false

/-- The committed slot: the valid boot-control copy with the higher count names it; slot A where none is valid (R471, chapter 18). -/
def Nvm.committed (n : Nvm) : Nat := n.bootCtl.standing.getD 0

/-- A first part zeroes the header of the slot (R484). -/
def State.zeroSlot (s : State) (slot : Nat) : State :=
  { s with nvm := { s.nvm with fw := setAt s.nvm.fw slot none } }.wroteNvm 512

/-- FW_STAGE (R438, R484): the slot that is not running, unless it is the committed one. -/
def handleFwStage : Handler := fun ch r s =>
  let slot := 1 - s.boot.fwSlot
  let n := (r.payload.drop 2).length
  let start (first : Bool) (s : State) : State := if first then s.zeroSlot slot else s
  match joinPart 0x0803 (33554432 + 4096) (s.chainOf ch r) r with
  | .refused st => s.returnPart ch r st
  | .bad => s.refusePart ch r .badParam
  | .more first c =>
    if s.nvm.committed = slot then s.returnPart ch r .badState
    else .done .accepted [] (((start first s).wroteNvm n).setChain ch r (some c))
  | .whole first b =>
    if s.nvm.committed = slot then s.returnPart ch r .badState
    else
      let s := ((start first s).wroteNvm n).setChain ch r none
      match s.nvm.checkImage b with
      | some st => .done st [] ((s.zeroSlot slot).count ch .cmdRefused 1)
      | none =>
        let i := imageOf b
        .done .ok [w64 slot, i.version, w64 i.svn] { s with nvm := { s.nvm with fw := setAt s.nvm.fw slot (some i) } }

/-- FW_STAGE. -/
def execFwStage (ch : Fin 17) (c : Cmd) (s : State) : Host.Outcome State Fault Refusal :=
  .next (s.submit handleFwStage 0x0803 ch c)

/-- Steps 2 and 3 of R485 for the image of a slot: the anti-rollback counter rises to its SVN, and the signers it names are revoked (R339). What
an interrupted commit of another slot still owes stays due. -/
def Nvm.blowFuses (n : Nvm) (slot : Nat) (i : FwImage) : Nvm :=
  let rest := (n.fusesDue.filter (fun d => d.slot != slot)).map
    (fun d => ⟨d.slot, Nat.max d.antiRollback i.svn, d.revoked ||| i.revoke⟩)
  { n with antiRollback := Nat.max n.antiRollback i.svn, revoked := n.revoked ||| i.revoke, fusesDue := rest }

/-- Steps 1 to 3 of R485: the boot-control copy with the lower count names the slot, under the higher count + 1; then the fuses. -/
def State.commitSlot (s : State) (slot : Nat) (i : FwImage) : State :=
  let n := s.nvm.writing s.clock (.control s.nvm.bootCtl)
  let n := { n with bootCtl := n.bootCtl.write slot }.writing s.clock (.fuses ⟨slot, n.rollback, n.revokes⟩)
  { s with nvm := n.blowFuses slot i }.wroteNvm 2

/-- FW_COMMIT (R438, R485). -/
def handleFwCommit : Handler := fun _ r s =>
  let slot := bits (word r.payload 0) 0 0
  if nonZero (word r.payload 0) 63 1 then .refuse .badParam
  else if !s.nvm.acceptable slot then .refuse .badState
  else
    match s.nvm.fw.getD slot none with
    | none => .refuse .badState
    | some i =>
      .done .ok [] ((s.commitSlot slot i).log 0x0303 3 [w64 (i.svn * 2 ^ 8 + slot), i.version])

/-- FW_COMMIT. -/
def execFwCommit (ch : Fin 17) (c : Cmd) (s : State) : Host.Outcome State Fault Refusal :=
  .next (s.submit handleFwCommit 0x0804 ch c)

end Sys2Proof.Machine
end

