-- ==== Sys2Proof/Machine/Boot.lean ====
section
/-! DEFINITION. Power-up, resets and boot (R29, R318, R461, R466 to R477, R480, R485, R492, R495, R507, R510): the timeline and
its steps, field repair, firmware slots, the choice of the configuration record, the four reset types, and the pins that
take part. -/

namespace Sys2Proof.Machine

open Sys2Proof.Machine.Crypto

/-! ## What a reset loses (R473) -/

/-- A bank both of whose sources are retired (R299). -/
def Nvm.bankDead (n : Nvm) (b : Nat) : Bool := n.retiredSources.contains (b, 0) && n.retiredSources.contains (b, 1)

/-- The role of a bank at boot (R292, R304): a spare by the fuses and by the takeovers in the log, out of use, or free to be owned. -/
def Nvm.bankRole (n : Nvm) (b : Nat) : BankRole :=
  if n.bankDead b then .none else if n.spareBanks.contains b then .spare else .unallocated

/-- The part without its volatile state: non-volatile memory and fuses, wall time, the last sensor and supply readings, the input
pins and the management target stay. No write of the NVM is under way any more. -/
def State.loseVolatile (s : State) (ph : Phase) : State :=
  { State.reset with
    pending := s.pending, clock := s.clock, nvm := { s.nvm with writes := [] }, i3c := s.i3c, out := s.out, free := s.free, rngAlarm := s.rngAlarm
    banks := Vector.ofFn (fun b : Fin 18 => Bank.reset (s.nvm.bankRole b.val))
    boot := { Boot.reset with
      phase := ph, cfgBefore := if s.boot.step = 6 && s.boot.cfgSlot < 2 then some s.boot.cfgSlot else s.boot.cfgBefore, perst := s.boot.perst
      resetLow := s.boot.resetLow, refclkPin := s.boot.refclkPin }
    power := { Power.reset with
      logic := s.power.logic, stack := s.power.stack, lastMv := s.power.lastMv, nextSensor := s.power.nextSensor
      nextSupply := s.power.nextSupply } }

/-- Append a RESET record (R491): the cause is the row of R472, which is that of the type. -/
def State.logReset (s : State) (type : Nat) (force : Bool) : State :=
  s.logFrom 0 0x0005 0 [w64 (type * 2 ^ 8 + b2n force * 2 ^ 2 + type)]

/-! ## Steps of the timeline (R466) -/

/-- A step that cannot complete (R470): every channel stays BOOTING, and the management port answers all the same. -/
def State.bootFail (s : State) (n reason : Nat) : State :=
  { s with boot := { s.boot with failStep := n }, i3c := { s.i3c with up := true } }.logFrom 0 0x0002 0 [w64 (reason % 65536 * 2 ^ 16 + n)]

/-- STEP 1: the ROM runs, the PCIe endpoint is released, the reference clock is chosen by what stands at the pin (R507), the management port
answers. -/
def State.bootRom (s : State) : State :=
  { s with boot := { s.boot with pcieUp := true, refclkCommon := s.boot.refclkPin }, i3c := { s.i3c with up := true } }

/-- The level of the REFCLK pin that an event brings. -/
def State.atRefclk (s : State) (e : BootEvents) : State := { s with boot := { s.boot with refclkPin := e.refclk } }

/-- The slot a boot takes (R471): the one it tries first, or the other where that one is not acceptable. -/
def State.bootChoice (s : State) : Option Nat :=
  let b := s.boot.bootSlot
  if s.nvm.acceptable b then some b else if s.nvm.acceptable (1 - b) then some (1 - b) else none

/-- STEP 2: the image runs; fuse steps of its commit that are still due are completed (R485). -/
def State.bootFirmware (s : State) : Option State :=
  s.bootChoice.map (fun b =>
    let n : Nvm := match s.nvm.fusesDue, s.nvm.fw.getD b none with
      | some d, some i => if d.slot = b then s.nvm.blowFuses b i else s.nvm
      | _, _ => s.nvm
    { s with boot := { s.boot with fwSlot := b }, nvm := n })

/-! ### Field repair (R27, R29, R468, R469) -/

/-- Repairs of a pool made on a site. -/
def Nvm.repaired (n : Nvm) (pool site : Nat) : List Repair :=
  n.repairs.filter (fun r => r.pool == pool && r.site == site && !r.retire)

/-- Retire a site in a repair state: its logical cluster moves to the lowest healthy spare; 0xFF stands where no spare is left (DESIGN
CHOICE). -/
def Spares.retire (x : Spares) (pool site element : Nat) : Spares :=
  let y : Spares := { x with retiredSites := x.retiredSites ++ [site], repairs := x.repairs ++ [⟨pool, site, element, true⟩] }
  match leastBelow 32 (fun c => x.siteMap.getD c 0xFF == site) with
  | some c => { y with siteMap := setAt y.siteMap c (y.sites.headD 0xFF) }
  | none => y

/-- Repair a defect in a repair state. -/
def Spares.repair (x : Spares) (pool site element : Nat) : Spares := { x with repairs := x.repairs ++ [⟨pool, site, element, false⟩] }

/-- The NVM with another repair state. -/
def Nvm.withSpares (n : Nvm) (x : Spares) : Nvm := { n with repairs := x.repairs, retiredSites := x.retiredSites, siteMap := x.siteMap }

/-- What a REPAIR or RETIRE record says (R491), applied to a repair state. -/
def Spares.apply (x : Spares) (r : LogRec) : Spares :=
  let w := word r.data 0
  if r.kind = 0x0101 then x.repair (bits w 3 0) (bits w 15 8) (bits w 47 16)
  else if r.kind = 0x0102 then x.retire (bits w 3 0) (bits w 15 8) (bits w 47 16)
  else x

/-- The records after the newest SNAPSHOT; none where the log holds no SNAPSHOT. -/
def afterSnapshot : List LogRec → Option (List LogRec)
  | [] => none
  | r :: rs =>
    match afterSnapshot rs with
    | some l => some l
    | none => if r.kind == 0x0104 then some rs else none

/-- Steps 1 and 2 of R468: the repairs fused at manufacture, then the newest SNAPSHOT present and every REPAIR and RETIRE record after it (R492).
Retired sources and spare banks that have gone are kept as they are: they stay so across every reset (R299). -/
def Nvm.applyLog (n : Nvm) : Nvm :=
  match afterSnapshot n.log with
  | some l => n.withSpares (l.foldl Spares.apply n.snap)
  | none => n.withSpares (n.log.foldl Spares.apply ⟨n.fused, [], List.range 32⟩)

/-- Retire a site, and log it. -/
def State.retireSite (s : State) (pool site element : Nat) : State :=
  if s.nvm.retiredSites.contains site then s
  else
    let c := leastBelow 32 (fun c => s.nvm.siteMap.getD c 0xFF == site)
    let n := s.nvm.withSpares (s.nvm.spares.retire pool site element)
    { s with nvm := { n with pendingRetire := n.pendingRetire.filter (fun x => x != site) } }.log 0x0102 1
      [w64 (element * 2 ^ 16 + site * 2 ^ 8 + pool), w64 (c.getD 0xFF)]

/-- Repair a defect from its pool. -/
def State.repairSite (s : State) (pool site element : Nat) : State :=
  { s with nvm := s.nvm.withSpares (s.nvm.spares.repair pool site element) }.log 0x0101 1
    [w64 (element * 2 ^ 16 + site * 2 ^ 8 + pool)]

/-- The pool of R27 still covers a defect: cells per engine, dies and lanes per stack, rows per array (an element's bits from 8 up name the
engine or the array, DESIGN CHOICE). -/
def Nvm.covers (n : Nvm) (pool site element : Nat) : Bool :=
  match pool with
  | 1 => ((n.repaired 1 site).filter (fun r => r.element / 256 == element / 256)).length < 4
  | 2 => (n.repaired 2 site).isEmpty
  | 3 => (n.repaired 3 site).length < 256
  | 4 => ((n.repaired 4 site).filter (fun r => r.element / 256 == element / 256)).length < (Config.spareSramRows site (element / 256)).toNat
  | _ => false

/-- A new defect that the self-test finds: pools 0 to 4 belong to sites; the others are not tested here (R468). -/
def State.found (s : State) (d : Nat × Nat × Nat) : Bool :=
  d.1 ≤ 4 && (d.2.1 < 36 || (d.1 = 4 && d.2.1 = ledgerSite)) && !s.nvm.retiredSites.contains d.2.1

/-- Step 4 of R468 for one defect: it is repaired from its pool, or kept for step 5 where the pool cannot cover it. -/
def State.fieldRepair (x : State × List (Nat × Nat × Nat)) (d : Nat × Nat × Nat) : State × List (Nat × Nat × Nat) :=
  if x.1.nvm.covers d.1 d.2.1 d.2.2 then (x.1.repairSite d.1 d.2.1 d.2.2, x.2) else (x.1, x.2 ++ [d])

/-- Sites marked for retirement while the part ran: each is retired if a spare remains (R29). Its record names pool 0, the sites, and element 0
(DESIGN CHOICE: the manual does not say which pool and element it names; log 148). -/
def State.retirePending (s : State) : State :=
  s.nvm.pendingRetire.foldl (fun s t => if s.spareSites.any (fun x => x != t) then s.retireSite 0 t 0 else s) s

/-- STEP 3 (R468): the log's repairs are applied, each new defect is repaired from its pool, and then the sites of the others and the marked
sites are retired. -/
def State.bootRepair (s : State) (e : BootEvents) : State :=
  let s := { s with nvm := s.nvm.applyLog }
  let (s, rest) := (e.defects.filter s.found).foldl State.fieldRepair (s, [])
  (rest.foldl (fun s d => s.retireSite d.1 d.2.1 d.2.2) s).retirePending

/-- The 32 logical clusters and the ledger are sound (R29). -/
def State.complete (s : State) : Bool :=
  s.nvm.siteMap.all (fun t => t < 36) && !s.nvm.repairs.any (fun r => r.retire && r.site == ledgerSite)

/-! ### Random numbers, identity, configuration -/

/-- A source at cold reset (R299, R300). -/
def Nvm.sourceAt (n : Nvm) (b i : Nat) : Source :=
  if n.retiredSources.contains (b, i) then { Source.reset with st := .retired } else Source.reset

/-- STEP 4: at a cold reset every source that is not retired begins its startup test; through a boot that starts again as a warm one the
sources keep running (R300). -/
def State.bootRandom (s : State) : State :=
  if s.boot.noise then s
  else
    { s with
      boot := { s.boot with noise := true }
      banks := Vector.ofFn (fun b : Fin 18 =>
        { Bank.reset (s.nvm.bankRole b.val) with src0 := s.nvm.sourceAt b.val 0, src1 := s.nvm.sourceAt b.val 1 }) }

/-- STEP 5: the device DRBG is instantiated from the device pool; the scrambling key is drawn, once in a cold reset (R473), and the identity and binding keys are
derived (R309, R312, R318). -/
def State.bootIdentity (s : State) : State :=
  let (e, s) := s.poolSeed
  let s := { s with devDrbg := Drbg.instantiate e [] }
  let (k, s) := if s.boot.scrambleKey.isEmpty then s.deviceDraw 32 else (s.boot.scrambleKey, s)
  { s with boot := { s.boot with scrambleKey := k } }.deriveIdentity

/-- The valid configuration slot with the higher SEQUENCE (R480). -/
def Nvm.bestConfig (n : Nvm) : Option Nat :=
  let v (i : Nat) : Option Nat := ((n.cfg.getD i none).filter ConfigRec.valid).map ConfigRec.seq
  match v 0, v 1 with
  | some a, some b => some (if b > a then 1 else 0)
  | some _, none => some 0
  | none, some _ => some 1
  | none, none => none

/-- The part of STEP 6 that a warm reset leaves out: the active record, the budget it names, and the periodic moments. -/
def State.bootConfig (s : State) (e : BootEvents) : State :=
  let s := { s with nvm := { s.nvm with
    cfg := e.worn.foldl (fun l i => setAt l i none) s.nvm.cfg, cfgWorn := s.nvm.cfgWorn ++ e.worn } }
  let next (n : Nat) : Nat := (s.clock / n + 1) * n
  let s := { s with
    power := { s.power with nextPeriod := next (100 * us), nextSensor := next (10 * us), nextSupply := next (100 * ns) }
    tandem := { s.tandem with nextCalibrate := s.clock } }
  match s.nvm.bestConfig with
  | none => { s with boot := { s.boot with cfgSlot := 2 } }
  | some i =>
    let s := { s with boot := { s.boot with cfgSlot := i } }
    let s := { s with power := { s.power with budget := ((s.activeSection 3).map leNat).getD 1500 } }
    if s.boot.cfgBefore.any (fun b => b != i) then
      s.log 0x0305 3 [w64 i, w64 ((s.activeRecord.map ConfigRec.seq).getD 0)]
    else s

/-- Pools of R27 with nothing left, as section SPARES counts them (R496). -/
def State.emptyPools (s : State) : List Nat :=
  let spareBanks := (List.finRange 18).filter (fun b => (s.banks[b]).role = .spare && (s.banks[b]).stateCode != 4)
  let used (g : Nat) : Bool := (List.finRange 24).any (fun l => l.val / 6 == g && (s.links[l]).spareInUse)
  ((List.range 8).zip
    [s.spareSites.isEmpty, 1024 ≤ (s.repairsOf 1).length,
      s.nvm.siteMap.all (fun t => s.repairsAt 2 t != 0), s.nvm.siteMap.any (fun t => s.repairsAt 3 t ≥ 256),
      s.rowsLeft = 0, spareBanks.isEmpty, (List.range 4).all used,
      !(s.nvm.cfg.any (fun r => r.any ConfigRec.valid)) || !([0, 1].any s.nvm.acceptable)]).filterMap (fun x => if x.2 then some x.1 else none)

/-- The end of STEP 6 (R446, R492, R496): the part enters service, or shows DEVICE_FAULT. `type` is the reset type. -/
def State.bootReady (s : State) (type : Nat) : State :=
  let old := s
  let good := s.complete && s.boot.cfgSlot < 2
  let t := (s.clock - s.boot.attemptAt) / ms
  let s := { s with boot := { s.boot with phase := if good then .ready else .deviceFault, step := 6, readyAt := s.clock, timeouts := [0, 0] } }
  let s := s.logFrom 0 0x0001 0 [w64 (t * 2 ^ 32 + s.boot.fwSlot * 2 ^ 8 + type)]
  let s := s.logSnapshot
  let s := if s.emptyPools.isEmpty then s else s.post 0 0x0910 .ok [w64 (listMask s.emptyPools)]
  State.noteCredits old (State.noteStates old s)

/-- One step of the timeline by the STEP value it gives; none where it cannot complete. -/
def State.bootStage (s : State) (warm : Bool) (type top : Nat) (e : BootEvents) : Nat → Option State
  | 1 => some s.bootRom
  | 2 => s.bootFirmware
  | 3 => some (if warm then s.retirePending else s.bootRepair e)
  | 4 => some s.bootRandom
  | 5 => some s.bootIdentity
  | 6 =>
    let s := s.advance (s.boot.attemptAt + Nat.min e.ms top * ms)
    some ((if warm then s else s.bootConfig e).bootReady type)
  | _ => none

/-- Run steps in order until one stops (R470) or hangs (R471). -/
def State.bootRun (warm : Bool) (type top : Nat) (e : BootEvents) : List Nat → State → State
  | [], s => s
  | n :: ns, s =>
    if e.reaches < n then (if e.fails then s.bootFail n e.reason else s)
    else
      match s.bootStage warm type top e n with
      | some s => State.bootRun warm type top e ns { s with boot := { s.boot with step := n } }
      | none => s.bootFail n e.reason

/-! ## Cold and warm starts -/

/-- The timeline from its step 2 on, for a cold reset whose start is now (R466, R474). -/
def State.startTimeline (s : State) (force : Bool) (e : BootEvents) : State :=
  let s := (s.atRefclk e).loseVolatile .booting
  let n := s.nvm.scan
  let s := { s with
    boot := { s.boot with start := s.clock, attemptAt := s.clock, pwrGood := true, bootSlot := n.committed }
    nvm := { n with life := { n.life with coldResets := n.life.coldResets + 1 } } }
  State.bootRun false 1 1500 e [1, 2, 3, 4, 5, 6] (s.logReset 1 force)

/-- A cold reset that does not remove power; with RESET_N low the part holds at step 2 (R474, R510). -/
def State.coldReset (s : State) (force : Bool) (e : BootEvents) : State :=
  if s.boot.resetLow then (s.atRefclk e).loseVolatile .inReset else s.startTimeline force e

/-- A boot has stopped (R470): only RESET_N or a power cycle starts the timeline again. -/
def State.bootStopped (s : State) : Bool := s.boot.phase = .booting && s.boot.failStep != 0

/-- A cold reset that the supply asks for (R462); a boot that has stopped stays so. -/
def State.supplyReset (s : State) (e : BootEvents) : State := if s.bootStopped then s else s.coldReset false e

/-- POWER_UP (R466, R495): 12 V becomes valid. The counters return as they were last stored, and lifetime resumes past the newest
record. -/
def execPowerUp (e : BootEvents) (s : State) : Host.Outcome State Fault Refusal :=
  .next (
    if s.boot.phase != .off then s
    else
      let newest := (s.nvm.log.getLast?.map LogRec.lifetime).getD 0
      let life := { s.nvm.stored with seconds := Nat.max s.nvm.stored.seconds newest + 1 }
      let s := { s with nvm := { s.nvm with life := life, nextSecond := s.clock + sec, nextStore := s.clock + 60 * sec } }
      s.coldReset false e)

/-- BOOT_TIMEOUT (R471, R472): a boot that has not reached STEP 6 within 1.5 s starts again from step 4, from the other slot after
three timeouts on one, and stops after three on each. That of a warm reset takes the steps of R475 again. A ROM that had not come to STEP 1 has
come to it then (DESIGN CHOICE: the manual does not say). -/
def execBootTimeout (e : BootEvents) (s : State) : Host.Outcome State Fault Refusal :=
  .next (
    let b := s.boot
    if b.phase != .booting || b.failStep != 0 || b.step = 6 then s
    else
      let s := (s.advance (b.attemptAt + 1500 * ms)).atRefclk e
      let s := if b.step = 0 then s.bootRom else s
      let slot := if b.step ≥ 2 then b.fwSlot else b.bootSlot
      let n := b.timeouts.getD slot 0 + 1
      let ts := setAt b.timeouts slot n
      let s := { s with boot := { s.boot with timeouts := ts } }.logFrom 0 0x0003 0 [w64 (Nat.min n 15 * 2 ^ 8 + slot)]
      if ts.all (fun x => x ≥ 3) then s.bootFail b.step e.reason
      else
        let s : State :=
          if n ≥ 3 && s.nvm.acceptable (1 - slot) then
            { s with boot := { s.boot with bootSlot := 1 - slot } }.logFrom 0 0x0004 0
              [w64 (s.nvm.committed * 2 ^ 8 + (1 - slot))]
          else { s with boot := { s.boot with bootSlot := slot } }
        let s := { s with
          boot := { s.boot with step := 1, attemptAt := s.clock }
          nvm := { s.nvm with life := { s.nvm.life with warmResets := s.nvm.life.warmResets + 1 } } }
        State.bootRun b.warm 0 1500 e (if b.warm then [2, 3, 6] else [2, 3, 4, 5, 6]) (s.logReset 0 false))

/-- A channel through a warm reset (R446, R473): what the host has written and nobody has taken is gone, with everything held;
replies, events, counts, sequence and session stay. -/
def Channel.warm (c : Channel) : Channel :=
  { c with partialCmd := [], waiting := [], cmdLost := false, held := none, asyncs := [], chain := none }

/-- Step 1 of R475 for one partition. -/
def State.warmDestroy (s : State) (p : Fin 16) : State :=
  match (s.parts[p]).st with
  | .absent => s
  | .active => (s.beginDestruction p).endDestruction p true
  | _ => s.endDestruction p true

/-- A warm reset (R475): partitions are destroyed, links lose their keys and retrain, the firmware is verified again, marked sites
are retired. -/
def State.warmReset (s : State) (force : Bool) (e : BootEvents) : State :=
  let old := s
  let top := if s.nvm.pendingRetire.isEmpty then 200 else 550
  let s := { s with nvm := { s.nvm with life := { s.nvm.life with warmResets := s.nvm.life.warmResets + 1 } } }.logReset 0 force
  let s := { s with boot := { s.boot with phase := .booting, step := 1, attemptAt := s.clock, timeouts := [0, 0], warm := true } }
  let s := State.noteStates old s
  let s := allParts.foldl State.warmDestroy s
  let s := { s.dropAllLinks.bindingsEval with chans := s.chans.map Channel.warm }
  let s := { s with boot := { s.boot with bootSlot := s.nvm.committed } }
  State.bootRun true 0 top e [2, 3, 6] s

/-! ## RESET_DEVICE (R434, R472 to R477) -/

/-- A link is named by a partition or by the tandem section (R434). -/
def State.linkNamed (s : State) (l : Fin 24) : Bool :=
  allParts.any (fun p => (s.parts[p]).exists' && (s.parts[p]).linkMask.testBit l.val) || s.linkInGroup l

/-- The module resets as a command asks. -/
def State.beginReset (s : State) (r : Req) (e : BootEvents) : State :=
  let w := word r.payload 0
  if bits w 2 0 = 0 then s.warmReset (bitAt w 8) e else s.coldReset (bitAt w 8) e

/-- A module reset as its command asks: the reply goes first, and the reset begins once it has been appended (R434). -/
def State.moduleReset (s : State) (ch : Fin 17) (r : Req) (e : BootEvents) : State :=
  let s := s.reply ch r .ok []
  if (s.chans[ch]).unplaced.isEmpty then s.beginReset r e
  else s.modChan ch (fun c => { c with held := some ⟨r, .resetReply e⟩ })

/-- WARM and COLD: they wait until no ASYNC command of the PF is unfinished. -/
def handleModuleReset (e : BootEvents) : Handler := fun ch r s =>
  let w := word r.payload 0
  if nonZero w 27 24 || nonZero w 20 16 then .refuse .badParam
  else if !bitAt w 8 && !s.noPartition then .refuse .badState
  else if !(s.chans[ch]).asyncs.isEmpty then .hold (.resetAsync e) s
  else .silent (s.moduleReset ch r e)

/-- LINK (R477): every queue pair of the link enters ERROR, and the link retrains with new keys. -/
def handleLinkReset : Handler := fun _ r s =>
  let w := word r.payload 0
  let l := Fin.ofNat 24 (bits w 20 16)
  if nonZero w 27 24 || bits w 20 16 ≥ 24 then .refuse .badParam
  else if !bitAt w 8 && s.linkNamed l then .refuse .badState
  else
    let s := ((s.logReset 3 (bitAt w 8)).linkErrors l).retrain l
    if (s.links[l]).mode = 0 then .done .ok [] s else .hold (.linkTraining l.val) s

/-- PARTITION (R476): the partition's tasks end; everything else of it is kept. -/
def handlePartitionReset : Handler := fun _ r s =>
  let w := word r.payload 0
  let p := pid (bits w 27 24)
  if bitAt w 8 || nonZero w 20 16 then .refuse .badParam
  else if (s.parts[p]).st != .active then .refuse .badState
  else
    let s := s.logReset 2 false
    match (s.parts[p]).job.running with
    | none => .done .ok [] (((s.cancelAll p .retryLater).boundary p).fillCassettes p 5)
    | some k =>
      if k.what.isRecovery then .hold (.partitionReset p.val) s
      else .hold (.partitionReset p.val) ((s.cancelAll p .retryLater).cancelRunning p .retryLater)

/-- RESET_DEVICE by its KIND field; values 4 to 7 are reserved. -/
def handleResetDevice (e : BootEvents) : Handler := fun ch r s =>
  let w := word r.payload 0
  if nonZero w 63 28 || nonZero w 23 21 || nonZero w 15 9 || nonZero w 7 3 then .refuse .badParam
  else
    match bits w 2 0 with
    | 0 => handleModuleReset e ch r s
    | 1 => handleModuleReset e ch r s
    | 2 => handleLinkReset ch r s
    | 3 => handlePartitionReset ch r s
    | _ => .refuse .badParam

/-- RESET_DEVICE_WARM. -/
def execResetDeviceWarm (ch : Fin 17) (c : Cmd) (e : BootEvents) (s : State) : Host.Outcome State Fault Refusal :=
  .next ((s.atRefclk e).submit (handleResetDevice e) 0x0103 ch (cmdSel c 0 2 0 0))

/-- RESET_DEVICE_COLD. -/
def execResetDeviceCold (ch : Fin 17) (c : Cmd) (e : BootEvents) (s : State) : Host.Outcome State Fault Refusal :=
  .next ((s.atRefclk e).submit (handleResetDevice e) 0x0103 ch (cmdSel c 0 2 0 1))

/-- RESET_DEVICE_LINK. -/
def execResetDeviceLink (ch : Fin 17) (c : Cmd) (s : State) : Host.Outcome State Fault Refusal :=
  .next (s.submit (handleResetDevice .clean) 0x0103 ch (cmdSel c 0 2 0 2))

/-- RESET_DEVICE_PARTITION. -/
def execResetDevicePartition (ch : Fin 17) (c : Cmd) (s : State) : Host.Outcome State Fault Refusal :=
  .next (s.submit (handleResetDevice .clean) 0x0103 ch (cmdSel c 0 2 0 3))

/-- A module reset that waited for ASYNC commands, or for room for its reply, goes on. -/
def State.resumeReset (s : State) : State :=
  match (s.chans[(0 : Fin 17)]).held with
  | some h =>
    match h.why with
    | .resetAsync e => if (s.chans[(0 : Fin 17)]).asyncs.isEmpty then (s.modChan 0 (fun c => { c with held := none })).moduleReset 0 h.req e else s
    | .resetReply e => if (s.chans[(0 : Fin 17)]).unplaced.isEmpty then (s.modChan 0 (fun c => { c with held := none })).beginReset h.req e else s
    | _ => s
  | none => s

/-! ## Pins and power (R461, R467, R501, R507, R510) -/

/-- A sensor reads 100 °C or more (chapter 20: "If … while …"). -/
def Power.hot (w : Power) : Bool := w.logic.any (fun x => x ≥ 400) || w.stack.any (fun x => x ≥ 400)

/-- RESET_N_ASSERT (R510): a pulse of a number of nanoseconds so far; one shorter than 1 µs is a glitch. The part holds at step 2;
after a thermal trip it stays off while a sensor still reads 100 °C or more. -/
def execResetNAssert (width : Nat) (s : State) : Host.Outcome State Fault Refusal :=
  .next (
    if width < 1000 || s.boot.resetLow then s
    else
      let s := { s with boot := { s.boot with resetLow := true, restartDue := false } }
      match s.boot.phase with
      | .off => s
      | .tripped => if s.power.hot then s else s.loseVolatile .inReset
      | _ => s.loseVolatile .inReset)

/-- RESET_N_RELEASE (R474, R510): the timeline runs from step 2. -/
def execResetNRelease (e : BootEvents) (s : State) : Host.Outcome State Fault Refusal :=
  .next (
    if !s.boot.resetLow then s
    else
      let s := { s with boot := { s.boot with resetLow := false } }
      match s.boot.phase with
      | .inReset => s.startTimeline false e
      | .tripped => if s.power.hot then { s with boot := { s.boot with restartDue := true } } else s.startTimeline false e
      | _ => s)

/-- POWER_LOSS (R501): every state but the non-volatile memory is lost, and a write of it that is under way is cut short (R486, R489). -/
def execPowerLoss (s : State) : Host.Outcome State Fault Refusal :=
  .next (
    let t := s.cutNvm.loseVolatile .off
    { t with i3c := I3c.reset, power := Power.reset })

/-- A function's endpoint state after a fundamental reset (R467): MSI-X and power state return to their reset values. -/
def Channel.endpointReset (c : Channel) : Channel := { c with msix := Channel.reset.msix, d3hot := false }

/-- PERST_ASSERT (R467, R510): after power-up it resets the PCIe endpoint alone and acts on every channel as an FLR; before step 3 it
is only noted. -/
def execPerstAssert (s : State) : Host.Outcome State Fault Refusal :=
  .next (
    let s := { s with boot := { s.boot with perst := true } }
    if s.boot.step = 0 then s
    else
      let s := (List.finRange 17).foldl State.flr s
      { s with
        boot := { s.boot with numVfs := 0, bme := List.replicate 17 false }, chans := s.chans.map Channel.endpointReset })

/-- PERST_RELEASE (R406, R467): the host reaches the endpoint again. -/
def execPerstRelease (s : State) : Host.Outcome State Fault Refusal :=
  .next { s with boot := { s.boot with perst := false } }

/-- REFCLK_LOSS (R507): a link that runs with the common reference clock goes down until the next cold reset. -/
def execRefclkLoss (s : State) : Host.Outcome State Fault Refusal :=
  .next { s with boot := { s.boot with refclkPin := false, pcieUp := s.boot.pcieUp && !s.boot.refclkCommon } }

/-- RAIL_OUT_OF_RANGE (R510): PWR_GOOD goes low, until a sample of the supply finds every rail in range again. -/
def execRailOutOfRange (s : State) : Host.Outcome State Fault Refusal :=
  .next { s with boot := { s.boot with pwrGood := false } }

/-- The firmware can no longer operate: the log record, and the STATE and the WORDS that change (R414 to R416, R491, R493). -/
def State.fatalError (s : State) (code : Nat) : State :=
  State.noteCredits s (State.noteStates s ({ s with boot := { s.boot with phase := .fatal } }.logFrom 0 0x0006 0 [w64 code]))

/-- FIRMWARE_FATAL_ERROR (R414, R491): the firmware stops the device. -/
def execFirmwareFatalError (code : Nat) (s : State) : Host.Outcome State Fault Refusal :=
  .next (
    match s.boot.phase with
    | .ready => s.fatalError code
    | .deviceFault => s.fatalError code
    | _ => s)

end Sys2Proof.Machine
end

