-- ==== Sys2Proof/Machine/Certs.lean ====
section
/-! DEFINITION. The three certificates of the device (R319): X.509 v3 in DER, with what the manual states of them and, as constants of
the configuration, what was written at manufacture. -/

namespace Sys2Proof.Machine

open Sys2Proof.Machine.Crypto

/-- The length of a DER value. -/
def derLength (n : Nat) : List Byte :=
  if n < 128 then [byte n] else if n < 256 then [0x81, byte n] else 0x82 :: beBytes 2 n

/-- A DER value under a tag. -/
def der (tag : Nat) (body : List Byte) : List Byte := byte tag :: derLength body.length ++ body

/-- A DER SEQUENCE. -/
def derSeq (parts : List (List Byte)) : List Byte := der 0x30 parts.flatten

/-- A DER INTEGER that is not negative, in the fewest bytes. -/
def derNat (n : Nat) : List Byte := der 0x02 (beBytes ((Nat.log2 n + 1) / 8 + 1) n)

/-- A DER BIT STRING of whole bytes. -/
def derBits (b : List Byte) : List Byte := der 0x03 (0 :: b)

/-- The algorithm of every signature: ecdsa-with-SHA384. -/
def ecdsaSha384Id : List Byte := derSeq [der 0x06 [0x2A, 0x86, 0x48, 0xCE, 0x3D, 0x04, 0x03, 0x03]]

/-- A P-384 public key as X.509 carries it. -/
def publicKeyInfo (pub : List Byte) : List Byte :=
  derSeq [derSeq [der 0x06 [0x2A, 0x86, 0x48, 0xCE, 0x3D, 0x02, 0x01], der 0x06 [0x2B, 0x81, 0x04, 0x00, 0x22]], derBits (0x04 :: pub)]

/-- What is signed in certificate `i`: version 3, serial number, algorithm, issuer, validity, subject, key, extensions. -/
def tbsCertificate (i : Nat) (issuer subject pub exts : List Byte) : List Byte :=
  derSeq [der 0xA0 (derNat 2), derNat (Config.certSerial i), ecdsaSha384Id, issuer, derSeq [Config.certValidity i], subject,
    publicKeyInfo pub, der 0xA3 (derSeq [exts, Config.certExtensions i])]

/-- A signature as X.509 carries it: r and s. -/
def derSignature (sig : List Byte) : List Byte := derSeq [derNat (beNat (sig.take 48)), derNat (beNat (sig.drop 48))]

/-- Certificate `i`, signed with a key at manufacture. -/
def certificate (i key : Nat) (tbs : List Byte) : List Byte :=
  derSeq [tbs, ecdsaSha384Id, derBits (derSignature (ecdsaSign key (Config.certNonce i) tbs))]

/-- The name of a certificate's subject. -/
def certName (i : Nat) (more : List Byte) : List Byte := derSeq [Config.certSubject i, more]

/-- Hexadecimal digits of a byte string. -/
def hexDigits (b : List Byte) : List Byte :=
  let digit (n : Nat) : Byte := byte (if n < 10 then 48 + n else 87 + n)
  b.flatMap (fun x => [digit (x.toNat / 16), digit (x.toNat % 16)])

/-- The subject serial number of the device: the first 16 bytes of DEVICE_FP in hexadecimal, with small letters (DESIGN CHOICE). -/
def deviceSerial : List Byte := der 0x31 (derSeq [der 0x06 [0x55, 0x04, 0x05], der 0x13 (hexDigits (deviceFp.take 16))])

/-- The extension keyUsage with digitalSignature alone, critical (PRESUMED: RFC 5280 recommends it). -/
def usageSign : List Byte := derSeq [der 0x06 [0x55, 0x1D, 0x0F], der 0x01 [0xFF], der 0x04 (der 0x03 [7, 0x80])]

/-- The Rafiward root certificate, self-signed. -/
def rootCert : List Byte :=
  certificate 0 Config.rootKey (tbsCertificate 0 (certName 0 []) (certName 0 []) (p384Pub Config.rootKey) [])

/-- The Skapavos product CA certificate, signed by the root. -/
def productCert : List Byte :=
  certificate 1 Config.rootKey (tbsCertificate 1 (certName 0 []) (certName 1 []) (p384Pub Config.productKey) [])

/-- The device identity certificate, signed by the product CA: the identity key, digitalSignature only, and the device's serial number. -/
def deviceCert : List Byte :=
  certificate 2 Config.productKey (tbsCertificate 2 (certName 1 []) (certName 2 deviceSerial) identityPub usageSign)

/-- SPDM certificate slot 0: the three certificates, root first. No command alters them. -/
def certChain : List Byte := rootCert ++ productCert ++ deviceCert

end Sys2Proof.Machine
end

