-- ==== Sys2Proof/Machine/Management.lean ====
section
/-! DEFINITION. What answers beside the mailbox: the SPDM responder (R319 to R321, message formats of DSP0274 1.3), the log reads and
PLDM of the management port (R498, R508), the common commands of its I3C target (R508), and the JTAG port (R512). -/

namespace Sys2Proof.Machine

open Sys2Proof.Machine.Crypto

/-! ## SPDM (R319 to R321) -/

/-- The endpoint of the management port; 0 is the PF's DOE and n that of VF n. -/
def i3cEndpoint : Fin 18 := 17

/-- Messages reach the management port: it answers from step 3 of R466 on, at the dynamic address that it has been given (R508). -/
def I3c.open (k : I3c) : Bool := k.up && k.dynAddr.isSome

/-- The endpoint can be reached: a DOE through its function, or the management port. -/
def State.spdmReachable (s : State) (ep : Fin 18) : Bool :=
  if ep = i3cEndpoint then s.i3c.open else s.reachable (Fin.ofNat 17 ep.val)

/-- A response stands ready at the management port: a pending-read notification is issued as an in-band interrupt where interrupts are enabled, and
the controller reads the response (R508; PRESUMED: DSP0233, bit 0 of the events that ENEC and DISEC set). -/
def State.emitI3c (s : State) (x : Output) : State :=
  (if s.i3c.events.testBit 0 then s.emit (.ibi (s.i3c.dynAddr.getD 0)) else s).emit x

/-- Emit an SPDM response at an endpoint. -/
def State.emitSpdm (s : State) (ep : Fin 18) (r : List Byte) : State :=
  if ep = i3cEndpoint then s.emitI3c (.spdm ep.val r) else s.emit (.spdm ep.val r)

/-- A response of SPDM 1.3: its code and two parameters. -/
def spdmHead (code p1 p2 : Nat) : List Byte := [0x13, byte code, byte p1, byte p2]

/-- An ERROR response. -/
def spdmError (code data : Nat) : List Byte := spdmHead 0x7F code data

/-- The certificate chain of slot 0 as its digest covers it: length, root hash, certificates. -/
def spdmChain : List Byte := leBytes 2 (52 + certChain.length) ++ zeros 2 ++ sha384 rootCert ++ certChain

/-- The partition whose measurements an endpoint shows (R321). -/
def State.spdmPart (s : State) (ep : Fin 18) : Option Partition :=
  if ep = 0 || ep = i3cEndpoint then none
  else
    let q := s.parts[pid (ep.val - 1)]
    if q.st = .active then some q else none

/-- A measurement's value: whether it is raw, its type, its bytes (R321). -/
def State.measurement (s : State) (ep : Fin 18) (i : Nat) : Option (Bool × Nat × List Byte) :=
  match i with
  | 1 => some (false, 0, beBytes 48 Config.romDigest.toNat)
  | 2 => some (false, 1, (s.runningFw.map FwImage.bodyDigest).getD (zeros 48))
  | 3 => some (true, 6, leBytes 8 ((s.runningFw.map FwImage.version).getD 0).toNat ++
      [byte ((s.runningFw.map FwImage.svn).getD 0), byte s.nvm.rollback])
  | 4 => some (false, 3, s.configDigest)
  | 5 => some (true, 5, [byte (b2n s.debugAccess.unlocked)])
  | 16 => (s.spdmPart ep).map (fun q =>
      (true, 3, leBytes 2 (ep.val - 1) ++ leBytes 4 (listMask q.clusterList) ++ [byte q.ledgerBanks, byte q.foldK]
        ++ leBytes 8 q.creation))
  | 17 => (s.spdmPart ep).map (fun q => (true, 4, q.log.digest ++ leBytes 4 q.log.count))
  | 18 => (s.spdmPart ep).map (fun q => (true, 4, sha384 q.ownerPub ++ leBytes 4 q.sessions))
  | _ => none

/-- A measurement block. -/
def State.measBlock (s : State) (ep : Fin 18) (i : Nat) : Option (List Byte) :=
  (s.measurement ep i).map (fun m =>
    [byte i, 1] ++ leBytes 2 (3 + m.2.2.length) ++ [byte (b2n m.1 * 128 + m.2.1)] ++ leBytes 2 m.2.2.length ++ m.2.2)

/-- The blocks of some indices that the endpoint has. -/
def State.measBlocks (s : State) (ep : Fin 18) (l : List Nat) : List (List Byte) := l.filterMap (s.measBlock ep)

/-- Every index of R321. -/
def allMeasurements : List Nat := [1, 2, 3, 4, 5, 16, 17, 18]

/-- What DSP0274 signs: the prefix, the context and the digest of the messages. -/
def spdmSigned (context : String) (pad : Nat) (m : List Byte) : List Byte :=
  let v := ascii "dmtf-spdm-v1.3.*"
  v ++ v ++ v ++ v ++ zeros pad ++ ascii context ++ sha384 m

/-- Change a connection. -/
def State.modSpdm (s : State) (ep : Fin 18) (f : Spdm → Spdm) : State := { s with spdm := s.spdm.set ep (f s.spdm[ep]) }

/-- What a request makes of the connection and answers. -/
abbrev SpdmRule := Fin 18 → List Byte → State → List Byte × State

/-- Answer a request (R320, R446): Busy until the identity keys are derived; VersionMismatch for another version, which
GET_VERSION itself carries as 1.0; `ready` is what must have been answered before. -/
def State.spdmAnswer (s : State) (ep : Fin 18) (code ver : Nat) (ready : Spdm → Bool) (rule : SpdmRule) (req : List Byte) : State :=
  let m := [req.headD 0, byte code] ++ req.drop 2
  if !s.spdmReachable ep then s
  else
    let (r, s) : List Byte × State :=
      if (s.keyAt 0).isNone then (spdmError 0x03 0, s)
      else if m.length < 4 || m.length > 4096 then (spdmError 0x01 0, s)
      else if (m.headD 0).toNat != ver then (spdmError 0x41 0, s)
      else if !ready s.spdm[ep] then (spdmError 0x04 0, s)
      else rule ep m s
    s.emitSpdm ep r

/-- GET_VERSION: 1.3 only; the connection begins again. -/
def spdmVersion : SpdmRule := fun ep m s =>
  let r : List Byte := [0x10, 0x04, 0, 0, 0, 1, 0x00, 0x13]
  (r, s.modSpdm ep (fun _ => { Spdm.reset with version := true, vca := m ++ r }))

/-- CERT_CAP, CHAL_CAP, MEAS_CAP with signature and MEAS_FRESH_CAP. -/
def spdmFlags : Nat := 0x36

/-- GET_CAPABILITIES. -/
def spdmCapabilities : SpdmRule := fun ep m s =>
  let r := spdmHead 0x61 0 0 ++ [0, Config.spdmCtExponent, 0, 0] ++ leBytes 4 spdmFlags ++ leBytes 4 4096 ++ leBytes 4 4096
  (r, s.modSpdm ep (fun k => { k with caps := true, algos := false, vca := k.vca ++ m ++ r }))

/-- NEGOTIATE_ALGORITHMS: a requester must offer P-384, SHA-384 and the DMTF specification. -/
def spdmAlgorithms : SpdmRule := fun ep m s =>
  let f (o n : Nat) : Nat := leNat ((m.drop o).take n)
  if !(f 6 1).testBit 0 || !(f 8 4).testBit 7 || !(f 12 4).testBit 1 then (spdmError 0x01 0, s)
  else
    let r := spdmHead 0x63 0 0 ++ leBytes 2 36 ++ [1, 0] ++ leBytes 4 4 ++ leBytes 4 0x80 ++ leBytes 4 2 ++ zeros 16
    (r, s.modSpdm ep (fun k => { k with algos := true, vca := k.vca ++ m ++ r }))

/-- GET_DIGESTS: slot 0 alone. -/
def spdmDigests : SpdmRule := fun ep m s =>
  let r := spdmHead 0x01 1 1 ++ sha384 spdmChain
  (r, s.modSpdm ep (fun k => { k with certs := k.certs ++ m ++ r }))

/-- GET_CERTIFICATE (R319): part of the chain by offset and length. -/
def spdmCertificate : SpdmRule := fun ep m s =>
  let off := leNat ((m.drop 4).take 2)
  let len := Nat.min (leNat ((m.drop 6).take 2)) 4088
  if (m.getD 2 0).toNat % 16 != 0 || spdmChain.length ≤ off then (spdmError 0x01 0, s)
  else
    let d := (spdmChain.drop off).take len
    let r := spdmHead 0x02 0 0 ++ leBytes 2 d.length ++ leBytes 2 (spdmChain.length - off - d.length) ++ d
    (r, s.modSpdm ep (fun k => { k with certs := k.certs ++ m ++ r }))

/-- The measurement summary that a CHALLENGE asks for: none, the firmware's (1 to 3), or all. -/
def State.summary (s : State) (ep : Fin 18) (kind : Nat) : Option (List Byte) :=
  match kind with
  | 0 => some []
  | 1 => some (sha384 (s.measBlocks ep [1, 2, 3]).flatten)
  | 0xFF => some (sha384 (s.measBlocks ep allMeasurements).flatten)
  | _ => none

/-- CHALLENGE: the signature covers the negotiation, the certificate exchanges, and this exchange. -/
def spdmChallenge : SpdmRule := fun ep m s =>
  match s.summary ep (m.getD 3 0).toNat with
  | none => (spdmError 0x01 0, s)
  | some h =>
    if (m.getD 2 0).toNat != 0 || m.length < 44 then (spdmError 0x01 0, s)
    else
      let (n, s) := s.deviceDraw 32
      let r := spdmHead 0x03 0 1 ++ sha384 spdmChain ++ n ++ h ++ leBytes 2 0 ++ (m.drop 36).take 8
      let k := s.spdm[ep]
      let (sig, s) := s.signIdentity (spdmSigned "responder-challenge_auth signing" 4 (k.vca ++ k.certs ++ m ++ r))
      (r ++ sig, s.modSpdm ep (fun k => { k with certs := [] }))

/-- GET_MEASUREMENTS (R321): the number of indices, one of them or all, taken now, signed where asked. -/
def spdmMeasurements : SpdmRule := fun ep m s =>
  let sign := (m.getD 2 0).toNat % 2 == 1
  let op := (m.getD 3 0).toNat
  let bs := if op = 0 then [] else s.measBlocks ep (if op = 0xFF then allMeasurements else [op])
  if (op != 0 && bs.isEmpty) || (sign && (m.length < 45 || (m.getD 36 0).toNat % 16 != 0)) then (spdmError 0x01 0, s)
  else
    let (n, s) := s.deviceDraw 32
    let rec' := bs.flatten
    let count := if op = 0 then (s.measBlocks ep allMeasurements).length else 0
    let ctx := (m.drop (if sign then 37 else 4)).take 8
    let r := spdmHead 0x60 count 0 ++ [byte bs.length] ++ leBytes 3 rec'.length ++ rec' ++ n ++ leBytes 2 0 ++ padTo 8 ctx
    let k := s.spdm[ep]
    if sign then
      let (sig, s) := s.signIdentity (spdmSigned "responder-measurements signing" 6 (k.vca ++ k.meas ++ m ++ r))
      (r ++ sig, s.modSpdm ep (fun k => { k with meas := [] }))
    else (r, s.modSpdm ep (fun k => { k with meas := k.meas ++ m ++ r }))

/-- SPDM_GET_VERSION. -/
def execSpdmGetVersion (ep : Fin 18) (req : List Byte) (s : State) : Host.Outcome State Fault Refusal :=
  .next (s.spdmAnswer ep 0x84 0x10 (fun _ => true) spdmVersion req)

/-- SPDM_GET_CAPABILITIES. -/
def execSpdmGetCapabilities (ep : Fin 18) (req : List Byte) (s : State) : Host.Outcome State Fault Refusal :=
  .next (s.spdmAnswer ep 0xE1 0x13 (fun k => k.version && !k.caps) spdmCapabilities req)

/-- SPDM_NEGOTIATE_ALGORITHMS. -/
def execSpdmNegotiateAlgorithms (ep : Fin 18) (req : List Byte) (s : State) : Host.Outcome State Fault Refusal :=
  .next (s.spdmAnswer ep 0xE3 0x13 (fun k => k.caps && !k.algos) spdmAlgorithms req)

/-- SPDM_GET_DIGESTS. -/
def execSpdmGetDigests (ep : Fin 18) (req : List Byte) (s : State) : Host.Outcome State Fault Refusal :=
  .next (s.spdmAnswer ep 0x81 0x13 Spdm.algos spdmDigests req)

/-- SPDM_GET_CERTIFICATE. -/
def execSpdmGetCertificate (ep : Fin 18) (req : List Byte) (s : State) : Host.Outcome State Fault Refusal :=
  .next (s.spdmAnswer ep 0x82 0x13 Spdm.algos spdmCertificate req)

/-- SPDM_CHALLENGE. -/
def execSpdmChallenge (ep : Fin 18) (req : List Byte) (s : State) : Host.Outcome State Fault Refusal :=
  .next (s.spdmAnswer ep 0x83 0x13 Spdm.algos spdmChallenge req)

/-- SPDM_GET_MEASUREMENTS. -/
def execSpdmGetMeasurements (ep : Fin 18) (req : List Byte) (s : State) : Host.Outcome State Fault Refusal :=
  .next (s.spdmAnswer ep 0xE0 0x13 Spdm.algos spdmMeasurements req)

/-- SPDM_UNSUPPORTED_REQUEST: any other request code, answered UnsupportedRequest (R320). -/
def execSpdmUnsupportedRequest (ep : Fin 18) (code : Nat) (s : State) : Host.Outcome State Fault Refusal :=
  .next (
    if !s.spdmReachable ep then s
    else s.emitSpdm ep (if (s.keyAt 0).isNone then spdmError 0x03 0 else spdmError 0x07 (code % 256)))

/-! ## The management port (R498, R508) -/

/-- An MCTP response: the status, then the mailbox reply's payload (R498). -/
def State.mctpAnswer (s : State) (x : Status × List W64) : State :=
  if s.i3c.open then s.emitI3c (.mctp (w64 x.1.code :: x.2)) else s

/-- MCTP_LOG_READ (R498): the payload of LOG_READ, MAX at most 509. -/
def execMctpLogRead (payload : List W64) (s : State) : Host.Outcome State Fault Refusal :=
  .next (s.mctpAnswer (if payload.length = 2 then s.readLog 509 payload else (.badLength, [])))

/-- MCTP_LIFETIME_READ (R498). -/
def execMctpLifetimeRead (payload : List W64) (s : State) : Host.Outcome State Fault Refusal :=
  .next (s.mctpAnswer (if payload.length = 1 then s.readLifetime payload else (.badLength, [])))

/-- PLDM_REQUEST (R508): the port serves PLDM; the manual gives no message of it, so the bytes of the response are free values. -/
def execPldmRequest (_req : List Byte) (s : State) : Host.Outcome State Fault Refusal :=
  .next (
    if !s.i3c.open then s
    else
      let (n, s) := s.fresh
      let (b, s) := s.freshBytes (n % 4096)
      s.emitI3c (.pldm b))

/-! ### Common commands of the I3C target -/

/-- The provisioned ID, most significant byte first (R508). -/
def provisionedId : List Byte :=
  beBytes 6 (Config.mipiManufacturer.toNat * 2 ^ 33 + 2 ^ 32 + leNat (deviceFp.take 4))

/-- A common command reaches the target: broadcast (0x7E), or sent to its dynamic address. -/
def State.i3cFor (s : State) (addr : Nat) : Bool := s.i3c.up && (addr = 0x7E || s.i3c.dynAddr = some addr)

/-- A directed read is answered. -/
def State.i3cRead (s : State) (addr : Nat) (b : List Byte) : State :=
  if s.i3c.up && s.i3c.dynAddr = some addr then s.emit (.i3c b) else s

/-- ENTDAA: a target without a dynamic address shows its provisioned ID and characteristics and takes the address offered. -/
def execEntdaa (addr : Nat) (s : State) : Host.Outcome State Fault Refusal :=
  .next (
    if s.i3c.up && s.i3c.dynAddr.isNone then
      { s with i3c := { s.i3c with dynAddr := some (addr % 128) } }.emit
        (.i3c (provisionedId ++ [Config.i3cBcr, Config.i3cDcr]))
    else s)

/-- SETDASA: sent to the static address 0x2C. -/
def execSetdasa (static addr : Nat) (s : State) : Host.Outcome State Fault Refusal :=
  .next (
    if s.i3c.up && s.i3c.dynAddr.isNone && static = 0x2C then { s with i3c := { s.i3c with dynAddr := some (addr % 128) } }
    else s)

/-- RSTDAA. -/
def execRstdaa (s : State) : Host.Outcome State Fault Refusal :=
  .next (if s.i3c.up then { s with i3c := { s.i3c with dynAddr := none } } else s)

/-- GETPID. -/
def execGetpid (addr : Nat) (s : State) : Host.Outcome State Fault Refusal := .next (s.i3cRead addr provisionedId)

/-- GETBCR. -/
def execGetbcr (addr : Nat) (s : State) : Host.Outcome State Fault Refusal := .next (s.i3cRead addr [Config.i3cBcr])

/-- GETDCR. -/
def execGetdcr (addr : Nat) (s : State) : Host.Outcome State Fault Refusal := .next (s.i3cRead addr [Config.i3cDcr])

/-- GETSTATUS: two bytes that the manual does not lay out, free values. -/
def execGetstatus (addr : Nat) (s : State) : Host.Outcome State Fault Refusal :=
  .next (
    let (b, s) := s.freshBytes 2
    s.i3cRead addr b)

/-- GETMWL. -/
def execGetmwl (addr : Nat) (s : State) : Host.Outcome State Fault Refusal := .next (s.i3cRead addr (beBytes 2 s.i3c.mwl))

/-- GETMRL. -/
def execGetmrl (addr : Nat) (s : State) : Host.Outcome State Fault Refusal := .next (s.i3cRead addr (beBytes 2 s.i3c.mrl))

/-- ENEC: enable target events by mask. -/
def execEnec (addr mask : Nat) (s : State) : Host.Outcome State Fault Refusal :=
  .next (if s.i3cFor addr then { s with i3c := { s.i3c with events := s.i3c.events ||| (mask % 256) } } else s)

/-- DISEC: disable target events by mask. -/
def execDisec (addr mask : Nat) (s : State) : Host.Outcome State Fault Refusal :=
  .next (if s.i3cFor addr then { s with i3c := { s.i3c with events := clearBits 8 s.i3c.events mask } } else s)

/-! ## JTAG (R512) -/

/-- IDCODE (R512). -/
def idcode : Nat := 0x1903286B

/-- The port works: the rails are on. -/
def State.jtagOn (s : State) : Bool := s.boot.phase != .off && s.boot.phase != .tripped

/-- Select an instruction and shift bits through its register, which holds `reg`: as many come out as go in. -/
def State.jtagShift (s : State) (i : JtagInstr) (reg tdi : List Bool) : State :=
  { s with debugAccess := { s.debugAccess with jtag := i } }.emit (.jtag ((reg ++ tdi).take tdi.length))

/-- BYPASS: the one-bit register captures 0. -/
def State.jtagBypass (s : State) (tdi : List Bool) : State := if s.jtagOn then s.jtagShift .bypass [false] tdi else s

/-- BYPASS. -/
def execBypass (tdi : List Bool) (s : State) : Host.Outcome State Fault Refusal := .next (s.jtagBypass tdi)

/-- IDCODE, least significant bit first. -/
def execIdcode (tdi : List Bool) (s : State) : Host.Outcome State Fault Refusal :=
  .next (if s.jtagOn then s.jtagShift .idcode ((List.range 32).map idcode.testBit) tdi else s)

/-- A boundary-scan instruction: the levels at the pins, which come from outside, are shifted out, and what is shifted in stands in the
update stage. Until the device scope is unlocked it is not available, and BYPASS is selected in its place. -/
def State.boundaryScan (s : State) (i : JtagInstr) (pins tdi : List Bool) : State :=
  if !s.jtagOn then s
  else if !s.debugAccess.unlocked then s.jtagBypass tdi
  else { s with debugAccess := { s.debugAccess with boundary := tdi } }.jtagShift i pins tdi

/-- EXTEST. -/
def execExtest (pins tdi : List Bool) (s : State) : Host.Outcome State Fault Refusal := .next (s.boundaryScan .extest pins tdi)

/-- SAMPLE_PRELOAD. -/
def execSamplePreload (pins tdi : List Bool) (s : State) : Host.Outcome State Fault Refusal :=
  .next (s.boundaryScan .samplePreload pins tdi)

/-- EXTEST_PULSE. -/
def execExtestPulse (pins tdi : List Bool) (s : State) : Host.Outcome State Fault Refusal :=
  .next (s.boundaryScan .extestPulse pins tdi)

/-- EXTEST_TRAIN. -/
def execExtestTrain (pins tdi : List Bool) (s : State) : Host.Outcome State Fault Refusal :=
  .next (s.boundaryScan .extestTrain pins tdi)

end Sys2Proof.Machine
end

