-- ==== Sys2Proof/Machine/Power.lean ====
section
/-! DEFINITION. The power and thermal controller (R356, R357, R451, R459 to R465): the end of a cadence period, the emergency
throttle, the thermal trip, the supply-warning hold, and what they report. -/

namespace Sys2Proof.Machine

/-! ## Half clock (R460, R463) -/

/-- The running task of a partition counts its cycles at another clock from now on. -/
def Running.rebase (r : Running) (now : Nat) (slow : Bool) : Running :=
  if r.slow = slow then r
  else if now ≤ r.start then { r with slow := slow, start := rescale now r.start slow }
  else
    let c := (now - r.start) / r.cycleLen
    let rest := (now - r.start) % r.cycleLen
    { r with base := r.base + c, start := now - (if slow then rest * 2 else rest / 2), slow := slow }

/-- Every running task, every tick divider, every job of a seed unit and the network-complex island follow the clocks (R10). -/
def State.rebaseAll (s : State) : State :=
  allParts.foldl (fun s p => ((s.modRunning p (fun r => r.rebase s.clock s.halfClock)).rebaseTicks p).rebaseSeeds p (s.islandCycle p))
    (s.rebaseLocal s.halfClock)

/-! ## Reports (R356, R357, R465) -/

/-- A begin of a residual event: posted now, or at the end of the second after the last one (R357). -/
def State.residualBegin (s : State) (code : Nat) (r : Residual) : State × Residual :=
  if r.lastBegin.any (fun t => s.clock < t + sec) then (s, { r with deferred := true })
  else (s.postAll code .ok [1], ⟨some s.clock, false, true⟩)

/-- An end: posted where its begin was (R357). -/
def State.residualEnd (s : State) (code : Nat) (r : Residual) : State × Residual :=
  if r.begun then (s.postAll code .ok [0], { r with deferred := false, begun := false }) else (s, { r with deferred := false })

/-- DEVICE_THROTTLE, as a begin or an end. -/
def State.tellThrottle (s : State) (on : Bool) : State :=
  let (s, r) := if on then s.residualBegin 0x0561 s.power.resThrottle else s.residualEnd 0x0561 s.power.resThrottle
  { s with power := { s.power with resThrottle := r } }

/-- DEVICE_HOLD, as a begin or an end. -/
def State.tellHold (s : State) (on : Bool) : State :=
  let (s, r) := if on then s.residualBegin 0x0562 s.power.resHold else s.residualEnd 0x0562 s.power.resHold
  { s with power := { s.power with resHold := r } }

/-- E1 and E2 of POWER_EVENT (R465): reading, site and class of a sensor, kind, duration in clock units, lowest input. -/
def powerWords (reading site : Nat) (stack : Bool) (kind dur lowest : Nat) : List W64 :=
  [w64 (reading * 2 ^ 16 + site * 2 ^ 8 + b2n stack * 2 ^ 4 + kind), w64 (dur / us * 2 ^ 32 + lowest)]

/-! ## The emergency throttle (R459, R460) -/

/-- The first index at which both of two samples reach a threshold. -/
def twice (old new : List Nat) (top : Nat) : Option Nat :=
  leastBelow 36 (fun i => old.getD i 0 ≥ top && new.getD i 0 ≥ top)

/-- The sensor that starts the throttle: its class, site and reading. -/
def throttleStart (old : Power) (logic stack : List Nat) : Option (Bool × Nat × Nat) :=
  match twice old.logic logic 400 with
  | some i => some (false, i, logic.getD i 0)
  | none => (twice old.stack stack 368).map (fun i => (true, i, stack.getD i 0))

/-- A sensor that is not cool yet. -/
def throttleHeld (logic stack : List Nat) : Option (Bool × Nat × Nat) :=
  match leastBelow 36 (fun i => logic.getD i 0 > 380) with
  | some i => some (false, i, logic.getD i 0)
  | none => (leastBelow 36 (fun i => stack.getD i 0 > 348)).map (fun i => (true, i, stack.getD i 0))

/-- The throttle begins. -/
def State.beginThrottle (s : State) (x : Bool × Nat × Nat) : State :=
  let ws := powerWords x.2.2 x.2.1 x.1 1 0 s.power.lastMv
  let s := { s with
    power := { s.power with throttle := some ⟨s.clock, x.1, x.2.1, x.2.2, none, s.power.lastMv⟩ }
    nvm := { s.nvm with life := { s.nvm.life with throttles := s.nvm.life.throttles + 1 } } }
  ((s.rebaseAll.log 0x0201 2 ws).post 0 0x0710 .ok ws).tellThrottle true

/-- The throttle ends. -/
def State.endThrottle (s : State) (t : Throttle) : State :=
  let ws := powerWords t.reading t.site t.stack 2 (s.clock - t.since) t.lowest
  let s := { s with power := { s.power with throttle := none } }
  ((s.rebaseAll.log 0x0201 2 ws).post 0 0x0710 .ok ws).tellThrottle false

/-- A sample meets the throttle in force: the sensor that still holds it, or how long every sensor has been cool. -/
def State.throttleSample (s : State) (t : Throttle) (logic stack : List Nat) : State :=
  match throttleHeld logic stack with
  | some x =>
    let t : Throttle := { t with stack := x.1, site := x.2.1, reading := x.2.2, coolSince := none }
    { s with power := { s.power with throttle := some t } }
  | none =>
    let c := t.coolSince.getD s.clock
    if c + 10 * ms ≤ s.clock then s.endThrottle t
    else { s with power := { s.power with throttle := some { t with coolSince := some c } } }

/-- What a sample adds to the lifetime counters (R459, R496). -/
def Lifetime.sample (l : Lifetime) (logic stack : List Nat) : Lifetime :=
  let hot := (List.range 36).map (fun i => l.hotSamples.getD i 0 + if stack.getD i 0 ≥ 340 then 1 else 0)
  { l with
    hotSamples := hot
    stackMax := (List.range 36).map (fun i => Nat.max (l.stackMax.getD i 0) (stack.getD i 0))
    logicMax := (List.range 36).map (fun i => Nat.max (l.logicMax.getD i 0) (logic.getD i 0)) }

/-- Every rail is on: from step 2 of R466 on, while RESET_N is held low too (R474, R510), until a thermal trip (R461). -/
def State.railsOn (s : State) : Bool :=
  match s.boot.phase with
  | .off => false
  | .tripped => false
  | _ => true

/-- The rails are on and the clocks run. -/
def State.powered (s : State) : Bool := s.railsOn && s.boot.phase != .inReset

/-- SENSOR_SAMPLE (R459, R460): 36 logic and 36 stack readings in units of 0.25 °C, every 10 µs. After a thermal trip and a release
of RESET_N, the first samples all below 100 °C start the timeline (chapter 20). -/
def execSensorSample (logic stack : List Nat) (e : BootEvents) (s : State) : Host.Outcome State Fault Refusal :=
  .next (
    if s.boot.phase = .off then s
    else
      let old := s.power
      let s := s.advance s.power.nextSensor
      let s := { s with power := { s.power with logic := logic, stack := stack, nextSensor := old.nextSensor + 10 * us } }
      if s.boot.phase = .tripped then
        (if s.boot.restartDue && !s.boot.resetLow && !s.power.hot then s.startTimeline false e else s)
      else if !s.powered then s
      else
        let s := { s with nvm := { s.nvm with life := s.nvm.life.sample logic stack } }
        match s.power.throttle with
        | some t => s.throttleSample t logic stack
        | none =>
          match throttleStart old logic stack with
          | some x => s.beginThrottle x
          | none => s)

/-- The highest readings ever take a reading of one site (R496). -/
def Lifetime.noteReading (l : Lifetime) (stack : Bool) (site reading : Nat) : Lifetime :=
  if stack then { l with stackMax := setAt l.stackMax site (Nat.max (l.stackMax.getD site 0) reading) }
  else { l with logicMax := setAt l.logicMax site (Nat.max (l.logicMax.getD site 0) reading) }

/-- THERMAL_TRIP (R461, R487, R491): a sensor reaches 110 °C. Everything volatile is lost, a write of the NVM that is under way is cut short
(R485), and the part stays off. -/
def execThermalTrip (stack : Bool) (site : Fin 36) (reading : Nat) (s : State) : Host.Outcome State Fault Refusal :=
  .next (
    if !s.railsOn || reading < 440 then s
    else
      let s := s.cutNvm
      let life := { s.nvm.life with trips := s.nvm.life.trips + 1 }.noteReading stack site.val reading
      let set (l : List Nat) : List Nat := setAt l site.val reading
      let s := ({ s with nvm := { s.nvm with life := life } }.storeCounters).loseVolatile .tripped
      let w := if stack then { s.power with stack := set s.power.stack } else { s.power with logic := set s.power.logic }
      { s with power := w, boot := { s.boot with thermTrip := true } }.logFrom 2 0x0204 2
        ((powerWords reading site.val stack 0 0 0).take 1))

/-! ## Rails (R447, R448): in millivolts, 0 for a rail that is off -/

/-- The core voltage of a P-state (R448). -/
def coreMv (pstate : Nat) : Nat := 850 - 100 * pstate

/-- The voltage of a rail that is on with every rail but always-on: while RESET_N is held low, too, every rail is in range (R447, R461, R466, R510). -/
def State.railMv (s : State) (mv : Nat) : Nat := if s.railsOn then mv else 0

/-- The core rail of a cluster pair: set by the P-state of the partition that owns it; 0.55 V for a pair that none owns (R447). -/
def State.pairRail (s : State) (pair : Fin 16) : Nat :=
  s.railMv (match s.ownerOf (2 * pair.val) with
    | some p => coreMv (s.parts[p]).acct.curP
    | none => 550)

/-- The clocks of a pair run: only while its partition has a task; between tasks and unowned they are stopped (R447, R448). -/
def State.pairClocked (s : State) (pair : Fin 16) : Bool :=
  s.powered && (s.ownerOf (2 * pair.val)).any (fun p => (s.parts[p]).job.running.isSome)

/-- The core rail of the network complex and the service cores (R447). -/
def State.serviceRail (s : State) : Nat := s.railMv 750

/-- The SRAM rail of every pair and of the die-level stores (R447). -/
def State.sramRail (s : State) : Nat := s.railMv 800

/-- The two rails of every stack (R447). -/
def State.dramRails (s : State) : Nat × Nat := (s.railMv 1100, s.railMv 1800)

/-- The two rails of every group of six links (R447). -/
def State.serdesRails (s : State) : Nat × Nat := (s.railMv 750, s.railMv 1200)

/-- The always-on rail, the last to turn off: it stays through a thermal trip (R447, R461). -/
def State.alwaysOnRail (s : State) : Nat := if s.boot.phase = .off then 0 else 800

/-! ## The supply-warning hold (R462 to R464) -/

/-- The hold begins, and every write of the NVM is completed (R463). -/
def State.beginHold (s : State) (mv : Nat) : State :=
  let ws := powerWords 0 0 false 3 0 mv
  let s := { s with
    power := { s.power with hold := some ⟨s.clock, mv, none⟩, lowSince := none }
    nvm := { s.nvm with life := { s.nvm.life with holds := s.nvm.life.holds + 1 } } }
  let s := s.storeCounters
  (({ s with nvm := { s.nvm with writes := [] } }.rebaseAll).post 0 0x0710 .ok ws).tellHold true

/-- Time that a cassette's task has spent in it does not count while the hold lasts (R456). -/
def Cassette.shift (x : Cassette) (since now : Nat) : Cassette :=
  let f (t : Nat) : Nat := t + (now - Nat.max since t)
  match x with
  | .tenant t => .tenant { t with entered := f t.entered }
  | .recovery t => .recovery { t with entered := f t.entered }

/-- The hold ends by recovery (R464). -/
def State.endHold (s : State) (h : SupplyHold) : State :=
  let d := s.clock - h.since
  let s := { s with power := { s.power with hold := none, resumeAfter := some s.clock } }
  let s := allParts.foldl (fun s p =>
    s.modJob p (fun j => { j with cassettes := j.cassettes.map (fun x => x.shift h.since s.clock) })) s
  let s := s.rebaseAll.log 0x0202 2 [w64 (d / us * 2 ^ 32 + h.lowest)]
  (s.post 0 0x0710 .ok (powerWords 0 0 false 4 d h.lowest)).tellHold false

/-- A hold of 20 ms: BROWNOUT_RESET, then a cold reset (R462). A boot that has stopped is not reset (R470): its hold stays. -/
def State.brownout (s : State) (h : SupplyHold) (e : BootEvents) : State :=
  if s.bootStopped then { s with power := { s.power with hold := some h } }
  else
    let s := s.log 0x0203 2 [w64 h.lowest]
    { s with nvm := { s.nvm with life := { s.nvm.life with brownouts := s.nvm.life.brownouts + 1 } } }.coldReset false e

/-- A sample of the input while a hold is in force. -/
def State.holdSample (s : State) (h : SupplyHold) (mv : Nat) (e : BootEvents) : State :=
  let high := if mv > 11200 then some (h.highSince.getD s.clock) else none
  let h : SupplyHold := { h with lowest := Nat.min h.lowest mv, highSince := high }
  if h.since + 20 * ms < s.clock then s.brownout h e
  else if high.any (fun t => t + 100 * us ≤ s.clock) then s.endHold h
  else if h.since + 20 * ms ≤ s.clock then s.brownout h e
  else { s with power := { s.power with hold := some h } }

/-- A sample of the input with no hold in force. -/
def State.freeSample (s : State) (mv : Nat) : State :=
  if mv > 10800 then { s with power := { s.power with lowSince := none } }
  else
    let t := s.power.lowSince.getD s.clock
    if t + 2 * us ≤ s.clock then s.beginHold mv else { s with power := { s.power with lowSince := some t } }

/-- The lowest input during a throttle (R465). -/
def Power.noteMv (w : Power) (mv : Nat) : Power :=
  { w with lastMv := mv, throttle := w.throttle.map (fun t => { t with lowest := Nat.min t.lowest mv }) }

/-- SUPPLY_SAMPLE (R462 to R464): the input in millivolts, every 100 ns. -/
def execSupplySample (mv : Nat) (e : BootEvents) (s : State) : Host.Outcome State Fault Refusal :=
  .next (
    if s.boot.phase = .off then s
    else
      let t := s.power.nextSupply
      let s := s.advance t
      let s := { s with power := { s.power.noteMv mv with nextSupply := t + 100 * ns } }
      if !s.railsOn then s
      else if mv ≤ 9600 then s.supplyReset e
      else
        let s := { s with boot := { s.boot with pwrGood := s.boot.pwrGood || s.powered } }
        match s.power.hold with
        | some h => s.holdSample h mv e
        | none => s.freeSample mv)

/-- HOLD_TIMEOUT (R462): the hold has lasted 20 ms without recovery. -/
def execHoldTimeout (e : BootEvents) (s : State) : Host.Outcome State Fault Refusal :=
  .next (
    match s.power.hold with
    | some h => (s.advance (h.since + 20 * ms)).brownout h e
    | none => s)

/-- RESIDUAL_EVENT_DELAY_END (R357): a deferred begin of DEVICE_THROTTLE or DEVICE_HOLD is posted a second after the last one, if its
condition still holds. -/
def execResidualEventDelayEnd (hold : Bool) (s : State) : Host.Outcome State Fault Refusal :=
  .next (
    let r := if hold then s.power.resHold else s.power.resThrottle
    let on := if hold then s.power.hold.isSome else s.power.throttle.isSome
    if !r.deferred then s
    else
      let s := s.advance (r.lastBegin.getD 0 + sec)
      let s := if on then s.postAll (if hold then 0x0562 else 0x0561) .ok [1] else s
      let r : Residual := if on then ⟨some s.clock, false, true⟩ else { r with deferred := false }
      if hold then { s with power := { s.power with resHold := r } } else { s with power := { s.power with resThrottle := r } })

/-! ## The end of a cadence period (R451, R452, R455, R464) -/

/-- One account at the end of a period: the charge of the cycles that have elapsed, then the refill. -/
def State.refill (s : State) (p : Fin 16) : State :=
  if (s.parts[p]).st != .active then s
  else
    let s : State := match s.taskCycle p with
      | some c => s.chargeTo p c
      | none => s
    s.modPart p (fun q => { q with acct := { q.acct with balance := min q.acct.cap (q.acct.balance + q.acct.refill) } })

/-- A budget change that waits for the end of the period takes effect (R437, R451). -/
def State.applyBudget (s : State) : State :=
  match (s.chans[(0 : Fin 17)]).held with
  | some h =>
    match h.why with
    | .budgetModule w => { s with power := { s.power with budget := w } }
    | .budgetShare p u =>
      if (s.parts[pid p]).st != .active then s
      else
        s.modPart (pid p) (fun q =>
          let a : Account := { q.acct with units := u }
          { q with acct := { a with balance := min a.cap a.balance } })
    | _ => s
  | none => s

/-- A budget change that waited for the end of the period is answered (R437). -/
def State.answerBudget (s : State) : State :=
  match (s.chans[(0 : Fin 17)]).held with
  | some h =>
    match h.why with
    | .budgetModule _ => s.finishHeld 0 .ok []
    | .budgetShare p _ => s.finishHeld 0 (if (s.parts[pid p]).st = .active then .ok else .badState) []
    | _ => s
  | none => s

/-- The energy delivered in a period, in millijoules: a free value (R437: measured at the 12 V input). -/
def State.deliver (s : State) : State :=
  let (e, s) := s.fresh
  { s with
    power := { s.power with deliveredMj := s.power.deliveredMj + e }
    nvm := { s.nvm with life := { s.nvm.life with energyMj := s.nvm.life.energyMj + e } } }

/-- CADENCE_PERIOD_END (R451, R455, R464): every account is charged and refilled, budget changes apply, dispatch resumes after a
hold, and the cassettes are examined again. -/
def execCadencePeriodEnd (s : State) : Host.Outcome State Fault Refusal :=
  .next (
    if !s.powered then s
    else
      let t := s.power.nextPeriod
      let s := s.advance t
      let resume := s.power.resumeAfter.filter (fun x => t < x + 100 * us)
      let s := { s with power := { s.power with nextPeriod := t + 100 * us, resumeAfter := resume } }
      let s := ((allParts.foldl State.refill s).applyBudget).deliver
      (allParts.foldl State.tryDispatch s).answerBudget)

end Sys2Proof.Machine
end

