-- ==== Sys2Proof/Machine/HostDispatch.lean ====
section
/-! DEFINITION. The service cores and the RTP (R344, R427 to R431, R518): commands by opcode, the turns that take waiting commands and
resume held ones, and the end of an ASYNC command. -/

namespace Sys2Proof.Machine

/-- The handler of an opcode of R440. The envelope refuses every other opcode before its handler is asked. A reset that the host wrote
as words meets nothing at its boot. -/
def handlerOf : Nat → Handler
  | 0x0101 => handleGetInfo
  | 0x0102 => handleGetStatus
  | 0x0103 => fun ch r s => handleResetDevice { BootEvents.clean with refclk := s.boot.refclkPin } ch r s
  | 0x0104 => handleSetCalendar
  | 0x0201 => handleCreatePartition
  | 0x0202 => handleDestroyPartition
  | 0x0203 => handleQueryPartition
  | 0x0204 => handleOpenSession
  | 0x0205 => handleAllow
  | 0x0301 => handleOpenRound
  | 0x0302 => handleCloseRound
  | 0x0303 => handleSupplySeeds
  | 0x0304 => handleSupplyShares
  | 0x0305 => handleRecover
  | 0x0306 => handleReleaseAggregate
  | 0x0307 => handleRoundStatus
  | 0x0308 => handleAbortRound
  | 0x0401 => handleKeyGenerate
  | 0x0402 => handleKeyAttest
  | 0x0403 => handleKeyRotate
  | 0x0404 => handleKeyDestroy
  | 0x0405 => handleBindWeights
  | 0x0406 => handleUnwrapWeights
  | 0x0407 => handleSetRemask
  | 0x0501 => handleLoadProgram
  | 0x0502 => handleRunTask
  | 0x0503 => handleTaskStatus
  | 0x0504 => handleCancelTask
  | 0x0601 => handlePortConfig
  | 0x0602 => handleCreateQp
  | 0x0603 => handleModifyQp
  | 0x0604 => handleDestroyQp
  | 0x0605 => handleRegisterRegion
  | 0x0606 => handleRevokeRegion
  | 0x0607 => handleCreateFoldWindow
  | 0x0608 => handleDestroyFoldWindow
  | 0x0701 => handleSetBudget
  | 0x0702 => handleGetEnergy
  | 0x0801 => handleConfigWrite
  | 0x0802 => handleConfigDigest
  | 0x0803 => handleFwStage
  | 0x0804 => handleFwCommit
  | 0x0901 => handleLogRead
  | 0x0902 => handleLifetimeRead
  | 0x0A01 => handleSyncInspect
  | 0x0A02 => handleTraceRead
  | 0x0A03 => handleDebugUnlock
  | _ => fun _ _ _ => .refuse .badOpcode

/-! ## Held commands -/

/-- What a held command waits for is tried again by running its handler again. -/
def Hold.retried : Hold → Bool
  | .entropy => true
  | .retry => true
  | .slotUse _ => true
  | _ => false

/-- A supply command that may have finished: ranges whose deadline waited for it are judged (R120). -/
def State.afterSupply (s : State) (ch : Fin 17) (r : Req) : State :=
  if r.op = 0x0303 || r.op = 0x0304 then s.judgeOverdue (chanPart ch) (bits (word r.payload 0) 10 0) else s

/-- A held command tries to go on (R518). An OPEN_SESSION that waited for its partition meets the rows of R426 that follow. -/
def State.resume (s : State) (ch : Fin 17) : State :=
  match (s.chans[ch]).held with
  | some h =>
    if !h.why.retried || (ch != 0 && (s.parts[chanPart ch]).st = .creating) then s
    else
      let t := (s.modChan ch (fun c => { c with held := none })).inRtp ch h.req.op
      if h.req.op = 0x0204 && h.req.payload.length != 29 then t.settle ch h.req (.refuse .badLength)
      else (t.settle ch h.req (handlerOf h.req.op ch h.req t)).afterSupply ch h.req
  | none => s

/-- Take whole commands that wait while the channel is free, each in a turn of the channel (R418, R427, R518). -/
def State.takeWaiting (s : State) (ch : Fin 17) : Nat → State
  | 0 => s
  | n + 1 =>
    match (s.chans[ch]).waiting with
    | [] => s
    | w :: ws =>
      let (op, c, short) := match w with
        | .raw w0 w1 p => ofRaw s ch w0 w1 p
        | .typed op c => (op, c, false)
      if !(s.chans[ch]).free c.async then s
      else
        let old := s.credits ch
        let s := State.noteCredit old ((s.modChan ch (fun k => { k with waiting := ws })).inService ch) ch
        (s.takeCmd (handlerOf op) ch op c short).takeWaiting ch n

/-- ENTROPY_WAIT_TIMEOUT (R301): 50 ms after its acceptance a command held for entropy fails with RNG_NOT_READY if the entropy is still
missing; one whose entropy has come goes on. -/
def execEntropyWaitTimeout (ch : Fin 17) (s : State) : Host.Outcome State Fault Refusal :=
  .next (
    match (s.chans[ch]).held with
    | some h =>
      if h.why = .entropy then
        let s := ((s.advance (h.req.since + 50 * ms)).inService ch).resume ch
        match (s.chans[ch]).held with
        | some h =>
          if h.why = .entropy then
            let s := s.count ch .cmdRefused 1
            let s := if ch = 0 then s else s.count ch .rngNotReady 1
            s.finishHeld ch .rngNotReady []
          else s
        | none => s
      else s
    | none => s)

/-! ## Turns (R344, R518) -/

/-- SERVICE_TURN (R427, R518): the channel's turn of its service core; held commands resume and waiting commands are taken. -/
def execServiceTurn (ch : Fin 17) (s : State) : Host.Outcome State Fault Refusal :=
  .next (
    if !s.mailboxReady then s
    else
      let s := (s.inService ch).resume ch
      let s := if ch = 0 then s.resumeReset else s
      s.takeWaiting ch (s.chans[ch]).waiting.length)

/-- Slots whose re-mask is overdue, lowest first, at most `n` (R313). -/
def State.overdue (s : State) (n : Nat) : List (Nat × KeySlot × Nat) :=
  (s.pannier.filterMap (fun e =>
    (remaskUnits e.2.period).bind (fun u => if e.2.remaskAt ≤ s.clock then some (e.1, e.2, u) else none))).take n

/-- RTP_TURN (R313, R344): turn n of a channel 0 to 16, in which a key operation that waits for its slot goes on; turn 17 is for
housekeeping: in its 10 µs at most five slots are re-masked. -/
def execRtpTurn (turn : Fin 18) (s : State) : Host.Outcome State Fault Refusal :=
  .next (
    if !s.mailboxReady then s
    else
      let s := s.advance (s.rtpFrom turn.val s.clock)
      if turn = 17 then (s.overdue 5).foldl (fun s e => s.remask e.1 e.2.1 e.2.2) s
      else
        let ch := Fin.ofNat 17 turn.val
        match (s.chans[ch]).held with
        | some h =>
          match h.why with
          | .slotUse _ => s.resume ch
          | _ => s
        | none => s)

/-- PENDING_REPLY_APPENDED (R420, R434): the oldest finished reply that has waited is appended once it fits, and a module reset whose reply it
was begins. -/
def execPendingReplyAppended (ch : Fin 17) (s : State) : Host.Outcome State Fault Refusal :=
  .next (
    let s := s.appendWaiting ch
    if ch = 0 then s.resumeReset else s)

/-! ## ASYNC commands (R431) -/

/-- Split a list at its first element that satisfies a test. -/
def splitFirst {α : Type} (f : α → Bool) : List α → Option (List α × α × List α)
  | [] => none
  | x :: xs => if f x then some ([], x, xs) else (splitFirst f xs).map (fun r => (x :: r.1, r.2.1, r.2.2))

/-- ASYNC_COMMAND_FINISH (R428, R431): the oldest ASYNC command that can go on does, in a turn of its channel (R518), and its final reply
follows, or it waits for seed-unit work. -/
def execAsyncCommandFinish (ch : Fin 17) (s : State) : Host.Outcome State Fault Refusal :=
  .next (
    match splitFirst (fun h : Held => h.why.retried) (s.chans[ch]).asyncs with
    | none => s
    | some (a, h, b) =>
      let put (l : List Held) (s : State) : State := s.modChan ch (fun c => { c with asyncs := l })
      let t := put (a ++ b) (s.inService ch)
      match handlerOf h.req.op ch h.req t with
      | .hold why t => put (a ++ [⟨h.req, why⟩] ++ b) t
      | x =>
        let t := (t.settle ch h.req x).afterSupply ch h.req
        if ch = 0 then t.resumeReset else t)

end Sys2Proof.Machine
end

