-- ==== Sys2Proof/Machine/Registers.lean ====
section
/-! DEFINITION. The register maps (R406, R408, R410, R411, R444, R445): what an access to each offset of BAR0, of the PF's BAR2 and of
configuration space reads or does, and what JTAG may read (R340). A read that changes nothing has no row of its own: its value is a function
of the state. -/

namespace Sys2Proof.Machine

/-! ## Configuration space (R406) -/

/-- What configuration space says of a function: vendor, device, class code, the sizes of its BARs by number, interrupt vectors, and the
bytes of the Device Serial Number capability, which the PF alone carries here (DESIGN CHOICE: the table names it once). -/
structure PciIdentity where
  vendor : Nat
  device : Nat
  classCode : Nat
  bars : List (Nat × Nat)
  vectors : Nat
  serial : List Byte
  deriving DecidableEq, Repr

/-- The SR-IOV capability of the PF: TotalVFs, InitialVFs, First VF Offset, VF Stride, and NumVFs as written (R406, R407). -/
structure PciVfs where
  total : Nat
  initial : Nat
  offset : Nat
  stride : Nat
  num : Nat
  deriving DecidableEq, Repr

/-- The identity of a function (R406). -/
def pciIdentity (ch : Fin 17) : PciIdentity :=
  { vendor := 0x1E5B, device := if ch = 0 then 0x9032 else 0x9033, classCode := 0x120000
    bars := if ch = 0 then [(0, 2 ^ 16), (2, 2 ^ 20)] else [(0, 2 ^ 16)], vectors := 5
    serial := if ch = 0 then deviceFp.take 8 else [] }

/-- The PF's SR-IOV capability. -/
def State.pciVfs (s : State) : PciVfs := ⟨16, 16, 1, 1, s.boot.numVfs⟩

/-! ## Reads without side effects -/

/-- Positions of the telemetry block that hold a count: those of R444 on a VF, those of R445 on the PF. -/
def countListed (ch : Fin 17) (i : Nat) : Bool := if ch = 0 then i < 2 || (27 ≤ i && i < 31) else i < 31

/-- Nanoseconds for which a pause that stands has held the partition's links so far (R95). -/
def State.pauseSoFar (s : State) (ch : Fin 17) : Nat :=
  let x := (s.parts[chanPart ch]).rnd
  if ch = 0 || x.paused.isEmpty then 0 else (s.clock - x.pausedAt) / ns

/-- A word of a channel's telemetry block (R444, R445). -/
def State.telemetry (s : State) (ch : Fin 17) (i : Nat) : W64 :=
  if !countListed ch i then 0
  else
    w64 (satAdd (2 ^ 64 - 1) ((s.chans[ch]).counts.getD i 0) (if i = Count.pos .foldPauseNs then s.pauseSoFar ch else 0))

/-- A word of the MSI-X table: the address of an entry, or its data and vector control (R410, in the PCI layout, PRESUMED). -/
def Channel.msixWord (c : Channel) (i : Nat) : W64 :=
  let e := c.msix.getD (i / 2) ⟨0, 0, true⟩
  if i % 2 = 0 then e.addr else w64 (b2n e.masked * 2 ^ 32 + e.data)

/-- A 64-bit read of BAR0 (R410): the registers of R412 to R417, the telemetry block, the MSI-X table and its pending bits; reserved offsets,
and MBX_CMD_DATA, which is write-only, read as 0. The value of a data or status register is what its own row returns. -/
def State.bar0Word (s : State) (ch : Fin 17) (off : Nat) : W64 :=
  let c := s.chans[ch]
  if 0x100 ≤ off && off < 0x200 then s.telemetry ch ((off - 0x100) / 8)
  else if 0x8000 ≤ off && off < 0x8050 then c.msixWord ((off - 0x8000) / 8)
  else
    match off with
    | 0x00 => mbxId ch
    | 0x08 => s.mbxStatus ch
    | 0x10 => w64 (s.credits ch)
    | 0x20 => c.rplStatus
    | 0x28 => ((popWord c.replies).map Prod.fst).getD 0
    | 0x30 => c.evtStatus
    | 0x38 => ((popWord c.events).map Prod.fst).getD 0
    | 0x40 => w64 c.irqMask
    | 0x48 => w64 c.irqCause
    | 0x50 => w64 c.seqExpect
    | 0x9000 => w64 c.irqUnsent
    | _ => 0

/-- A value word of the counter mirror (R290): VALUE at the first device tick of the counter's cluster, 0 while the mirror of its partition is
off. -/
def State.mirrorWord (s : State) (c i : Nat) : W64 :=
  match s.mirrored c with
  | some p => w64 ((s.toTick p).counter ⟨c, i⟩).value
  | none => 0

/-- A 64-bit read of the PF's BAR2 (R411). -/
def State.bar2Word (s : State) (off : Nat) : W64 :=
  if off < 0x80000 then s.mirrorWord (off / 8 / 2048) (off / 8 % 2048)
  else
    match off with
    | 0x90000 => s.devStatus
    | 0x90008 => s.bootProgress
    | 0x90010 => w64 s.nvm.life.seconds
    | _ => 0

/-- What a read of a function's register returns: 0 where the access is not a naturally aligned one of 64 bits (R408). A part of an MSI-X table
entry may be read 32 bits at a time (PRESUMED: PCI). -/
def State.registerRead (s : State) (ch : Fin 17) (sp : RegSpace) (off width : Nat) : W64 :=
  match sp with
  | .bar0 =>
    if width = 8 && off % 8 = 0 then s.bar0Word ch off
    else if width = 4 && off % 4 = 0 && 0x8000 ≤ off && off < 0x8050 then w64 ((s.bar0Word ch (off / 8 * 8)).toNat / 2 ^ (off % 8 * 8) % 2 ^ 32)
    else 0
  | .bar2 => if ch = 0 && width = 8 && off % 8 = 0 then s.bar2Word off else 0
  | .pm => if (s.chans[ch]).d3hot then 3 else 0
  | .command => w64 (b2n (s.boot.bme.getD ch.val false) * 4)

/-! ## Writes -/

/-- A write to BAR0 (R408, R410): the MSI-X table takes aligned 32-bit and 64-bit writes, every access to MBX_CMD_DATA but one of 64 bits at
its offset loses a word, and any other register takes aligned 64-bit writes alone. -/
def State.writeBar0 (s : State) (ch : Fin 17) (off width : Nat) (w : W64) : State :=
  if 0x8000 ≤ off && off < 0x8050 && (width = 8 || width = 4) && off % width = 0 then s.writeMsix ch off width w
  else if off / 8 = 3 then s.writeCmdWord ch (if off = 0x18 then width else 0) w
  else if width != 8 then s
  else if off = 0x08 then (if bitAt w 6 then s.flushCmd ch else s)
  else if off = 0x40 then s.writeIrqMask ch w
  else if off = 0x48 then s.writeIrqCause ch w
  else s

/-- REGISTER_WRITE (R5, R406, R408, R410, R411): a write to any register, applied by its access type. Read-only registers and reserved offsets
ignore it; the registers with rows of their own act as those rows do. Of the PF's BAR2 only MIRROR_SIGNAL takes a write, and of the Command
register the model holds Bus Master Enable, bit 2 (PRESUMED: PCI). -/
def execRegisterWrite (ch : Fin 17) (sp : RegSpace) (off width : Nat) (w : W64) (s : State) : Host.Outcome State Fault Refusal :=
  .next (if !s.reachable ch then s
    else
      match sp with
      | .bar2 => if ch = 0 && off = 0x80000 && width = 8 then s.mirrorSignal w else s
      | .pm => (s.modChan ch (fun c => { c with d3hot := bits w 1 0 == 3 })).flushIrq ch
      | .command => s.writeBme ch (bitAt w 2)
      | .bar0 => s.writeBar0 ch off width w)

/-! ## What JTAG may read (R289, R340) -/

/-- JTAG reads the counters and the trace of a partition while its scope is on or the device scope is unlocked. -/
def State.jtagReads (s : State) (p : Fin 16) : Bool :=
  s.jtagOn && (s.debugAccess.unlocked || ((s.parts[p]).st = .active && (s.parts[p]).debugOn))

/-- A counter as the debugger reads it: the words of a SYNC_INSPECT READ, at the first device tick (R289). How they are shifted out is not
stated; the model gives their values. -/
def State.jtagCounter (s : State) (p : Fin 16) (ctr : CtrRef) : Option (List W64) :=
  if s.jtagReads p && (s.parts[p]).clusterList.contains ctr.cluster then some ((s.toTick p).inspectWords p ctr) else none

/-- The trace buffer of a partition as the debugger reads it: the words of a TRACE_READ. -/
def State.jtagTrace (s : State) (p : Fin 16) (first n : Nat) : Option (List W64) :=
  if s.jtagReads p then some ((s.parts[p]).readTrace first n) else none

/-- A core as the debugger reads it, without the engines' key copies. -/
def Core.shown (x : Core) : Core := { x with ksKey := [] }

/-- A job as the debugger reads it: without the ticket that its first frame loaded (R234, R340). -/
def DrJob.shown (j : DrJob) : DrJob := { j with load := j.load.map (fun l => { l with ticket := Ticket.zero }) }

/-- A cluster as the debugger reads it once the device scope is unlocked: its cores, stores and counters, and neither its DRBG nor the words of its
random-number bank, nor anything of its tickets (R234). -/
def Cluster.shown (x : Cluster) : Cluster :=
  { x with
    cores := x.cores.map Core.shown, drbg := Crypto.Drbg.zero, reseedBuf := []
    der := { x.der with tickets := [], jobs := x.der.jobs.map DrJob.shown } }

/-- The state of a cluster through JTAG: none before the unlock. -/
def State.jtagCluster (s : State) (c : Fin 32) : Option Cluster :=
  if s.jtagOn && s.debugAccess.unlocked then some (s.clusters[c]).shown else none

end Sys2Proof.Machine
end

