-- ==== Sys2Proof/Machine/TensorOps.lean ====
section
/-! DEFINITION. The tn instructions (R135, R243 to R260). -/

namespace Sys2Proof.Machine

/-- Issue a tn instruction: a fault in ring mode (R135, R166), or on a bad operand; otherwise it occupies the engine, a drain from its
start. -/
def State.tn (s : State) (c : Fin 32) (k : Fin 8) (op : Nat) (occ : Issue → Nat) (ranges : Issue → State → List (Nat × Nat))
    (run : Issue → State → State) : State :=
  s.issue c k 2 2 op (fun i s =>
    if !(s.core c k).eng.tensor then s.fault i .badParam 4 0
    else
      match badOperands (ranges i s) with
      | some (kind, a) => s.fault i .badParam kind a
      | none =>
        let start := if op = 6 then Nat.max i.t (s.core c k).eng.mmaEnd else i.t
        run i ((s.meter i.p 2 start (occ i)).modEng c k (fun e => { e with free := i.t + occ i })))

/-- REP (R135). -/
def Issue.rep (i : Issue) : Nat := nfield i.v 38 27

/-- TN_CFG (R246, R247): the block, SR_STREAM and a status word; P and DCOUNT return to 0. -/
def execTnCfg (c : Fin 32) (k : Fin 8) (s : State) : Host.Outcome State Fault Refusal :=
  .next (s.tn c k 1 (fun _ => 16) (fun i s => [(s.regNat i 53 49, 64), (s.regNat i 43 39, 8)]) (fun i s =>
    let (b, s) := s.readStore i .core (s.regNat i 53 49) 64
    let ws := bytesToWords 8 b
    let s := s.modEng c k (fun e =>
      { e with block := some ws, stream := s.regNat i 48 44 % 2 ^ 32, p := 0, dcount := 0, stepKind := none, mixed := false })
    s.writeStore i 2 (i.t + 16) .core (s.regNat i 43 39) (leBytes 8 (b2n (parseCfg ws).isSome))))

/-- Accumulators without a defined value (R250): every register takes a free value, and so does every sum that is still in the adder tree. -/
def State.freeAcc (s : State) (i : Issue) : State :=
  let (vs, s) := s.freshBelow (2 ^ 32) 2048
  let n := (s.core i.c i.k).eng.tree.length
  let base := s.free
  { s.modEng i.c i.k (fun e =>
      { e with
        acc := ((List.range 2048).zip vs).filter (fun x => x.2 != 0), mixed := true
        tree := e.tree.zipIdx.map (fun x => { x.1 with junk := some (base + 2048 * x.2) }) }) with free := base + 2048 * n }

/-- The first free value of a run's sums, where the accumulators hold undefined values: one is set aside for each register and step. -/
def State.junkFor (s : State) (i : Issue) : Option Nat × State :=
  if (s.core i.c i.k).eng.mixed then (some s.free, { s with free := s.free + 2048 * i.rep }) else (none, s)

/-- Start product steps (R250): under a valid configuration they follow one another from the issue cycle, and P advances.
Where plain and compensated steps are mixed between two resets of P, the accumulators hold undefined values, until the sums of those steps
have landed and P is reset. -/
def State.startSteps (s : State) (i : Issue) (comp : Bool) : State :=
  let e := (s.core i.c i.k).eng
  let pace := if comp then 2 else 1
  let last := i.t + pace * i.rep + if comp then 13 else 11
  let s := (s.modEng i.c i.k (fun e => { e with mmaEnd := last })).fenceTo i last
  match e.cfg with
  | none => s
  | some cfg =>
    let s := if !cfg.isInt && cfg.groupLog2 ≥ 1 && e.stepKind == some !comp then s.freeAcc i else s
    let (junk, s) := s.junkFor i
    let (held, s) := s.runningHold i (2048 * i.rep)
    let r : MmaRun := ⟨comp, i.t, pace, s.regNat i 53 49, s.regNat i 48 44, e.p, i.rep, 0, cfg, junk, held⟩
    let s := if ((s.clusters[i.c]).der.jobs.filter (fun j => j.spans i.t i.t)).any (fun j => r.readsInto j) then s.spoil i i.t i.t else s
    (s.modEng i.c i.k (fun e =>
      { e with mma := some r, p := (e.p + i.rep * cfg.advance comp) % 16, stepKind := some comp })).modCore i.c i.k (fun x => x.settle i.t)

/-- The starts of the first panels. -/
def rangesMma (i : Issue) (s : State) : List (Nat × Nat) := [(s.regNat i 53 49, 1), (s.regNat i 48 44, 1)]

/-- TN_MMA (R250 to R252). -/
def execTnMma (c : Fin 32) (k : Fin 8) (s : State) : Host.Outcome State Fault Refusal :=
  .next (s.tn c k 2 Issue.rep rangesMma (fun i s => s.startSteps i false))

/-- TN_MMAC (R250, R253). -/
def execTnMmac (c : Fin 32) (k : Fin 8) (s : State) : Host.Outcome State Fault Refusal :=
  .next (s.tn c k 3 (fun i => 2 * i.rep) rangesMma (fun i s => s.startSteps i true))

/-- The bytes that a preload reads (R254). -/
def State.preBytes (s : State) (i : Issue) : Nat :=
  match (s.core i.c i.k).eng.cfg with
  | some cfg => if i.rep % 2 = 1 then cfg.tm * cfg.tn * 4 else cfg.tn * 4
  | none => 1

/-- TN_PRE (R254, R255): the registers are written when it issues, and sums still in the adder tree are added afterwards. -/
def execTnPre (c : Fin 32) (k : Fin 8) (s : State) : Host.Outcome State Fault Refusal :=
  .next (s.tn c k 4 (fun _ => 32) (fun i s => [(s.regNat i 53 49, s.preBytes i)]) (fun i s =>
    match (s.core c k).eng.cfg with
    | none => s
    | some cfg =>
      let (b, s) := s.readStore i .core (s.regNat i 53 49) (s.preBytes i)
      (s.modCore c k (fun x =>
        { x with eng := x.eng.preload cfg (x.loc.writeN (s.regNat i 53 49) b) (s.regNat i 53 49) i.rep })).fenceTo i (i.t + 32)))

/-- TN_ZERO (R243, R255). -/
def execTnZero (c : Fin 32) (k : Fin 8) (s : State) : Host.Outcome State Fault Refusal :=
  .next (s.tn c k 5 (fun _ => 1) (fun _ _ => []) (fun i s => (s.modEng c k Engine.zeroAcc).fenceTo i (i.t + 1)))

/-- The operands of a drain: its destination, and the vectors that its flags call for (R256). -/
def rangesDrain (i : Issue) (s : State) : List (Nat × Nat) :=
  match (s.core i.c i.k).eng.cfg with
  | some cfg =>
    (s.regNat i 43 39, 1) :: ((if cfg.useScale then [(s.regNat i 53 49, 4 * cfg.tn)] else []) ++
      (if cfg.useBias then [(s.regNat i 48 44, 4 * cfg.tn)] else []))
  | none => [(s.regNat i 43 39, 1)]

/-- TN_DRAIN (R135, R256): it starts at its issue or at the latency end of the last product steps, and the engine accepts
nothing until 64 cycles later. Under no valid configuration it takes its cycles and writes nothing (R247). -/
def execTnDrain (c : Fin 32) (k : Fin 8) (s : State) : Host.Outcome State Fault Refusal :=
  .next (s.tn c k 6 (fun _ => 64) rangesDrain (fun i s =>
    let e := (s.core c k).eng
    let start := Nat.max i.t e.mmaEnd
    let s := (s.modEng c k (fun e => { e with free := start + 64 })).fenceTo i (start + 64)
    match e.cfg with
    | none => s
    | some cfg =>
      let d : DrainRun := ⟨start, s.regNat i 53 49, s.regNat i 48 44, s.regNat i 43 39, cfg, none⟩
      let jobs := (s.clusters[c]).der.jobs
      let s := if jobs.any (fun j => d.reachesInto j) then s.spoil i start (start + 64) else s
      let (d, s) := if jobs.any (fun j => j.begins ≤ i.t && j.spans start start) then
          ({ d with junk := some s.free }, { s with free := s.free + 32768 })
        else (d, s)
      (s.modEng c k (fun e => { e with drain := some d })).modCore c k (fun x => x.settle i.t)))

end Sys2Proof.Machine
end

