-- ==== Sys2Proof/Machine/Dispatch.lean ====
section
/-! DEFINITION. The dispatch of commands: one arm per constructor of `Instr`, each a direct call of its meaning. -/

namespace Sys2Proof.Machine

/-- The effect of a command on everything but the queue (spec/opcode_table.json). -/
def exec (i : Instr) (s : State) : Host.Outcome State Fault Refusal :=
  match i with
  | .getInfo ch c => Sys2Proof.Machine.execGetInfo ch c s
  | .getStatus ch c => Sys2Proof.Machine.execGetStatus ch c s
  | .resetDeviceWarm ch c e => Sys2Proof.Machine.execResetDeviceWarm ch c e s
  | .resetDeviceCold ch c e => Sys2Proof.Machine.execResetDeviceCold ch c e s
  | .resetDeviceLink ch c => Sys2Proof.Machine.execResetDeviceLink ch c s
  | .resetDevicePartition ch c => Sys2Proof.Machine.execResetDevicePartition ch c s
  | .setCalendar ch c => Sys2Proof.Machine.execSetCalendar ch c s
  | .createPartition ch c => Sys2Proof.Machine.execCreatePartition ch c s
  | .partitionCreationDone p => Sys2Proof.Machine.execPartitionCreationDone p s
  | .destroyPartition ch c => Sys2Proof.Machine.execDestroyPartition ch c s
  | .partitionDestructionDone p => Sys2Proof.Machine.execPartitionDestructionDone p s
  | .queryPartitionDescribe ch c => Sys2Proof.Machine.execQueryPartitionDescribe ch c s
  | .queryPartitionSetFoldK ch c => Sys2Proof.Machine.execQueryPartitionSetFoldK ch c s
  | .openSession ch c => Sys2Proof.Machine.execOpenSession ch c s
  | .setEgressAllowSet ch c => Sys2Proof.Machine.execSetEgressAllowSet ch c s
  | .setEgressAllowClear ch c => Sys2Proof.Machine.execSetEgressAllowClear ch c s
  | .openRound ch c => Sys2Proof.Machine.execOpenRound ch c s
  | .roundClearingDone p tag => Sys2Proof.Machine.execRoundClearingDone p tag s
  | .closeRound ch c => Sys2Proof.Machine.execCloseRound ch c s
  | .rangeClosed p tag n => Sys2Proof.Machine.execRangeClosed p tag n s
  | .mendWindowEnd p tag n => Sys2Proof.Machine.execMendWindowEnd p tag n s
  | .rangeFinal p tag n => Sys2Proof.Machine.execRangeFinal p tag n s
  | .supplySeeds ch c => Sys2Proof.Machine.execSupplySeeds ch c s
  | .supplyShares ch c => Sys2Proof.Machine.execSupplyShares ch c s
  | .seedUnitJobDone p => Sys2Proof.Machine.execSeedUnitJobDone p s
  | .recoverStart ch c => Sys2Proof.Machine.execRecoverStart ch c s
  | .recoverNeeds ch c => Sys2Proof.Machine.execRecoverNeeds ch c s
  | .recoveryDeadline p tag n => Sys2Proof.Machine.execRecoveryDeadline p tag n s
  | .releaseAggregate ch c => Sys2Proof.Machine.execReleaseAggregate ch c s
  | .roundStatusSummary ch c => Sys2Proof.Machine.execRoundStatusSummary ch c s
  | .roundStatusClient ch c => Sys2Proof.Machine.execRoundStatusClient ch c s
  | .roundStatusTornList ch c => Sys2Proof.Machine.execRoundStatusTornList ch c s
  | .roundStatusAbsentList ch c => Sys2Proof.Machine.execRoundStatusAbsentList ch c s
  | .abortRound ch c => Sys2Proof.Machine.execAbortRound ch c s
  | .roundEndDrainDone p tag => Sys2Proof.Machine.execRoundEndDrainDone p tag s
  | .keyGenerate ch c => Sys2Proof.Machine.execKeyGenerate ch c s
  | .keyAttestKey ch c => Sys2Proof.Machine.execKeyAttestKey ch c s
  | .keyAttestLog ch c => Sys2Proof.Machine.execKeyAttestLog ch c s
  | .keyRotateMemory ch c => Sys2Proof.Machine.execKeyRotateMemory ch c s
  | .epochFlip p => Sys2Proof.Machine.execEpochFlip p s
  | .keyRotateTenantKey ch c => Sys2Proof.Machine.execKeyRotateTenantKey ch c s
  | .keyRotateLinkSak ch c => Sys2Proof.Machine.execKeyRotateLinkSak ch c s
  | .keyRotateLinkBinigal ch c => Sys2Proof.Machine.execKeyRotateLinkBinigal ch c s
  | .keyDestroySlot ch c => Sys2Proof.Machine.execKeyDestroySlot ch c s
  | .keyDestroyZeroise ch c => Sys2Proof.Machine.execKeyDestroyZeroise ch c s
  | .bindWeights ch c => Sys2Proof.Machine.execBindWeights ch c s
  | .unwrapWeights ch c => Sys2Proof.Machine.execUnwrapWeights ch c s
  | .setRemask ch c => Sys2Proof.Machine.execSetRemask ch c s
  | .remaskPeriod slot => Sys2Proof.Machine.execRemaskPeriod slot s
  | .loadProgramLoad ch c => Sys2Proof.Machine.execLoadProgramLoad ch c s
  | .loadProgramUnload ch c => Sys2Proof.Machine.execLoadProgramUnload ch c s
  | .runTask ch c => Sys2Proof.Machine.execRunTask ch c s
  | .taskStatus ch c => Sys2Proof.Machine.execTaskStatus ch c s
  | .cancelTask ch c => Sys2Proof.Machine.execCancelTask ch c s
  | .taskCancelStop p => Sys2Proof.Machine.execTaskCancelStop p s
  | .taskDispatch p => Sys2Proof.Machine.execTaskDispatch p s
  | .taskEnd p => Sys2Proof.Machine.execTaskEnd p s
  | .taskFaultStop p => Sys2Proof.Machine.execTaskFaultStop p s
  | .taskCycleLimit p => Sys2Proof.Machine.execTaskCycleLimit p s
  | .siteDefectDetected site => Sys2Proof.Machine.execSiteDefectDetected site s
  | .ctlEnd c k => Sys2Proof.Machine.execCtlEnd c k s
  | .ctlLi c k => Sys2Proof.Machine.execCtlLi c k s
  | .ctlAdd c k => Sys2Proof.Machine.execCtlAdd c k s
  | .ctlSub c k => Sys2Proof.Machine.execCtlSub c k s
  | .ctlAddi c k => Sys2Proof.Machine.execCtlAddi c k s
  | .ctlShl c k => Sys2Proof.Machine.execCtlShl c k s
  | .ctlSetl c k => Sys2Proof.Machine.execCtlSetl c k s
  | .ctlLoop c k => Sys2Proof.Machine.execCtlLoop c k s
  | .ctlIdle c k => Sys2Proof.Machine.execCtlIdle c k s
  | .ctlMode c k => Sys2Proof.Machine.execCtlMode c k s
  | .mvLd c k => Sys2Proof.Machine.execMvLd c k s
  | .mvSt c k => Sys2Proof.Machine.execMvSt c k s
  | .mvLdsh c k => Sys2Proof.Machine.execMvLdsh c k s
  | .mvStsh c k => Sys2Proof.Machine.execMvStsh c k s
  | .mvLsh c k => Sys2Proof.Machine.execMvLsh c k s
  | .mvSsh c k => Sys2Proof.Machine.execMvSsh c k s
  | .moveComplete c k => Sys2Proof.Machine.execMoveComplete c k s
  | .ringNtt c k => Sys2Proof.Machine.execRingNtt c k s
  | .ringIntt c k => Sys2Proof.Machine.execRingIntt c k s
  | .ringAdd c k => Sys2Proof.Machine.execRingAdd c k s
  | .ringSub c k => Sys2Proof.Machine.execRingSub c k s
  | .ringMul c k => Sys2Proof.Machine.execRingMul c k s
  | .ringMac c k => Sys2Proof.Machine.execRingMac c k s
  | .ringMulc c k => Sys2Proof.Machine.execRingMulc c k s
  | .ringBce c k => Sys2Proof.Machine.execRingBce c k s
  | .ringAuto c k => Sys2Proof.Machine.execRingAuto c k s
  | .ringLdb c k => Sys2Proof.Machine.execRingLdb c k s
  | .ringKchk c k => Sys2Proof.Machine.execRingKchk c k s
  | .tnCfg c k => Sys2Proof.Machine.execTnCfg c k s
  | .tnMma c k => Sys2Proof.Machine.execTnMma c k s
  | .tnMmac c k => Sys2Proof.Machine.execTnMmac c k s
  | .tnPre c k => Sys2Proof.Machine.execTnPre c k s
  | .tnZero c k => Sys2Proof.Machine.execTnZero c k s
  | .tnDrain c k => Sys2Proof.Machine.execTnDrain c k s
  | .foldAdd c k => Sys2Proof.Machine.execFoldAdd c k s
  | .foldSub c k => Sys2Proof.Machine.execFoldSub c k s
  | .ksKey c k => Sys2Proof.Machine.execKsKey c k s
  | .ksGen c k => Sys2Proof.Machine.execKsGen c k s
  | .drJob c k => Sys2Proof.Machine.execDrJob c k s
  | .drJobLookup c => Sys2Proof.Machine.execDrJobLookup c s
  | .drJobBlind c => Sys2Proof.Machine.execDrJobBlind c s
  | .drJobUnblind c => Sys2Proof.Machine.execDrJobUnblind c s
  | .refreshFlushComplete p n => Sys2Proof.Machine.execRefreshFlushComplete p n s
  | .refreshTicketExpiry c t => Sys2Proof.Machine.execRefreshTicketExpiry c t s
  | .synAddi c k => Sys2Proof.Machine.execSynAddi c k s
  | .synAdd c k => Sys2Proof.Machine.execSynAdd c k s
  | .synWait c k => Sys2Proof.Machine.execSynWait c k s
  | .waitRelease c k => Sys2Proof.Machine.execWaitRelease c k s
  | .synFence c k => Sys2Proof.Machine.execSynFence c k s
  | .synBar c k => Sys2Proof.Machine.execSynBar c k s
  | .barrierComplete p => Sys2Proof.Machine.execBarrierComplete p s
  | .syncInspectRead ch c => Sys2Proof.Machine.execSyncInspectRead ch c s
  | .syncInspectScan ch c => Sys2Proof.Machine.execSyncInspectScan ch c s
  | .syncInspectMirrorOn ch c => Sys2Proof.Machine.execSyncInspectMirrorOn ch c s
  | .syncInspectMirrorOff ch c => Sys2Proof.Machine.execSyncInspectMirrorOff ch c s
  | .mirrorSignal w => Sys2Proof.Machine.execMirrorSignal w s
  | .traceRead ch c => Sys2Proof.Machine.execTraceRead ch c s
  | .portConfigSetLink ch c => Sys2Proof.Machine.execPortConfigSetLink ch c s
  | .portConfigSetCak ch c => Sys2Proof.Machine.execPortConfigSetCak ch c s
  | .portConfigStatus ch c => Sys2Proof.Machine.execPortConfigStatus ch c s
  | .portConfigSetCc ch c => Sys2Proof.Machine.execPortConfigSetCc ch c s
  | .createQpStore ch c => Sys2Proof.Machine.execCreateQpStore ch c s
  | .createQpCreate ch c => Sys2Proof.Machine.execCreateQpCreate ch c s
  | .modifyQpState ch c => Sys2Proof.Machine.execModifyQpState ch c s
  | .modifyQpPostEgress ch c => Sys2Proof.Machine.execModifyQpPostEgress ch c s
  | .destroyQp ch c => Sys2Proof.Machine.execDestroyQp ch c s
  | .registerRegion ch c => Sys2Proof.Machine.execRegisterRegion ch c s
  | .revokeRegion ch c => Sys2Proof.Machine.execRevokeRegion ch c s
  | .revocationDrained p n => Sys2Proof.Machine.execRevocationDrained p n s
  | .revocationTimeout p n => Sys2Proof.Machine.execRevocationTimeout p n s
  | .createFoldWindow ch c => Sys2Proof.Machine.execCreateFoldWindow ch c s
  | .destroyFoldWindow ch c => Sys2Proof.Machine.execDestroyFoldWindow ch c s
  | .frameReceived l f => Sys2Proof.Machine.execFrameReceived l f s
  | .ledgerStage p => Sys2Proof.Machine.execLedgerStage p s
  | .bitmapStage p n => Sys2Proof.Machine.execBitmapStage p n s
  | .foldStage p n => Sys2Proof.Machine.execFoldStage p n s
  | .commit p n => Sys2Proof.Machine.execCommit p n s
  | .regionPlacement p => Sys2Proof.Machine.execRegionPlacement p s
  | .contextFetchDone p n => Sys2Proof.Machine.execContextFetchDone p n s
  | .egressSendStart p n => Sys2Proof.Machine.execEgressSendStart p n s
  | .qpAckTimeout p n => Sys2Proof.Machine.execQpAckTimeout p n s
  | .alphaTimer p n => Sys2Proof.Machine.execAlphaTimer p n s
  | .rateTimer p n => Sys2Proof.Machine.execRateTimer p n s
  | .linkSignalLoss l => Sys2Proof.Machine.execLinkSignalLoss l s
  | .linkSignalDetect l => Sys2Proof.Machine.execLinkSignalDetect l s
  | .linkTrainingComplete l lane => Sys2Proof.Machine.execLinkTrainingComplete l lane s
  | .linkTrainingTimeout l => Sys2Proof.Machine.execLinkTrainingTimeout l s
  | .mkaPeerLost l mismatch => Sys2Proof.Machine.execMkaPeerLost l mismatch s
  | .sakPnExhausted l => Sys2Proof.Machine.execSakPnExhausted l s
  | .data l f => Sys2Proof.Machine.execData l f s
  | .signal l f => Sys2Proof.Machine.execSignal l f s
  | .barEnter l f => Sys2Proof.Machine.execBarEnter l f s
  | .barRelease l f => Sys2Proof.Machine.execBarRelease l f s
  | .tandemReleaseTime bid => Sys2Proof.Machine.execTandemReleaseTime bid s
  | .barFail l f => Sys2Proof.Machine.execBarFail l f s
  | .calibrate l f => Sys2Proof.Machine.execCalibrate l f s
  | .calibrationTimer => Sys2Proof.Machine.execCalibrationTimer s
  | .ack l f => Sys2Proof.Machine.execAck l f s
  | .nak l f => Sys2Proof.Machine.execNak l f s
  | .binigalResendTimeout l => Sys2Proof.Machine.execBinigalResendTimeout l s
  | .refuse l f => Sys2Proof.Machine.execRefuse l f s
  | .counterRead l f => Sys2Proof.Machine.execCounterRead l f s
  | .counterValue l f => Sys2Proof.Machine.execCounterValue l f s
  | .handshake l f => Sys2Proof.Machine.execHandshake l f s
  | .digest l f => Sys2Proof.Machine.execDigest l f s
  | .binigalTxcExhausted l => Sys2Proof.Machine.execBinigalTxcExhausted l s
  | .portBlockSend bid port => Sys2Proof.Machine.execPortBlockSend bid port s
  | .barrierHeldLong bid => Sys2Proof.Machine.execBarrierHeldLong bid s
  | .setBudgetModule ch c => Sys2Proof.Machine.execSetBudgetModule ch c s
  | .setBudgetPartition ch c => Sys2Proof.Machine.execSetBudgetPartition ch c s
  | .setBudgetPstate ch c => Sys2Proof.Machine.execSetBudgetPstate ch c s
  | .getEnergy ch c => Sys2Proof.Machine.execGetEnergy ch c s
  | .cadencePeriodEnd => Sys2Proof.Machine.execCadencePeriodEnd s
  | .sensorSample logic stack e => Sys2Proof.Machine.execSensorSample logic stack e s
  | .thermalTrip stack site reading => Sys2Proof.Machine.execThermalTrip stack site reading s
  | .supplySample mv e => Sys2Proof.Machine.execSupplySample mv e s
  | .holdTimeout e => Sys2Proof.Machine.execHoldTimeout e s
  | .residualEventDelayEnd hold => Sys2Proof.Machine.execResidualEventDelayEnd hold s
  | .rngBlockTested b n block => Sys2Proof.Machine.execRngBlockTested b n block s
  | .rngSourceSettled b n => Sys2Proof.Machine.execRngSourceSettled b n s
  | .rngWordDelivery b => Sys2Proof.Machine.execRngWordDelivery b s
  | .rngDataRead b => Sys2Proof.Machine.execRngDataRead b s
  | .rngStatusRead b => Sys2Proof.Machine.execRngStatusRead b s
  | .entropyWaitTimeout ch => Sys2Proof.Machine.execEntropyWaitTimeout ch s
  | .memorySweepSlot p rank => Sys2Proof.Machine.execMemorySweepSlot p rank s
  | .memorySweepDone p => Sys2Proof.Machine.execMemorySweepDone p s
  | .debugUnlockChallenge ch c => Sys2Proof.Machine.execDebugUnlockChallenge ch c s
  | .debugUnlockResponse ch c => Sys2Proof.Machine.execDebugUnlockResponse ch c s
  | .debugUnlockPartitionOn ch c => Sys2Proof.Machine.execDebugUnlockPartitionOn ch c s
  | .debugUnlockPartitionOff ch c => Sys2Proof.Machine.execDebugUnlockPartitionOff ch c s
  | .debugNonceExpiry => Sys2Proof.Machine.execDebugNonceExpiry s
  | .configWrite ch c => Sys2Proof.Machine.execConfigWrite ch c s
  | .configDigest ch c => Sys2Proof.Machine.execConfigDigest ch c s
  | .fwStage ch c => Sys2Proof.Machine.execFwStage ch c s
  | .fwCommit ch c => Sys2Proof.Machine.execFwCommit ch c s
  | .logRead ch c => Sys2Proof.Machine.execLogRead ch c s
  | .lifetimeRead ch c => Sys2Proof.Machine.execLifetimeRead ch c s
  | .counterStoreWrite => Sys2Proof.Machine.execCounterStoreWrite s
  | .lifetimeSecond => Sys2Proof.Machine.execLifetimeSecond s
  | .mbxCmdDataWrite ch width w => Sys2Proof.Machine.execMbxCmdDataWrite ch width w s
  | .flush ch => Sys2Proof.Machine.execFlush ch s
  | .mbxRplDataRead ch width => Sys2Proof.Machine.execMbxRplDataRead ch width s
  | .mbxEvtDataRead ch width => Sys2Proof.Machine.execMbxEvtDataRead ch width s
  | .mbxRplStatusRead ch width => Sys2Proof.Machine.execMbxRplStatusRead ch width s
  | .mbxEvtStatusRead ch width => Sys2Proof.Machine.execMbxEvtStatusRead ch width s
  | .mbxIrqMaskWrite ch width w => Sys2Proof.Machine.execMbxIrqMaskWrite ch width w s
  | .mbxIrqCauseWrite ch width w => Sys2Proof.Machine.execMbxIrqCauseWrite ch width w s
  | .registerWrite ch sp off width w => Sys2Proof.Machine.execRegisterWrite ch sp off width w s
  | .serviceTurn ch => Sys2Proof.Machine.execServiceTurn ch s
  | .rtpTurn turn => Sys2Proof.Machine.execRtpTurn turn s
  | .pendingReplyAppended ch => Sys2Proof.Machine.execPendingReplyAppended ch s
  | .asyncCommandFinish ch => Sys2Proof.Machine.execAsyncCommandFinish ch s
  | .functionLevelReset ch => Sys2Proof.Machine.execFunctionLevelReset ch s
  | .perstAssert => Sys2Proof.Machine.execPerstAssert s
  | .powerUp e => Sys2Proof.Machine.execPowerUp e s
  | .bootTimeout e => Sys2Proof.Machine.execBootTimeout e s
  | .resetNAssert width => Sys2Proof.Machine.execResetNAssert width s
  | .resetNRelease e => Sys2Proof.Machine.execResetNRelease e s
  | .powerLoss => Sys2Proof.Machine.execPowerLoss s
  | .spdmGetVersion ep req => Sys2Proof.Machine.execSpdmGetVersion ep req s
  | .spdmGetCapabilities ep req => Sys2Proof.Machine.execSpdmGetCapabilities ep req s
  | .spdmNegotiateAlgorithms ep req => Sys2Proof.Machine.execSpdmNegotiateAlgorithms ep req s
  | .spdmGetDigests ep req => Sys2Proof.Machine.execSpdmGetDigests ep req s
  | .spdmGetCertificate ep req => Sys2Proof.Machine.execSpdmGetCertificate ep req s
  | .spdmChallenge ep req => Sys2Proof.Machine.execSpdmChallenge ep req s
  | .spdmGetMeasurements ep req => Sys2Proof.Machine.execSpdmGetMeasurements ep req s
  | .spdmUnsupportedRequest ep code => Sys2Proof.Machine.execSpdmUnsupportedRequest ep code s
  | .mctpLogRead payload => Sys2Proof.Machine.execMctpLogRead payload s
  | .mctpLifetimeRead payload => Sys2Proof.Machine.execMctpLifetimeRead payload s
  | .entdaa addr => Sys2Proof.Machine.execEntdaa addr s
  | .setdasa static addr => Sys2Proof.Machine.execSetdasa static addr s
  | .rstdaa => Sys2Proof.Machine.execRstdaa s
  | .getpid addr => Sys2Proof.Machine.execGetpid addr s
  | .getbcr addr => Sys2Proof.Machine.execGetbcr addr s
  | .getdcr addr => Sys2Proof.Machine.execGetdcr addr s
  | .getstatus addr => Sys2Proof.Machine.execGetstatus addr s
  | .getmwl addr => Sys2Proof.Machine.execGetmwl addr s
  | .getmrl addr => Sys2Proof.Machine.execGetmrl addr s
  | .enec addr mask => Sys2Proof.Machine.execEnec addr mask s
  | .disec addr mask => Sys2Proof.Machine.execDisec addr mask s
  | .bypass tdi => Sys2Proof.Machine.execBypass tdi s
  | .idcode tdi => Sys2Proof.Machine.execIdcode tdi s
  | .extestPulse pins tdi => Sys2Proof.Machine.execExtestPulse pins tdi s
  | .extestTrain pins tdi => Sys2Proof.Machine.execExtestTrain pins tdi s
  | .perstRelease => Sys2Proof.Machine.execPerstRelease s
  | .busMasterEnableSet ch => Sys2Proof.Machine.execBusMasterEnableSet ch s
  | .numvfsWrite n => Sys2Proof.Machine.execNumvfsWrite n s
  | .refclkLoss => Sys2Proof.Machine.execRefclkLoss s
  | .railOutOfRange => Sys2Proof.Machine.execRailOutOfRange s
  | .firmwareFatalError code => Sys2Proof.Machine.execFirmwareFatalError code s
  | .binigalTagFailure l => Sys2Proof.Machine.execBinigalTagFailure l s
  | .rnrWaitExpiry p n => Sys2Proof.Machine.execRnrWaitExpiry p n s
  | .byteCounter p n => Sys2Proof.Machine.execByteCounter p n s
  | .pfcPauseExpiry l prio => Sys2Proof.Machine.execPfcPauseExpiry l prio s
  | .extest pins tdi => Sys2Proof.Machine.execExtest pins tdi s
  | .samplePreload pins tdi => Sys2Proof.Machine.execSamplePreload pins tdi s
  | .pldmRequest req => Sys2Proof.Machine.execPldmRequest req s

end Sys2Proof.Machine
end

