-- ==== Sys2Proof/Machine/Step.lean ====
section
/-! DEFINITION. One step of the block: it takes the command at the front of the queue, or lets a tick of wall time pass; and what the
host's questions about a row of the opcode table put in front of the queue. -/

namespace Sys2Proof.Machine

/-- A step (the model's own): `exec` of the command at the front of the queue, on the state with the queue's rest. With an empty queue
one device tick of 40 ns of the network complex passes (R9, R23), in which nothing else happens. -/
def step (s : State) : Host.Outcome State Fault Refusal :=
  match s.pending with
  | [] => .next { s with clock := s.clock + tickUnits }
  | i :: rest => exec i { s with pending := rest }

/-- The state with the command that a word spells at the front of its queue; no row of the table has bits, so no word spells one. -/
def State.withFetchWord (s : State) (nbits w : Nat) : State :=
  match decodeTableWord nbits w with
  | some i => { s with pending := i :: s.pending }
  | none => s

end Sys2Proof.Machine
end

