-- ==== Sys2Proof/WellFormed.lean ====
section
/-! DEFINITION. Which terms of `Instr` are commands that can reach the block: every operand inside the width its rule gives it. The
meanings are total and do not ask for well-formedness; a statement that needs it says so. -/

namespace Sys2Proof

/-- A mailbox command inside its header's fields (R421): SEQ and PARTITION 16 bits, HDR_VERSION 8, reserved bits 5 and 48, LENGTH at most
8,190 with the two tag words of a sealed payload, and a tag only on a sealed command. -/
def Cmd.wf (c : Cmd) : Bool :=
  decide (c.seq < 2 ^ 16) && decide (c.hdrVersion < 2 ^ 8) && decide (c.reserved < 2 ^ 48 + 2 ^ 5)
    && decide (c.partition < 2 ^ 16) && decide (c.payload.length + (if c.sealed then 2 else 0) ≤ 8190)
    && (c.sealed || !c.tagOk)

/-- What a boot meets: STEP 0 to 6, a 16-bit reason, repair pools of R27 with a site byte, and configuration slots A and B. -/
def BootEvents.wf (e : BootEvents) : Bool :=
  decide (e.reaches ≤ 6) && decide (e.reason < 2 ^ 16) && e.worn.all (fun w => decide (w < 2))
    && e.defects.all (fun d => decide (d.1 < 6) && decide (d.2.1 < 256) && decide (d.2.2 < 2 ^ 16))

/-- RoCEv2 fields (R365): QPN, PSN and RKEY of 24, 24 and 32 bits, address 64, length 32, immediate 32, syndrome 8. -/
def Roce.wf (r : Roce) : Bool :=
  decide (r.destQpn < 2 ^ 24) && decide (r.psn < 2 ^ 24) && decide (r.va < 2 ^ 64) && decide (r.rkey < 2 ^ 32)
    && decide (r.len < 2 ^ 32) && decide (r.imm < 2 ^ 32) && decide (r.syndrome < 2 ^ 8)
    && (match r.op with
      | .other op => decide (op < 2 ^ 8)
      | _ => true)

/-- The body of a frame: PFC names priorities 0 to 7, an address is as wide as its version, a wrapped SAK has 40 bytes. -/
def FrameBody.wf : FrameBody → Bool
  | .pfc times => times.all (fun t => decide (t.1 < 8))
  | .resolve v6 a => decide (a < 2 ^ (if v6 then 128 else 32))
  | .mkaSak prio sci sak => decide (prio < 2 ^ 8) && decide (sci < 2 ^ 64) && sak.all (fun k => decide (k.length = 40))
  | .mkaMismatch => true
  | .udp v6 a _ port _ r => decide (a < 2 ^ (if v6 then 128 else 32)) && decide (port < 2 ^ 16) && r.wf
  | .other => true

/-- A frame (R360, R364): 48-bit MACs, a 12-bit VLAN identifier, a 2-bit association number, 32 bits of the packet number, a 64-bit SCI and an
ICV of 16 bytes. -/
def Frame.wf (f : Frame) : Bool :=
  decide (f.mac < 2 ^ 48) && (f.vid.all (fun v => decide (v < 2 ^ 12)))
    && (f.macsec.all (fun m => decide (m.src < 2 ^ 48) && decide (m.an < 4) && decide (m.pn < 2 ^ 32) && decide (m.sci < 2 ^ 64)
      && decide (m.icv.length = 16))) && f.body.wf

/-- A Binigal frame (R393): the widths of its header's fields, and a payload of at most 4,096 bytes in multiples of 64. -/
def BFrame.wf (f : BFrame) : Bool :=
  decide (f.kind < 2 ^ 8) && decide (f.binding < 2 ^ 8) && decide (f.src < 2 ^ 4) && decide (f.dst < 2 ^ 4)
    && decide (f.hops < 2 ^ 4) && decide (f.seq < 2 ^ 32) && decide (f.txc < 2 ^ 64) && decide (f.arg0 < 2 ^ 64)
    && decide (f.arg1 < 2 ^ 32) && decide (f.payload.length ≤ 4096) && decide (f.payload.length % 64 = 0)

/-- The widths of an access to a register, in bytes (R408). -/
def accessWidth (n : Nat) : Bool := n == 1 || n == 2 || n == 4 || n == 8

/-- The readings of one kind of temperature sensor: one of 12 bits for each of the 36 sites (R460, R496). -/
def readings (l : List Nat) : Bool := decide (l.length = 36) && l.all (fun x => decide (x < 2 ^ 12))

/-- An SPDM request as carried over MCTP: at least its four header bytes. -/
def spdmSize (req : List Byte) : Bool := decide (4 ≤ req.length)

/-- Well-formed commands. -/
def Instr.wf : Instr → Bool
  | .getInfo _ c | .getStatus _ c | .resetDeviceLink _ c | .resetDevicePartition _ c | .setCalendar _ c
  | .createPartition _ c | .destroyPartition _ c | .queryPartitionDescribe _ c | .queryPartitionSetFoldK _ c
  | .openSession _ c | .setEgressAllowSet _ c | .setEgressAllowClear _ c | .openRound _ c | .closeRound _ c
  | .supplySeeds _ c | .supplyShares _ c | .recoverStart _ c | .recoverNeeds _ c | .releaseAggregate _ c
  | .roundStatusSummary _ c | .roundStatusClient _ c | .roundStatusTornList _ c | .roundStatusAbsentList _ c
  | .abortRound _ c | .keyGenerate _ c | .keyAttestKey _ c | .keyAttestLog _ c | .keyRotateMemory _ c
  | .keyRotateTenantKey _ c | .keyRotateLinkSak _ c | .keyRotateLinkBinigal _ c | .keyDestroySlot _ c
  | .keyDestroyZeroise _ c | .bindWeights _ c | .unwrapWeights _ c | .setRemask _ c | .loadProgramLoad _ c
  | .loadProgramUnload _ c | .runTask _ c | .taskStatus _ c | .cancelTask _ c | .syncInspectRead _ c
  | .syncInspectScan _ c | .syncInspectMirrorOn _ c | .syncInspectMirrorOff _ c | .traceRead _ c
  | .portConfigSetLink _ c | .portConfigSetCak _ c | .portConfigStatus _ c | .portConfigSetCc _ c | .createQpStore _ c
  | .createQpCreate _ c | .modifyQpState _ c | .modifyQpPostEgress _ c | .destroyQp _ c | .registerRegion _ c
  | .revokeRegion _ c | .createFoldWindow _ c | .destroyFoldWindow _ c | .setBudgetModule _ c | .setBudgetPartition _ c
  | .setBudgetPstate _ c | .getEnergy _ c | .debugUnlockChallenge _ c | .debugUnlockResponse _ c
  | .debugUnlockPartitionOn _ c | .debugUnlockPartitionOff _ c | .configWrite _ c | .configDigest _ c | .fwStage _ c
  | .fwCommit _ c | .logRead _ c | .lifetimeRead _ c => c.wf
  | .resetDeviceWarm _ c e | .resetDeviceCold _ c e => c.wf && e.wf
  | .partitionCreationDone _ | .partitionDestructionDone _ | .seedUnitJobDone _ | .epochFlip _ | .taskCancelStop _
  | .taskDispatch _ | .taskEnd _ | .taskFaultStop _ | .taskCycleLimit _ | .siteDefectDetected _ | .ctlEnd _ _
  | .ctlLi _ _ | .ctlAdd _ _ | .ctlSub _ _ | .ctlAddi _ _ | .ctlShl _ _ | .ctlSetl _ _ | .ctlLoop _ _ | .ctlIdle _ _
  | .ctlMode _ _ | .mvLd _ _ | .mvSt _ _ | .mvLdsh _ _ | .mvStsh _ _ | .mvLsh _ _ | .mvSsh _ _ | .moveComplete _ _
  | .ringNtt _ _ | .ringIntt _ _ | .ringAdd _ _ | .ringSub _ _ | .ringMul _ _ | .ringMac _ _ | .ringMulc _ _
  | .ringBce _ _ | .ringAuto _ _ | .ringLdb _ _ | .ringKchk _ _ | .tnCfg _ _ | .tnMma _ _ | .tnMmac _ _ | .tnPre _ _
  | .tnZero _ _ | .tnDrain _ _ | .foldAdd _ _ | .foldSub _ _ | .ksKey _ _ | .ksGen _ _ | .drJob _ _ | .drJobLookup _
  | .drJobBlind _ | .drJobUnblind _ | .refreshTicketExpiry _ _ | .synAddi _ _ | .synAdd _ _ | .synWait _ _
  | .waitRelease _ _ | .synFence _ _ | .synBar _ _ | .barrierComplete _ | .mirrorSignal _ | .ledgerStage _
  | .regionPlacement _ | .linkSignalLoss _ | .linkSignalDetect _
  | .linkTrainingComplete _ _ | .linkTrainingTimeout _ | .mkaPeerLost _ _
  | .sakPnExhausted _ | .tandemReleaseTime _ | .calibrationTimer | .binigalResendTimeout _ | .binigalTxcExhausted _
  | .portBlockSend _ _ | .barrierHeldLong _ | .cadencePeriodEnd | .residualEventDelayEnd _ | .rngSourceSettled _ _
  | .rngWordDelivery _ | .rngDataRead _ | .rngStatusRead _ | .entropyWaitTimeout _ | .memorySweepSlot _ _
  | .memorySweepDone _ | .debugNonceExpiry | .counterStoreWrite | .lifetimeSecond | .flush _ | .serviceTurn _
  | .rtpTurn _ | .pendingReplyAppended _ | .asyncCommandFinish _ | .functionLevelReset _ | .perstAssert
  | .resetNAssert _ | .powerLoss | .rstdaa | .bypass _ | .idcode _ | .extestPulse _ _ | .extestTrain _ _
  | .perstRelease | .busMasterEnableSet _ | .refclkLoss | .railOutOfRange | .binigalTagFailure _ | .pfcPauseExpiry _ _
  | .extest _ _ | .samplePreload _ _ => true
  | .roundClearingDone _ tag | .roundEndDrainDone _ tag => decide (tag < 2 ^ 32)
  | .rangeClosed _ tag i | .mendWindowEnd _ tag i | .rangeFinal _ tag i | .recoveryDeadline _ tag i =>
    decide (tag < 2 ^ 32) && decide (i < 2 ^ 18)
  | .remaskPeriod slot => decide (slot < 4096)
  | .refreshFlushComplete _ i | .revocationDrained _ i | .revocationTimeout _ i | .bitmapStage _ i | .foldStage _ i
  | .commit _ i | .contextFetchDone _ i | .egressSendStart _ i | .qpAckTimeout _ i | .alphaTimer _ i | .rateTimer _ i
  | .rnrWaitExpiry _ i | .byteCounter _ i => decide (i < 2 ^ 18)
  | .frameReceived _ f | .data _ f | .signal _ f | .barEnter _ f | .barRelease _ f | .barFail _ f | .calibrate _ f
  | .ack _ f | .nak _ f | .refuse _ f | .counterRead _ f | .counterValue _ f | .handshake _ f | .digest _ f => f.wf
  | .sensorSample logic stack e => readings logic && readings stack && e.wf
  | .thermalTrip _ _ reading => decide (reading < 2 ^ 12)
  | .supplySample mv e => decide (mv < 2 ^ 16) && e.wf
  | .holdTimeout e | .powerUp e | .bootTimeout e | .resetNRelease e => e.wf
  | .rngBlockTested _ _ raw => decide (raw.length = 8192)
  | .mbxCmdDataWrite _ width _ | .mbxRplDataRead _ width | .mbxEvtDataRead _ width | .mbxRplStatusRead _ width
  | .mbxEvtStatusRead _ width | .mbxIrqMaskWrite _ width _ | .mbxIrqCauseWrite _ width _ => accessWidth width
  | .registerWrite _ _ off width _ => decide (off < 2 ^ 16) && accessWidth width
  | .spdmGetVersion _ req | .spdmGetCapabilities _ req | .spdmNegotiateAlgorithms _ req | .spdmGetDigests _ req
  | .spdmGetCertificate _ req | .spdmChallenge _ req | .spdmGetMeasurements _ req | .pldmRequest req => spdmSize req
  | .spdmUnsupportedRequest _ code => decide (code < 256)
  | .mctpLogRead payload | .mctpLifetimeRead payload => decide (payload.length ≤ 8190)
  | .entdaa addr | .getpid addr | .getbcr addr | .getdcr addr | .getstatus addr | .getmwl addr | .getmrl addr =>
    decide (addr < 128)
  | .setdasa static addr => decide (static < 128) && decide (addr < 128)
  | .enec addr mask | .disec addr mask => decide (addr < 128) && decide (mask < 256)
  | .numvfsWrite n => decide (n < 2 ^ 16)
  | .firmwareFatalError code => decide (code < 2 ^ 64)

end Sys2Proof
end

