-- ==== Sys2Proof/Safety.lean ====
section
/-! DEFINITION. The terms in which statements speak of the block: when a channel takes a command at once and what it means that the command is
answered, which parts of the state a command leaves as they were, and what a part never takes back. -/

namespace Sys2Proof.Machine

open Sys2Proof.Machine.Crypto

/-! ## Taking and answering a command -/

/-- The partition of a channel. -/
def State.own (s : State) (ch : Fin 17) : Partition := s.parts[chanPart ch]

/-- The channel of the PF. -/
def State.pf (s : State) : Channel := s.chans[(0 : Fin 17)]

/-- The state when a command that a free channel takes is handled: wall time has come to the channel's service turn, and for a key operation
through the RTP's turn of the channel to the service turn after it (R344, R518); nothing else has changed. -/
def State.inTurn (s : State) (ch : Fin 17) (op : Nat) : State := (s.inService ch).inRtp ch op

/-- The request that a command makes when a free channel takes it. -/
def State.req (s : State) (ch : Fin 17) (op : Nat) (c : Cmd) : Req := mkReq (s.inService ch) ch op c

/-- The command completes: it answers a next state, of which `P` holds. -/
def Runs (i : Instr) (s : State) (P : State → Prop) : Prop := ∃ t, exec i s = .next t ∧ P t

/-- The row of R440 that a channel of this kind gives an opcode, with its sealing. -/
def rowOf (ch : Fin 17) (op : Nat) : Option (OpInfo × Sealing) :=
  (opInfo op).bind (fun i => (if ch = 0 then i.pf else i.vf).map (fun x => (i, x)))

/-- The command passes rows 1 to 9 of R426 on a part in service: the expected SEQ, HDR_VERSION 1, reserved bits 0, a whole command that is
neither part of a chain nor ASYNC, an opcode the channel serves, sealed where R440 requires it and then under a session key with a tag that
verifies, the channel's own partition number, an ACTIVE partition, and a payload length that R440 allows. -/
def passes (s : State) (ch : Fin 17) (op : Nat) (c : Cmd) : Bool :=
  decide (s.boot.phase = .ready) && decide (c.seq = (s.chans[ch]).seqExpect % 65536) && decide (c.hdrVersion = 1)
    && decide (c.reserved = 0) && c.last && !c.async
    && (!c.sealed || (decide (op ≠ 0x0204) && (s.keyAt (sessionSlot ch)).isSome && c.tagOk))
    && (match rowOf ch op with
      | some (i, x) => (c.sealed || decide (x ≠ .required)) && decide (i.lo ≤ c.payload.length)
          && decide (c.payload.length ≤ i.hi)
      | none => false)
    && decide (c.partition = if ch = 0 then 0xFFFF else ch.val - 1)
    && (decide (ch = 0) || decide ((s.parts[chanPart ch]).st = .active))

/-- The channel takes the command as soon as it is written (R418, R420, R427): the host reaches the function, all 16,384 words of credit stand,
no word was lost, nothing is held or waits, no chain is in progress, the reply buffer has room for the largest reply, and the command passes
the envelope. -/
def takes (s : State) (ch : Fin 17) (op : Nat) (c : Cmd) : Bool :=
  s.reachable ch && !(s.chans[ch]).cmdLost && (s.chans[ch]).partialCmd.isEmpty && (s.chans[ch]).waiting.isEmpty
    && (s.chans[ch]).held.isNone && (s.chans[ch]).unplaced.isEmpty && (s.chans[ch]).chain.isNone
    && decide ((s.chans[ch]).rplLevel ≤ 8192) && passes s ch op c

/-- What every finished command does to its channel (R420, R422, R425, R427): its reply is the newest in the buffer, REPLY is raised, the
sequence has advanced by 1, and the channel is free again. -/
structure Answered (s t : State) (ch : Fin 17) (op : Nat) (c : Cmd) (st : Status) (ws : List W64) : Prop where
  reply : (t.chans[ch]).replies = (s.chans[ch]).replies ++ [replyPacket ch.val (s.req ch op c) st ws]
  raised : (t.chans[ch]).irqCause.testBit irqReply = true
  sequence : (t.chans[ch]).seqExpect = ((s.chans[ch]).seqExpect + 1) % 2 ^ 64
  free : (t.chans[ch]).held = none ∧ (t.chans[ch]).waiting = [] ∧ (t.chans[ch]).unplaced = []

/-- Nothing but the channel and what the part shows outside has changed, and in the channel neither its events nor its ASYNC commands, its mask,
its MSI-X table or its power state. -/
structure OnlyChannel (s t : State) (ch : Fin 17) : Prop where
  rest : t = { s with chans := t.chans, out := t.out }
  others : ∀ j, j ≠ ch → t.chans[j] = s.chans[j]
  kept : (t.chans[ch]).events = (s.chans[ch]).events ∧ (t.chans[ch]).asyncs = (s.chans[ch]).asyncs ∧
    (t.chans[ch]).irqMask = (s.chans[ch]).irqMask ∧ (t.chans[ch]).msix = (s.chans[ch]).msix ∧
    (t.chans[ch]).d3hot = (s.chans[ch]).d3hot

/-- The command has its reply, the newest of its channel. -/
def Replied (s t : State) (ch : Fin 17) (op : Nat) (c : Cmd) (st : Status) (ws : List W64) : Prop :=
  (t.chans[ch]).replies = (s.chans[ch]).replies ++ [replyPacket ch.val (s.req ch op c) st ws]

/-- The command is held, for a reason. -/
def Holds (s t : State) (ch : Fin 17) (op : Nat) (c : Cmd) (why : Hold) : Prop :=
  (t.chans[ch]).held = some ⟨s.req ch op c, why⟩

/-- The channel of a VF takes the command at once. -/
abbrev vfTakes (s : State) (ch : Fin 17) (op : Nat) (c : Cmd) : Prop := takes s ch op c = true ∧ ch ≠ 0

/-- Nothing acknowledged before the command waits to be placed (R378). -/
abbrev State.ranDry (s : State) (ch : Fin 17) (op : Nat) (c : Cmd) : Bool := s.placed (chanPart ch) (s.req ch op c)

/-- Bits of a word of a command's payload. -/
abbrev payloadBits (c : Cmd) (n hi lo : Nat) : Nat := bits (word c.payload n) hi lo

/-- The command completes with a reply, and nothing but its channel and wall time changes. -/
def Answers (i : Instr) (s : State) (ch : Fin 17) (op : Nat) (c : Cmd) (st : Status) (ws : List W64) : Prop :=
  Runs i s fun t => Answered s t ch op c st ws ∧ OnlyChannel (s.inTurn ch op) t ch

/-- The command completes with a reply, and apart from its channel it leaves the state `f` of the one in which it is handled. -/
def AnswersWith (i : Instr) (s : State) (ch : Fin 17) (op : Nat) (c : Cmd) (st : Status) (ws : List W64) (f : State → State) : Prop :=
  Runs i s fun t => Answered s t ch op c st ws ∧ OnlyChannel (f (s.inTurn ch op)) t ch

/-- The command is held for a reason, unanswered, and apart from its channel it leaves the state `f` of the one in which it is handled. -/
def HoldsWith (i : Instr) (s : State) (ch : Fin 17) (op : Nat) (c : Cmd) (why : Hold) (f : State → State) : Prop :=
  Runs i s fun t => Holds s t ch op c why ∧ t.chans[ch].replies = s.chans[ch].replies ∧
    OnlyChannel (f (s.inTurn ch op)) t ch

/-- Rows 1 to 9 of R426 for a whole command, in order: whether the row's condition holds, and its status. Row 4 stands as two, for its two
statuses. -/
def envelope (s : State) (ch : Fin 17) (op : Nat) (c : Cmd) : List (Bool × Status) :=
  [ (decide (c.seq ≠ (s.chans[ch]).seqExpect % 65536), .badState),
    (decide (c.hdrVersion ≠ 1) || decide (c.reserved ≠ 0) || (!c.last && !chains op) || (c.async && !asyncOk op)
      || (c.sealed && decide (op = 0x0204)), .badParam),
    ((opInfo op).isNone, .badOpcode),
    (decide (s.boot.phase = .deviceFault) && !servedAlways op, .deviceFault),
    (decide (s.boot.phase = .fatal) && !servedAlways op && !leavesFatal ch op c, .fatal),
    ((match rowOf ch op with
      | some (_, x) => (decide (x = .required) && !c.sealed) || (c.sealed && (s.keyAt (sessionSlot ch)).isNone)
      | none => true), .notPermitted),
    (decide (c.partition ≠ if ch = 0 then 0xFFFF else ch.val - 1), .wrongPartition),
    (decide (ch ≠ 0) && decide ((s.parts[chanPart ch]).st ≠ .active), .badState),
    ((match rowOf ch op with
      | some (i, _) => decide (c.payload.length < i.lo) || decide (i.hi < c.payload.length)
      | none => false), .badLength),
    (c.sealed && !c.tagOk, .authFailed) ]

/-- The channel is idle but for one whole command that waits for its turn, and the reply buffer has room for the largest reply. -/
def onlyWaits (s : State) (ch : Fin 17) (op : Nat) (c : Cmd) : Prop :=
  s.mailboxReady = true ∧ (s.chans[ch]).waiting = [.typed op c] ∧ (s.chans[ch]).held = none ∧ (s.chans[ch]).unplaced = [] ∧
    (s.chans[ch]).asyncs = [] ∧ (s.chans[ch]).chain = none ∧ (s.chans[ch]).rplLevel ≤ 8192

/-! ## Frames -/

/-- The fields of the state, by name. -/
inductive Piece where
  | pending | clock | boot | nvm | power | chans | pannier | parts | banks | pool | devDrbg | rngAlarm | debugAccess | spdm | i3c | links | clusters
  | tandem | out | free
  deriving DecidableEq, Repr

/-- A field is the same in two states. -/
def Piece.same (s t : State) : Piece → Prop
  | .pending => t.pending = s.pending
  | .clock => t.clock = s.clock
  | .boot => t.boot = s.boot
  | .nvm => t.nvm = s.nvm
  | .power => t.power = s.power
  | .chans => t.chans = s.chans
  | .pannier => t.pannier = s.pannier
  | .parts => t.parts = s.parts
  | .banks => t.banks = s.banks
  | .pool => t.pool = s.pool
  | .devDrbg => t.devDrbg = s.devDrbg
  | .rngAlarm => t.rngAlarm = s.rngAlarm
  | .debugAccess => t.debugAccess = s.debugAccess
  | .spdm => t.spdm = s.spdm
  | .i3c => t.i3c = s.i3c
  | .links => t.links = s.links
  | .clusters => t.clusters = s.clusters
  | .tandem => t.tandem = s.tandem
  | .out => t.out = s.out
  | .free => t.free = s.free

/-- No field changes but those named. -/
def Only (l : List Piece) (s t : State) : Prop := ∀ f, f ∉ l → f.same s t

/-- No partition changes but the one named. -/
def OnlyPart (p : Fin 16) (s t : State) : Prop := ∀ q, q ≠ p → t.parts[q] = s.parts[q]

/-- Of the partitions only this one changes, and of the other fields none but those named. -/
def InPart (p : Fin 16) (l : List Piece) (s t : State) : Prop := OnlyPart p s t ∧ Only (.parts :: l) s t

/-- What the running of a partition's task may change: the clock, its partition, the clusters, the channels, the count of free values, the slot of
the tenant session key, of which its jobs hold copies (R312), and the fields named. -/
def InTask (p : Fin 16) (l : List Piece) (s t : State) : Prop :=
  InPart p (.clock :: .chans :: .clusters :: .free :: .pannier :: l) s t ∧
    ∀ n, n ≠ partSlot p 0 → Table.get? t.pannier n = Table.get? s.pannier n

/-- The state in which the handler of a command runs: in the turn of its channel its credits have returned, the command is counted and the sequence
has advanced. -/
def State.atHand (s : State) (ch : Fin 17) (op : Nat) (c : Cmd) : State :=
  (((State.noteCredit (16384 - (2 + cmdLength c)) (s.inService ch) ch).count ch .cmdTaken 1).modChan ch
    (fun k => { k with seqExpect := (k.seqExpect + 1) % 2 ^ 64 })).inRtp ch op

/-- The state in which a command that reads or writes a partition's DRAM is handled: the moves and jobs of the running task have met DRAM up to
then (R142, R225). -/
def State.dryTurn (s : State) (ch : Fin 17) (op : Nat) (c : Cmd) : State := (s.atHand ch op c).syncDram (chanPart ch)

/-- The state once a frame that carries the next SEQ of its link has been counted and acknowledged (R396). -/
def State.acked (s : State) (l : Fin 24) (f : BFrame) : State :=
  ((s.binCount l).modLink l (fun k =>
    { k with bin := { k.bin with seqRx := (k.bin.seqRx + 1) % 2 ^ 32, nakOut := false } })).binControl l 7 f.seq (zeros 0)

/-- What a command of a VF may change from a state on: its partition, the channels, what the part shows outside, and the fields named. -/
def OwnFrom (l : List Piece) (u t : State) (ch : Fin 17) : Prop :=
  OnlyPart (chanPart ch) u t ∧ Only (.chans :: .out :: .parts :: l) u t

/-- What a command of a VF may change from when it is handled: its partition, the channels, what the part shows outside, and the fields
named. -/
def OwnOnly (l : List Piece) (s t : State) (ch : Fin 17) (op : Nat) : Prop :=
  OnlyPart (chanPart ch) s t ∧ Only (.chans :: .out :: .parts :: l) (s.inTurn ch op) t

/-- Of the links only this one changes. -/
def OnlyLink (l : Fin 24) (s t : State) : Prop := ∀ m, m ≠ l → t.links[m] = s.links[m]

/-- Of a partition's queue pairs only this one changes. -/
def OnlyQp (p : Fin 16) (i : Nat) (s t : State) : Prop := ∀ j, j ≠ i → t.qp? p j = s.qp? p j

/-- No other partition changes, but for one that a tandem binding of this part names (R392: its bindings are evaluated again). -/
def Apart (p : Fin 16) (s t : State) : Prop := ∀ q, q ≠ p → s.boundByTandem q = false → t.parts[q] = s.parts[q]

/-! ## What an event leaves behind -/

/-- What a location of the pannier holds. -/
abbrev State.keySlot (s : State) (n : Nat) : Option KeySlot := Table.get? s.pannier n

/-- Wall time has come to an instant, or had passed it. -/
def At (x : Nat) (s t : State) : Prop := t.clock = Nat.max s.clock x

/-- The partition, if it is ACTIVE, has one event more. -/
def Posts (p : Fin 16) (s t : State) : Prop :=
  (s.parts[p]).st = .active → (t.chans[vf p]).eseq = ((s.chans[vf p]).eseq + 1) % 65536

/-- The PF has one event more. -/
def PfPosts (s t : State) : Prop := t.pf.eseq = (s.pf.eseq + 1) % 65536

/-- The partition's log has so many records more. -/
def Logged (s t : State) (ch : Fin 17) (n : Nat) : Prop := (t.own ch).log.count = (s.own ch).log.count + n

/-- A held command is over: its channel holds none, and where nothing else waits there and the largest reply fits, its reply is the newest
(R420, R427). -/
def Finishes (s t : State) (ch : Fin 17) (r : Req) (st : Status) (ws : List W64) : Prop :=
  (t.chans[ch]).held = none ∧
    (r.discard = false → (s.chans[ch]).unplaced = [] → (s.chans[ch]).rplLevel ≤ 8192 →
      (t.chans[ch]).replies = (s.chans[ch]).replies ++ [replyPacket ch.val r st ws])

/-- What the running task of a partition has drawn and has not been charged (R452), in microjoules. -/
def State.owes (s : State) (p : Fin 16) : Nat :=
  match (s.parts[p]).job.running, s.taskCycle p with
  | some r, some c => r.chargeAt (s.parts[p]).stacks c - r.charged
  | _, _ => 0

/-- The part's log holds a record of a kind. -/
def State.logged (t : State) (kind : Nat) : Prop := ∃ r ∈ t.nvm.log, r.kind = kind

/-- The partition's task runs and is to stop. -/
def State.stopping (t : State) (p : Fin 16) : Prop := ∃ r x, (t.parts[p]).job.running = some r ∧ r.stop = some x

/-- The tenant's task of a partition has ended, and `y` is what the partition keeps of it (R162, R163). -/
def Ends (p : Fin 16) (k : Task) (s t : State) (y : Task) : Prop :=
  (t.parts[p]).job.running = none ∧ (t.parts[p]).foldK = (s.parts[p]).foldKNext ∧
    (t.parts[p]).job.known.getLast? = some y ∧ y.id = k.id

/-- A chunk of the fold path is the next for a stage. -/
abbrev Turn (s : State) (p : Fin 16) (i stage : Nat) (k : Chunk) : Prop := (s.parts[p]).rnd.turn i stage = some k

/-- A frame of a group carries the next SEQ of a Binigal link that is open, on a part that is a member of the group. -/
abbrev Arrives (s : State) (l : Fin 24) (f : BFrame) (g : GroupDesc) (me : Nat) : Prop :=
  (s.links[l]).binOpen = true ∧ f.seq = (s.links[l]).bin.seqRx ∧ s.member = some (g, me)

/-- A Binigal link has one frame more to deliver. -/
def Sends (m : Fin 24) (s t : State) (P : BFrame → Prop) : Prop :=
  ∃ x, (t.links[m]).bin.replay = (s.links[m]).bin.replay ++ [x] ∧ P x

/-! ## Instructions of a core -/

/-- The core that issues an instruction. -/
abbrev Issue.core (i : Issue) (s : State) : Core := s.core i.c i.k

/-- What an instruction that writes no scalar register may change: what a task may, but not the registers of its core. -/
def OnCore (i : Issue) (l : List Piece) (s t : State) : Prop := (i.core t).a = (i.core s).a ∧ InTask i.p l s t

/-- A cluster's task of a partition runs. -/
abbrev RunsOn (s : State) (c : Fin 32) (p : Fin 16) (r : Running) : Prop :=
  s.ownerOf c.val = some p ∧ (s.parts[p]).job.running = some r

/-- No derailleur job holds the bytes of a store when an instruction reads them (R224). -/
abbrev State.noJob (s : State) (i : Issue) (sp : Space) (a n : Nat) : Prop :=
  inJobSram (s.clusters[i.c]).der.jobs i.t sp a n = false

/-- The core as it stands once the empty bundles before its next instruction have passed. -/
def State.coreNow (s : State) (c : Fin 32) (k : Fin 8) : Core := (s.core c k).skip 8192

/-- The next instruction of a core is one of a slot, a class and an opcode, and it issues at `i.t` in the task `i.r` of the
partition `i.p` (R126 to R128): the core takes part in the task and has neither ended nor a wait before it, the task has
not stopped, and `i.v` holds the slot's bits. -/
structure Issues (s : State) (slot cls op : Nat) (i : Issue) : Prop where
  owner : s.ownerOf i.c.val = some i.p
  running : (s.parts[i.p]).job.running = some i.r
  active : (s.coreNow i.c i.k).active = true ∧ (s.coreNow i.c i.k).ended = none
  awake : (s.coreNow i.c i.k).done = 0 → (s.coreNow i.c i.k).wait = none
  next : (s.coreNow i.c i.k).nextSlot = some slot
  word : i.v = slotVal (s.coreNow i.c i.k).bundle slot ∧ slotClass slot i.v = cls ∧ slotOp slot i.v = op
  cycle : (if (s.coreNow i.c i.k).done = 0 then
    (s.coreNow i.c i.k).bundleCycle i.r (s.clusters[i.c]).der.jobs 64 (s.coreNow i.c i.k).issueAt
    else some (s.coreNow i.c i.k).issueAt) = some i.t
  goes : i.r.stopped i.t = false

/-- The state in which an instruction takes effect: its cycle has come, what shows at that cycle has landed, and its slot is
marked as issued. -/
def State.atIssue (s : State) (i : Issue) (slot : Nat) : State :=
  let x := s.coreNow i.c i.k
  let x := if x.done = 0 then { x with issueAt := i.t, nextPtr := (x.ptr + 1) % 8192, nextAt := i.t + 1 } else x
  ((s.advance (i.r.clockOf i.t)).modCore i.c i.k (fun _ => { x with done := x.done ||| 2 ^ slot })).settleFor i.p i.c i.k i.t

/-- The core's result goes to a store at its cycle, and a fence after it waits for that (R128, R274). -/
def Writes (u t : State) (i : Issue) (w : PendingWrite) : Prop :=
  (match w.space with
    | .core => (t.core i.c i.k).pending = insWrite w (u.core i.c i.k).pending
    | .shared => (t.clusters[i.c]).sharedPending = insWrite w (u.clusters[i.c]).sharedPending) ∧
  w.at' ≤ (t.core i.c i.k).fence

/-- An instruction that faults (R166, R167): it has no effect but that its task is to stop no later than the next device tick and
that its core issues nothing more. -/
def Faults (s t : State) (i : Issue) (slot : Nat) (st : Status) (kind addr : Nat) : Prop :=
  t = ((s.atIssue i slot).fault i st kind addr).modCore i.c i.k Core.finishBundle

/-- The state in which a derailleur job takes effect: its last cycle has come, and what shows there has landed. -/
def State.jobEndState (s : State) (p : Fin 16) (r : Running) (c : Fin 32) (j : DrJob) : State :=
  let s := s.advance (r.clockOf j.ends)
  let s := (s.settleSignals p j.ends).settleDram p j.ends
  s.modCluster c (fun x => x.settleShared j.ends)

/-- The object that a return encloses (R238), whether its tag verifies or not. -/
def State.returned (s : State) (p : Fin 16) (c : Fin 32) (j : DrJob) : List Byte :=
  let d : Desc := j.desc
  let k := (s.clusters[c]).der.ticket d.ticket
  gcmCrypt (aesKeys (s.jobKey p c ((j.loaded.pset.drop 8).take 8))) (refreshNonce p c 1 d.ticket k.epoch)
    (s.dramAt p (d.addr 2 + 64) (d.bodyLength (d.ctPrimes - 1)))

/-- The state half of a header differs from the state that a rule requires, with FLAGS 0 or POISONED. -/
abbrev stateDiffers (h : List Byte) (level repr scale : Nat) : Bool := (stateCheck (h.drop 32) level repr 0 scale).isNone

/-- An input of the job carries POISONED. -/
def State.poisonsJob (s : State) (p : Fin 16) (c : Fin 32) (j : DrJob) : Bool :=
  let d : Desc := j.desc
  let l := j.loaded
  match d.kind with
  | 0 => stateCheck (l.inHdr.drop 32) 0 0 0 d.inScale == some true || stateCheck (l.outHdr.drop 32) 0 1 0 d.dstScale == some true
  | 1 => stateCheck (l.inHdr.drop 32) d.level 1 0 d.inScale == some true
  | _ => stateCheck (((s.returned p c j).take 64).drop 32) (d.ctPrimes - 1) 1 0 d.dstScale == some true

/-- Rows 1 to 8 of R227 for a job, in order: whether the row's condition holds, and its status. Headers, constants and the free ticket of a
BLIND are as the first frame loaded them; keys, the return and its ticket as they stand at the end. -/
def State.jobRows (s : State) (p : Fin 16) (c : Fin 32) (j : DrJob) : List (Bool × Status) :=
  let d : Desc := j.desc
  let l := j.loaded
  let id := l.pset.take 32
  let fp := (id.drop 8).take 8
  let top := d.ctPrimes - 1
  let k := (s.clusters[c]).der.ticket d.ticket
  let obj := s.returned p c j
  let len := d.bodyLength top
  [ (s.rowRange p j || d.schemeBad l.pset
      || (d.kind == 0 && meetBytes (d.addr 2) (objBytes d.n 0) (d.addr 3) (objBytes d.n 0)), .badParam),
    (l.owned, .notPermitted),
    (!d.psetAgrees l.pset || (match d.kind with
      | 0 => l.inHdr.take 32 != id || l.outHdr.take 32 != id || !brEntryOk (bytesToWords 8 (l.br.take 64))
          || !brEntryOk (bytesToWords 8 (l.br.drop 64))
      | 1 => l.inHdr.take 32 != id || l.keyHdr != id
      | _ => l.outHdr.take 32 != id || obj.take 32 != id), .paramMismatch),
    ((match d.kind with
      | 0 => stateDiffers l.inHdr 0 0 d.inScale || stateDiffers l.outHdr 0 1 d.dstScale
      | 1 => stateDiffers l.inHdr d.level 1 d.inScale || l.ticket.st != .free
      | _ => stateDiffers l.outHdr top 1 d.dstScale || stateDiffers (obj.take 64) top 1 d.dstScale || k.st == .free
          || l.inHdr != refreshHeader p c 1 d.ticket k.epoch fp top len || w64 (leNat fp) != k.keysetFp || d.logN != k.logN
          || d.ctPrimes != k.ctPrimes), .badState),
    (d.kind == 1 && l.rng.isSome, l.rng.getD .ok),
    (d.kind == 2 && (gcmOpen (s.jobKey p c fp) (refreshNonce p c 1 d.ticket k.epoch) l.inHdr
      (s.dramAt p (d.addr 2 + 64) len) (s.dramAt p (d.addr 2 + 64 + len) 16)).isNone, .authFailed),
    (d.kind == 0 && s.lookupBad p d (l.inHdr.take 32) != 0, .keyMismatch),
    (s.poisonsJob p c j, .ok) ]

/-- What R226 and R227 make of a job: the first row that holds gives STATUS; rows 7 and 8 poison a destination, and rows 7 to 9 write one, but
of a BLIND row 9 alone. -/
def State.jobOutcome (s : State) (p : Fin 16) (c : Fin 32) (j : DrJob) : JobVerdict :=
  let d : Desc := j.desc
  let rows := s.jobRows p c j
  let n := rows.findIdx Prod.fst
  { st := ((rows[n]?).map Prod.snd).getD .ok, bad := if d.kind = 0 then s.lookupBad p d (j.loaded.inHdr.take 32) else 0
    poisonIn := s.poisonsJob p c j, poisonOut := d.kind != 1 && (n == 6 || n == 7)
    written := if d.kind = 1 then n == 8 else Nat.ble 6 n }

/-- The object that a BLIND seals (R236): the input's header and each of its vectors with an encryption of the mask added, from the seed and the noise
that the cluster's instance draws. -/
def State.blinded (s : State) (p : Fin 16) (c : Fin 32) (j : DrJob) : List Byte :=
  let d : Desc := j.desc
  let pset := j.loaded.pset
  let drawn := ((s.clusters[c]).drbg.draw (32 + noiseBytes d.n)).1
  let noise := noiseDraws d.n (drawn.drop 32)
  let r := maskCoeffs (drawn.take 32) d.n (maskModulus (pset.take 32) d.maskBits)
  s.dramAt p (d.addr 2) 64 ++ zeros 4032 ++ (vecsOf d.level).flatMap (fun x =>
    natsBytes (s.blindVec p d pset (noise.map ternary) (noise.map (fun e => binomial e (if x.2 = 0 then 32 else 74))) r x.1 x.2))

/-- A vector of an UNBLIND's result (R239): the enclosed object's, less the encoded mask on polynomial 0. -/
def unblindedVec (d : Desc) (pset obj seed : List Byte) (limb poly : Nat) : List Nat :=
  let q := psetQ pset limb
  let a := (wordNats ((obj.drop (4096 + (limb * 2 + poly) * 8 * d.n)).take (8 * d.n))).map (· % q)
  let r := maskCoeffs (seed.take 32) d.n (maskModulus (pset.take 32) (leNat (seed.drop 32)))
  if poly = 0 then
    zip2 (subWord q) a (nttFwd q (psetPsi pset limb d.logN) d.logN (r.map (fun y => maskScale (pset.take 32) pset (d.ctPrimes - 1) * y % q)))
  else a

/-- A ctl instruction does to its core what `f` says, and to the rest nothing but that it is metered. -/
def CtlDoes (row : Fin 32 → Fin 8 → Instr) (op : Nat) (f : State → Issue → Core → Core) : Prop :=
  ∀ (s : State) (i : Issue), Issues s 0 7 op i →
    exec (row i.c i.k) s = .next (((s.atIssue i 0).meter i.p 7 i.t 1).modCore i.c i.k (fun x => (f s i x).finishBundle))

/-- The vector of an instruction at the address in a register, as numbers. -/
def State.vecOf (s : State) (i : Issue) (hi lo : Nat) : List Nat := wordNats ((s.core i.c i.k).loc.readN (s.regNat i hi lo) i.vec)

/-- A ring instruction with a destination vector (R134, R174, R176, R179): in ring mode and with operands in the store it occupies the
engine for `occ` cycles and writes its result `lat` cycles after its issue: zeros where its slot does not serve it, and what
`f` says where its operands do not overlap as they must not and no job holds what it reads. -/
def RingDoes (row : Fin 32 → Fin 8 → Instr) (op : Nat) (occ lat : Issue → Nat) (ranges : Issue → State → List (Nat × Nat))
    (legal : State → Issue → Bool) (f : State → Issue → Nat → Nat → Nat → List Nat) : Prop :=
  ∀ (s : State) (i : Issue), Issues s 2 1 op i → (s.core i.c i.k).eng.tensor = false → badOperands (ranges i s) = none →
    Runs (row i.c i.k) s fun t => ∃ ws, (t.core i.c i.k).eng.free = i.t + occ i ∧
      Writes (s.atIssue i 2) t i ⟨i.t + lat i, 2, .core, s.regNat i 53 49, natsBytes ws⟩ ∧
      (s.ringSlot i = none → ws = List.replicate (2 ^ i.logN) 0) ∧
      (∀ q psi l, s.ringSlot i = some (q, psi, l) → legal s i = true →
        (∀ r ∈ ranges i s, s.noJob i .core r.1 r.2) → ws = f (s.atIssue i 2) i q psi l) ∧
      OnCore i [] s t

/-- The core with a scalar register written, as a ctl instruction names it (R133). -/
def Core.puts (x : Core) (s : State) (i : Issue) (v : W64) : Core := { x with a := setAt (i.core s).a (nfield i.v 23 19) v }

/-! ## What a command's payload gives -/

/-- The partition stands as CREATE_PARTITION says (R348). -/
def Partition.asCreated (q : Partition) (s : State) (c : Cmd) : Prop :=
  q.p0 = word c.payload 0 ∧ q.p1 = word c.payload 1 ∧ q.p2 = word c.payload 2 ∧ q.creation = s.nvm.creations + 1 ∧
    q.foldK = payloadBits c 0 52 48 ∧ q.acct.units = payloadBits c 1 24 16 ∧
    q.ledger = s.freeLedger.take (payloadBits c 0 21 16)

/-- The round stands as OPEN_ROUND says (R47, R49). -/
def Round.asOpened (x : Round) (c : Cmd) : Prop :=
  x.state = 0 ∧ x.tag = payloadBits c 0 10 0 ∧ x.elem = payloadBits c 0 23 20 ∧ x.base = payloadBits c 1 20 0 ∧
    x.clients = payloadBits c 1 53 32 ∧ x.chunks = payloadBits c 2 24 0 ∧ x.wins = openWins c.payload ∧
    x.minSurvivors = payloadBits c 3 31 0 ∧ x.mendMs = payloadBits c 0 63 48 ∧ x.ending = none

/-- The queue pair stands as CREATE_QP says (R371). -/
def Qp.asCreated (q : Qp) (c : Cmd) : Prop :=
  q.retry = payloadBits c 0 60 58 ∧ q.rnrRetry = payloadBits c 0 57 55 ∧ q.timeout = payloadBits c 0 54 50 ∧
    q.rnrTimer = payloadBits c 0 49 45 ∧ q.ipv6 = bitAt (word c.payload 0) 44 ∧ q.peer0 = word c.payload 3 ∧ q.peer1 = word c.payload 4 ∧
  q.st = .init ∧ q.mtu = payloadBits c 0 63 61 ∧ q.link = payloadBits c 0 40 36 ∧ q.destQpn = payloadBits c 1 55 32 ∧
    q.ePsn = payloadBits c 1 23 0 ∧ q.sqPsn = payloadBits c 2 23 0 ∧ q.egress = [] ∧ q.sending = none

/-- The link stands as PORT_CONFIG SET_LINK says (R361), and has no key. -/
def Link.asSet (k : Link) (w : List W64) : Prop :=
  k.mode = bits (word w 0) 23 20 ∧ k.macsec = bitAt (word w 0) 24 ∧ k.vid = bits (word w 0) 39 28 ∧
    k.tagged = bitAt (word w 0) 40 ∧ k.mac = bits (word w 1) 47 0 ∧ k.nextHop = bits (word w 2) 47 0 ∧
    k.ipv4 = bits (word w 3) 31 0 ∧ k.ipv6 = (word w 4).toNat * 2 ^ 64 + (word w 5).toNat ∧ k.pfcMask = bits (word w 0) 63 56 ∧
    k.dscpData = bits (word w 0) 55 50 ∧ k.dscpCnp = bits (word w 0) 49 44 ∧ k.secured = false ∧ k.bin.keyed = false

/-- A recovery holds no secret and has applied none. -/
def Recovery.fresh (k : Recovery) : Prop := k.self = [] ∧ k.pair = [] ∧ k.keys = [] ∧ k.selfDone = [] ∧ k.pairDone = []

/-! ## Words that rules lay out -/

/-- The page of LIFETIME_READ (R496). -/
def State.lifetimeLayout (s : State) (page : Nat) : List W64 :=
  match page with
  | 0 =>
    [w64 s.nvm.life.seconds, w64 (s.nvm.life.energyMj / 1000), w64 s.nvm.life.nvmWrites,
      w64 (s.nvm.life.coldResets * 2 ^ 32 + s.nvm.life.warmResets), w64 (s.nvm.life.trips * 2 ^ 32 + s.nvm.life.brownouts),
      w64 (s.nvm.life.throttles * 2 ^ 32 + s.nvm.life.holds), w64 s.nvm.creations, w64 s.nvm.serials]
  | 1 => s.sparesWords
  | 2 => s.siteMapWords
  | 3 => s.stackWords
  | 4 => s.linkWords
  | 5 => s.readingWords s.power.logic ++ s.readingWords s.power.stack ++ s.readingWords s.nvm.life.logicMax
  | _ => s.logStateWords

/-- The reply of QUERY_PARTITION DESCRIBE (R352). -/
def State.describeLayout (s : State) (p : Fin 16) : List W64 :=
  let q := s.parts[p]
  [w64 (q.foldKNext * 2 ^ 56 + q.foldK * 2 ^ 48 + q.pairMask * 2 ^ 32 + 2 * 2 ^ 28 + q.ledgerBanks * 2 ^ 16 + p.val),
    setBits q.p1 24 16 q.acct.units, q.p2, w64 q.creation,
    w64 (s.residentCount p * 2 ^ 24 + s.roundsOpen p * 2 ^ 16 + b2n q.debugOn * 2 ^ 9 + b2n q.mirrorOn * 2 ^ 8 + s.allowCount p)]
    ++ bytesToWords 6 (Crypto.sha384 q.ownerPub)

/-- The reply of SYNC_INSPECT READ (R288). -/
def State.inspectLayout (s : State) (p : Fin 16) (ctr : CtrRef) : List W64 :=
  let k := s.counter ctr
  let ws := (s.parts[p]).coreList.flatMap (fun x => match (s.core x.1 x.2).wait with
    | some (.counter r n _ _) => if r = ctr then [w64 (x.1.val * 8 + x.2.val), w64 n] else []
    | _ => [])
  [w64 k.value, w64 k.base,
    w64 (b2n ((s.parts[p]).holds ctr) * 2 ^ 63 + b2n k.last.noTask * 2 ^ 62 + k.last.kind * 2 ^ 58
      + (if 1 ≤ k.last.kind ∧ k.last.kind ≤ 3 then k.last.cluster else 0) * 2 ^ 53
      + (if k.last.kind = 1 then k.last.core else 0) * 2 ^ 50 + ws.length / 2 * 2 ^ 32), w64 k.last.stamp] ++ ws

/-- The reply of TASK_STATUS (R163). -/
def taskLayout (k : Task) : List W64 :=
  [w64 (k.status.code * 2 ^ 48 + k.code * 2 ^ 40 + k.st.code * 2 ^ 32 + k.id), w64 k.cycles, w64 k.external, w64 k.energy,
    w64 (k.fault * 2 ^ 56 + k.faultCluster * 2 ^ 51 + k.faultCore * 2 ^ 48 + k.faultBundle * 2 ^ 35), w64 k.faultAddr]

/-- The reply of PORT_CONFIG STATUS (R363). -/
def State.linkLayout (s : State) (l : Fin 24) : List W64 :=
  let k := s.links[l]
  [w64 (k.mode * 2 ^ 60 + k.st.code * 2 ^ 56 + b2n k.spareInUse * 2 ^ 55 + b2n k.secured * 2 ^ 54), w64 k.rxFrames,
    w64 k.rxDiscards, w64 (s.nvm.life.linkDowns.getD l.val 0)]

/-- MBX_RPL_STATUS (R415). -/
def rplLayout (k : Channel) : W64 := w64 (b2n k.rplEmpty * 2 ^ 32 + k.replies.length * 2 ^ 16 + k.rplLevel)

/-- MBX_EVT_STATUS (R415). -/
def evtLayout (k : Channel) : W64 :=
  w64 (k.evtDropped * 2 ^ 48 + b2n k.evtEmpty * 2 ^ 32 + k.events.length * 2 ^ 16 + k.evtLevel)

/-- The CAPABILITIES response of the SPDM responder (R320). -/
def spdmCapsLayout : List Byte := spdmHead 0x61 0 0 ++ [0, Config.spdmCtExponent, 0, 0] ++ leBytes 4 0x36 ++ leBytes 4 4096 ++ leBytes 4 4096

/-- The ALGORITHMS response of the SPDM responder (R320). -/
def spdmAlgosLayout : List Byte :=
  spdmHead 0x63 0 0 ++ leBytes 2 36 ++ [1, 0] ++ leBytes 4 4 ++ leBytes 4 0x80 ++ leBytes 4 2 ++ zeros 16

/-- What the part has shown once a response stands at an endpoint of SPDM; at the management port a pending-read notification comes first, where
in-band interrupts are enabled (R508). -/
def State.shows (s : State) (ep : Fin 18) (x : Output) : List Output :=
  x :: (if ep = i3cEndpoint ∧ s.i3c.events.testBit 0 = true then .ibi (s.i3c.dynAddr.getD 0) :: s.out else s.out)

/-- The signed part of a CHALLENGE_AUTH response: the certificate chain's hash, a nonce, the measurement summary, the requester's context. -/
def spdmChallengeLayout (req nonce summary : List Byte) : List Byte :=
  spdmHead 0x03 0 1 ++ sha384 spdmChain ++ nonce ++ summary ++ [0, 0] ++ (req.drop 36).take 8

/-- A MEASUREMENTS response without its signature: the number of indices or the blocks of those asked for, a nonce, the requester's
context. -/
def State.spdmMeasLayout (s : State) (ep : Fin 18) (req nonce : List Byte) : List Byte :=
  let op := (req.getD 3 0).toNat
  let bs := if op = 0 then [] else s.measBlocks ep (if op = 0xFF then allMeasurements else [op])
  spdmHead 0x60 (if op = 0 then (s.measBlocks ep allMeasurements).length else 0) 0 ++ [byte bs.length] ++ leBytes 3 bs.flatten.length
    ++ bs.flatten ++ nonce ++ [0, 0] ++ padTo 8 ((req.drop (if (req.getD 2 0).toNat % 2 = 1 then 37 else 4)).take 8)

/-- A NEGOTIATE_ALGORITHMS request offers what the responder supports: DMTF measurements, ECDSA P-384 and SHA-384. -/
abbrev spdmOffers (req : List Byte) : Prop :=
  ((leNat ((req.drop 6).take 1)).testBit 0 = true ∧ (leNat ((req.drop 8).take 4)).testBit 7 = true) ∧
    (leNat ((req.drop 12).take 4)).testBit 1 = true

/-- The CERTIFICATE response to a request: as much of the chain as was asked for, at most 4,088 bytes, and how much of it remains. -/
def spdmCertLayout (req : List Byte) : List Byte :=
  let off := leNat ((req.drop 4).take 2)
  let d := (spdmChain.drop off).take (Nat.min (leNat ((req.drop 6).take 2)) 4088)
  spdmHead 0x02 0 0 ++ leBytes 2 d.length ++ leBytes 2 (spdmChain.length - off - d.length) ++ d

end Sys2Proof.Machine
end

