-- ==== Sys2Proof/Certificates/Slice0/Obligations.lean ====
section
/-! DEFINITION. The statements for the provers: what a step, each command of the table and each event does, for every state and
operands in which its rule lets it act. -/

open Sys2Proof Sys2Proof.Machine Sys2Proof.Machine.Crypto

/-- A step runs the command at the front of the queue (R427). -/
def Obligations.StepRunsTheFrontCommand : Prop :=
  (∀ (s : State) (i : Instr), ∃ t, exec i s = .next t) ∧
  (∀ (s : State) (i : Instr) (rest : List Instr), s.pending = i :: rest → step s = exec i { s with pending := rest })

/-- GET_INFO is answered OK with the ten words of R432 and changes nothing else (R432). -/
def Obligations.GetInfoAnswers : Prop :=
  ∀ s ch c, takes s ch 0x0101 c → Answers (.getInfo ch c) s ch 0x0101 c .ok ([w64 (0x9032 * 2 ^ 48 + 1 * 2 ^ 40 + 1 * 2 ^ 32 + ch.val),
   ((s.nvm.fw.getD s.boot.fwSlot none).map FwImage.version).getD 0, w64 (s.boot.cfgSlot * 2 ^ 24 + s.boot.fwSlot * 2 ^ 16 + s.nvm.rollback *
   2 ^ 8 + ((s.nvm.fw.getD s.boot.fwSlot none).map FwImage.svn).getD 0), w64 (8190 * 2 ^ 48 + 16384 * 2 ^ 32 + 16384 * 2 ^ 16 + 4096)] ++
   bytesToWords 6 deviceFp)

/-- GET_STATUS is answered OK with the four words of R433 and changes nothing else (R433). -/
def Obligations.GetStatusAnswers : Prop :=
  ∀ s ch c, takes s ch 0x0102 c → Answers (.getStatus ch c) s ch 0x0102 c .ok [w64 ((if ch = 0 then s.activeMask * 2 ^ 48 + b2n s.rngAlarm *
   2 ^ 10 else 0) + b2n s.power.throttle.isSome * 2 ^ 9 + b2n s.power.hold.isSome * 2 ^ 8 + s.chState ch), w64 s.nvm.life.seconds, intW
   s.nvm.life.utc, if ch = 0 then (s.inTurn ch 0x0102).bootProgress else 0]

/-- The information commands of the part and of a partition answer with the words of their rules and change nothing else (R67, R68, R118, R163,
R352, R363, R378, R437 to R439, R496, R497). Model's choices: the next cursor of a TORN or ABSENT list is the next index on the list (log
121), an odd list fills the upper half of its last word with 0, and SUMMARY takes its second word as reserved (log 30). -/
def Obligations.InformationReadsAnswer : Prop :=
  (∀ s ch c, takes s ch 0x0702 c → Answers (.getEnergy ch c) s ch 0x0702 c .ok (if ch = 0 then [w64 s.power.deliveredMj, w64 s.power.budget,
   w64 s.unitsHeld] else [w64 (s.own ch).acct.charged, intW (s.own ch).acct.balance, w64 ((s.own ch).acct.reqP * 2 ^ 18 + (s.own
   ch).acct.curP * 2 ^ 16 + (s.own ch).acct.units)])) ∧
  (∀ s ch c, takes s ch 0x0802 c → Answers (.configDigest ch c) s ch 0x0802 c .ok (w64 ((s.activeRecord.map ConfigRec.seq).getD 0) ::
   bytesToWords 6 s.configDigest)) ∧
  (∀ s c (n cur : Nat), takes s 0 0x0901 c → c.payload = [w64 (n * 2 ^ 32), w64 cur] → 1 ≤ n → n ≤ 8187 → cur < 2 ^ 64 →
   cur ≤ s.nvm.logSeq + 1 → ∀ here, here = s.nvm.log.filter (fun r => cur ≤ r.seq) → (∀ r ∈ here.head?, r.words ≤ n) →
   ∃ k, k ≤ here.length ∧ Answers (.logRead 0 c) s 0 0x0901 c .ok (w64 (((here.take k).getLast?.map (fun r =>
   r.seq + 1)).getD cur) :: (here.take k).flatMap LogRec.packet) ∧ logWords (here.take k) ≤ n ∧ (k < here.length →
   n < logWords (here.take (k + 1)))) ∧
  (∀ s c (n cur : Nat) r, takes s 0 0x0901 c → c.payload = [w64 (n * 2 ^ 32), w64 cur] → 1 ≤ n → n ≤ 8187 → cur < 2 ^ 64 →
   cur ≤ s.nvm.logSeq + 1 → (s.nvm.log.filter (fun r => cur ≤ r.seq)).head? = some r → n < r.words →
   Answers (.logRead 0 c) s 0 0x0901 c .badLength []) ∧
  (∀ s c (n : Nat), takes s 0 0x0902 c → c.payload = [w64 n] → n ≤ 6 → Answers (.lifetimeRead 0 c) s 0 0x0902 c .ok (s.lifetimeLayout n)) ∧
  (∀ s ch c (n first : Nat) (p : Fin 16), takes s ch 0x0A02 c → (if ch = 0 then s.debugAccess.unlocked else s.parts[p].debugOn) → (ch ≠ 0 →
   p = chanPart ch) → s.parts[p].st = .active → c.payload = [w64 (n * 2 ^ 32 + (if ch = 0 then p.val else 0)), w64 first] → 1 ≤ n →
   n ≤ 2046 → first ≤ s.parts[p].traceCount → first < 2 ^ 32 → Answers (.traceRead ch c) s ch 0x0A02 c .ok (s.parts[p].readTrace first n)) ∧
  (∀ s ch c (p : Fin 16), takes s ch 0x0203 c → c.payload = [w64 p.val] → (ch = 0 ∨ p = chanPart ch) → s.parts[p].st = .active →
   Answers (.queryPartitionDescribe ch c) s ch 0x0203 c .ok (s.describeLayout p)) ∧
  (∀ s ch c (id : Nat) (k : Task), takes s ch 0x0503 c → c.payload = [w64 id] → id < 2 ^ 16 →
   ((s.inTurn ch 0x0503).tasks (chanPart ch)).find? (fun t => t.id == id) = some k →
   Answers (.taskStatus ch c) s ch 0x0503 c .ok (taskLayout k)) ∧
  (∀ s ch c (l : Fin 24), takes s ch 0x0601 c → c.payload = [w64 (2 * 2 ^ 16 + l.val)] → (ch = 0 ∨ (s.own ch).linkMask.testBit l.val) →
   Answers (.portConfigStatus ch c) s ch 0x0601 c .ok (s.linkLayout l)) ∧
  (∀ s ch c (tag : Nat) (x : Round), takes s ch 0x0307 c → tag < 2 ^ 11 → c.payload = [w64 tag, 0] → s.round? (chanPart ch) tag = some x →
   Answers (.roundStatusSummary ch c) s ch 0x0307 c .ok ((s.own ch).summary x x.state 0 (if x.ready then x.readyMs else 0))) ∧
  (∀ s ch c (tag i : Nat) (x : Round), takes s ch 0x0307 c → c.sealed → tag < 2 ^ 11 → i < 2 ^ 21 →
   c.payload = [w64 (1 * 2 ^ 16 + tag), w64 i] → s.round? (chanPart ch) tag = some x → x.base ≤ i → i < x.base + x.clients →
   Answers (.roundStatusClient ch c) s ch 0x0307 c .ok ((s.own ch).rnd.entry i).words) ∧
  (∀ s ch c (tag i n : Nat) (x : Round), takes s ch 0x0307 c → c.sealed → tag < 2 ^ 11 → i < 2 ^ 21 → 1 ≤ n → n ≤ 4094 →
   s.round? (chanPart ch) tag = some x → (c.payload = [w64 (2 * 2 ^ 16 + tag), w64 (n * 2 ^ 32 + i)] →
   Answers (.roundStatusTornList ch c) s ch 0x0307 c .ok ((s.own ch).clientList x .torn i n)) ∧
   (c.payload = [w64 (3 * 2 ^ 16 + tag), w64 (n * 2 ^ 32 + i)] → Answers (.roundStatusAbsentList ch c) s ch 0x0307 c .ok ((s.own
   ch).clientList x .absent i n))) ∧
  (∀ s ch c (tag i n : Nat) (x : Round), takes s ch 0x0305 c → s.ranDry ch 0x0305 c → tag < 2 ^ 11 → i < 2 ^ 32 → 1 ≤ n → n ≤ 4093 →
   c.payload = [w64 (1 * 2 ^ 16 + tag), w64 (n * 2 ^ 32 + i)] → s.round? (chanPart ch) tag = some x → x.ranges.any ClosedRange.final →
   ∀ all, all = ((s.dryTurn ch 0x0305 c).own ch).missing x → Answers (.recoverNeeds ch c) s ch 0x0305 c .ok ((s.own ch).missingWord x
   x.finals :: (((all.drop i).take n).map secretWord ++ [w64 (if i + n < all.length then i + n else 0xFFFFFFFF)])))

/-- SET_CALENDAR, the counter store, the lifetime second and SET_BUDGET take effect as their rules say (R435, R437, R451, R452, R457, R487,
R495). Model's choices: the 512 words of a counter store write are one copy of 4 KiB (log 89); the links' FEC counts are free values, taken
once a second for each link that is UP (log 158); what a task has drawn in a cycle rests on energy coefficients that no rule gives (log 76).
-/
def Obligations.CalendarCountersAndBudgets : Prop :=
  (∀ s c (w : W64), takes s 0 0x0104 c → c.payload = [w] → Runs (.setCalendar 0 c) s fun t =>
   Answered s t 0 0x0104 c .ok [w64 s.nvm.life.seconds] ∧ OnlyChannel { s.inTurn 0 0x0104 with nvm := t.nvm } t 0 ∧ t.nvm = { s.nvm with
     log := t.nvm.log, logSeq := t.nvm.logSeq, rates := t.nvm.rates, life := t.nvm.life, store := t.nvm.store, head := t.nvm.head,
     snap := t.nvm.snap, writes := t.nvm.writes, writesAt := t.nvm.writesAt } ∧ t.nvm.life.utc = w.toInt ∧ t.nvm.stored.utc = w.toInt ∧
   t.nvm.stored.seconds = s.nvm.life.seconds ∧ t.nvm.life.seconds = s.nvm.life.seconds ∧ ∃ r ∈ t.nvm.log, r.seq = s.nvm.logSeq + 1 ∧
   r.kind = 0x0307 ∧ r.cls = 3 ∧ r.lifetime = s.nvm.life.seconds ∧ r.data = [intW s.nvm.life.utc, w]) ∧
  (∀ s : State, s.boot.phase ≠ .off → Runs .counterStoreWrite s fun t => At s.nvm.nextStore s t ∧
   t.nvm.life = { s.nvm.life with nvmWrites := s.nvm.life.nvmWrites + 512 } ∧
   t.nvm.store = s.nvm.store.write ⟨t.nvm.life, s.nvm.head, s.nvm.logSeq + 1⟩ ∧ t.nvm.stored = t.nvm.life ∧
   t.nvm.nextStore = t.clock + 60 * sec ∧ t = { s with
     clock := t.clock,
     nvm :=
         { s.nvm with life := t.nvm.life, store := t.nvm.store, nextStore := t.nvm.nextStore, writes := t.nvm.writes, writesAt := t.nvm.writesAt }
         }) ∧
  (∀ s : State, s.boot.phase ≠ .off → Runs .lifetimeSecond s fun t => At s.nvm.nextSecond s t ∧ t.nvm.life = { s.nvm.life with
     seconds := s.nvm.life.seconds + 1, fecCorrected := t.nvm.life.fecCorrected, fecUncorrected := t.nvm.life.fecUncorrected } ∧
   (∀ l : Fin 24, s.links[l].st ≠ .up → t.nvm.life.fecCorrected.getD l.val 0 = s.nvm.life.fecCorrected.getD l.val 0 ∧
   t.nvm.life.fecUncorrected.getD l.val 0 = s.nvm.life.fecUncorrected.getD l.val 0) ∧ t.nvm.nextSecond = s.nvm.nextSecond + sec ∧
   t = { s with clock := t.clock, free := t.free, nvm := { s.nvm with life := t.nvm.life, nextSecond := t.nvm.nextSecond } }) ∧
  (∀ s c (v : Nat), takes s 0 0x0701 c → c.payload = [w64 v] → 250 ≤ v → v ≤ 1500 → 180 + 5 * s.unitsHeld ≤ v →
   HoldsWith (.setBudgetModule 0 c) s 0 0x0701 c (.budgetModule v) id) ∧
  (∀ s c (p : Fin 16) (v : Nat), takes s 0 0x0701 c → c.payload = [w64 (p.val * 2 ^ 32 + 1 * 2 ^ 16 + v)] → 1 ≤ v → v ≤ 264 →
   s.parts[p].st = .active → s.unitsHeld - s.parts[p].acct.units + v ≤ s.poolUnits →
   HoldsWith (.setBudgetPartition 0 c) s 0 0x0701 c (.budgetShare p.val v) id) ∧
  (∀ s ch c (v : Nat), vfTakes s ch 0x0701 c → c.payload = [w64 (2 * 2 ^ 16 + v)] → v ≤ 3 →
   AnswersWith (.setBudgetPstate ch c) s ch 0x0701 c (if s.taskRunning (chanPart ch) then .powerDeferred else .ok) [] fun u =>
   u.modPart (chanPart ch) (fun q => { q with acct := { q.acct with reqP := v } })) ∧
  (∀ s r v, s.powered → s.pf.held = some ⟨r, .budgetModule v⟩ → Runs .cadencePeriodEnd s fun t => t.power.budget = v ∧
   Finishes s t 0 r .ok []) ∧
  (∀ s r (p : Fin 16) v, s.powered → s.pf.held = some ⟨r, .budgetShare p.val v⟩ → s.parts[p].st = .active →
   Runs .cadencePeriodEnd s fun t => t.parts[p].acct.units = v ∧ Finishes s t 0 r .ok []) ∧
  (∀ s (p : Fin 16), s.powered → s.parts[p].st = .active → s.pf.held = none → ∀ a, a = s.parts[p].acct → Runs .cadencePeriodEnd s fun t =>
   ∀ b, b = t.parts[p].acct → b.balance = min (a.units * 500000 : Int) (a.balance - ((s.advance s.power.nextPeriod).owes p : Int) + a.units
   * 500) ∧ b.charged = a.charged + (s.advance s.power.nextPeriod).owes p ∧ b.units = a.units ∧
   t.power.nextPeriod = s.power.nextPeriod + 100 * us)

/-- A word written to MBX_CMD_DATA joins the command being assembled or is lost; FLUSH discards it (R408, R418, R419). -/
def Obligations.CommandWordsAssembleOrAreLost : Prop :=
  (∀ s ch (w : W64), State.reachable s ch → s.chans[ch].cmdLost = false → 0 < s.credits ch → ∀ ws, ws = s.chans[ch].partialCmd ++ [w] →
   bits (ws.headD 0) 47 32 ≤ 8190 → Runs (.mbxCmdDataWrite ch 8 w) s fun t => OnlyChannel s t ch ∧
   t.chans[ch].replies = s.chans[ch].replies ∧ t.chans[ch].cmdLost = false ∧ (ws.length ≠ 2 + bits (ws.headD 0) 47 32 →
   t.chans[ch].partialCmd = ws ∧ t.chans[ch].waiting = s.chans[ch].waiting) ∧ (ws.length = 2 + bits (ws.headD 0) 47 32 →
   t.chans[ch].partialCmd = [] ∧ t.chans[ch].waiting = s.chans[ch].waiting ++ [.raw (word ws 0) (word ws 1) (ws.drop 2)])) ∧
  (∀ s ch (width : Nat) (w : W64), State.reachable s ch → (width ≠ 8 ∨ s.chans[ch].cmdLost ∨ s.credits ch = 0 ∨ 8190 < bits
   ((s.chans[ch].partialCmd ++ [w]).headD 0) 47 32) → Runs (.mbxCmdDataWrite ch width w) s fun t => OnlyChannel s t ch ∧
   t.chans[ch].cmdLost ∧ t.chans[ch].irqCause.testBit irqError ∧ t.chans[ch].partialCmd = s.chans[ch].partialCmd ∧
   t.chans[ch].waiting = s.chans[ch].waiting ∧ t.chans[ch].replies = s.chans[ch].replies ∧
   t.chans[ch].counts = setAt s.chans[ch].counts (Count.pos .cmdWordsLost) (satAdd (2 ^ 64 - 1) (s.chans[ch].counts.getD (Count.pos
   .cmdWordsLost) 0) 1)) ∧
  (∀ s ch, State.reachable s ch → Runs (.flush ch) s fun t => OnlyChannel s t ch ∧ t.chans[ch].partialCmd = [] ∧
   t.chans[ch].cmdLost = false ∧ t.chans[ch].waiting = s.chans[ch].waiting ∧ t.chans[ch].replies = s.chans[ch].replies ∧
   t.chans[ch].held = s.chans[ch].held)

/-- Reads of the reply and event registers return and remove what R415 says (R415). -/
def Obligations.DataAndStatusReads : Prop :=
  (∀ s ch, State.reachable s ch → (∀ w ws rest, s.chans[ch].replies = (w :: ws) :: rest →
   exec (.mbxRplDataRead ch 8) s = .next ((s.modChan ch (fun c => { c with replies := if ws = [] then rest else ws :: rest })).emit
   (.readData w))) ∧ (s.chans[ch].replies = [] → exec (.mbxRplDataRead ch 8) s = .next ((s.modChan ch (fun c =>
   { c with rplEmpty := true })).emit (.readData 0))) ∧ (∀ w ws rest, s.chans[ch].events = (w :: ws) :: rest →
   exec (.mbxEvtDataRead ch 8) s = .next ((s.modChan ch (fun c => { c with events := if ws = [] then rest else ws :: rest })).emit
   (.readData w))) ∧ (s.chans[ch].events = [] → exec (.mbxEvtDataRead ch 8) s = .next ((s.modChan ch (fun c =>
   { c with evtEmpty := true })).emit (.readData 0))) ∧ exec (.mbxRplStatusRead ch 8) s = .next ((s.modChan ch (fun c =>
   { c with rplEmpty := false })).emit (.readData (rplLayout s.chans[ch]))) ∧
   exec (.mbxEvtStatusRead ch 8) s = .next ((s.modChan ch (fun c => { c with evtEmpty := false, evtDropped := 0 })).emit (.readData
   (evtLayout s.chans[ch]))))

/-- Writes to the interrupt registers, the function enables and any register act by their access type (R2, R5, R406 to R408, R410, R411, R416,
R467). Model's choices: Bus Master Enable is bit 2 of the Command register, 3 is D3hot, and an MSI-X entry has PCI's layout of address, data
and vector control, with 32-bit writes of its parts (log 131, presumed). -/
def Obligations.RegisterWritesAct : Prop :=
  (∀ s ch (w : W64), State.reachable s ch → Runs (.mbxIrqMaskWrite ch 8 w) s fun t => t = { s with chans := t.chans, out := t.out } ∧
   (∀ j, j ≠ ch → t.chans[j] = s.chans[j]) ∧ t.chans[ch].irqMask = bits w 4 0 ∧ t.chans[ch].irqCause = s.chans[ch].irqCause ∧
   t.chans[ch].replies = s.chans[ch].replies ∧ t.chans[ch].events = s.chans[ch].events) ∧
  (∀ s ch (w : W64), State.reachable s ch → s.chans[ch].irqCause < 32 → Runs (.mbxIrqCauseWrite ch 8 w) s fun t => OnlyChannel s t ch ∧
   t.chans[ch].replies = s.chans[ch].replies ∧ ∀ i, t.chans[ch].irqCause.testBit i = (s.chans[ch].irqCause.testBit i && !(bits w 4
   0).testBit i)) ∧
  (∀ s ch, State.reachable s ch → Runs (.busMasterEnableSet ch) s fun t =>
   OnlyChannel { s with boot := { s.boot with bme := setAt s.boot.bme ch.val true } } t ch ∧ t.chans[ch].irqCause = s.chans[ch].irqCause) ∧
  (∀ (s : State) (n : Nat), s.reachable 0 → (n ≤ 16 → exec (.numvfsWrite n) s = .next { s with boot := { s.boot with numVfs := n } }) ∧
   (16 < n → exec (.numvfsWrite n) s = .next s)) ∧
  (∀ s ch (i : Nat) (w : W64) e, State.reachable s ch → i < 5 → s.chans[ch].msix[i]? = some e → ∀ P : Nat → Nat → MsixEntry →
   Prop, P = (fun o n e' => Runs (.registerWrite ch .bar0 (0x8000 + 16 * i + o) n w) s fun t =>
   t.chans[ch].msix = setAt s.chans[ch].msix i e' ∧ t = { s with chans := t.chans, out := t.out } ∧ (∀ j, j ≠ ch →
   t.chans[j] = s.chans[j]) ∧ t.chans[ch].irqCause = s.chans[ch].irqCause ∧ t.chans[ch].replies = s.chans[ch].replies) →
   P 0 8 { e with addr := w } ∧ P 8 8 { e with data := bits w 31 0, masked := bitAt w 32 } ∧ P 8 4 { e with data := bits w 31 0 } ∧
   P 12 4 { e with masked := bitAt w 0 }) ∧
  (∀ s ch (width : Nat) (w : W64), State.reachable s ch → exec (.registerWrite ch .bar0 0x18 width w) s = exec (.mbxCmdDataWrite ch width w)
   s ∧ (bitAt w 6 → exec (.registerWrite ch .bar0 0x08 8 w) s = exec (.flush ch) s) ∧
   exec (.registerWrite ch .bar0 0x40 8 w) s = exec (.mbxIrqMaskWrite ch 8 w) s ∧
   exec (.registerWrite ch .bar0 0x48 8 w) s = exec (.mbxIrqCauseWrite ch 8 w) s ∧ (bitAt w 6 = false →
   exec (.registerWrite ch .bar0 0x08 8 w) s = .next s) ∧ (∀ off, off < 0x8000 → off ≠ 0x08 → off / 8 ≠ 3 → off ≠ 0x40 → off ≠ 0x48 →
   exec (.registerWrite ch .bar0 off width w) s = .next s) ∧ (∀ off, ¬(ch = 0 ∧ off = 0x80000 ∧ width = 8) →
   exec (.registerWrite ch .bar2 off width w) s = .next s) ∧ (ch = 0 → exec (.registerWrite ch .bar2 0x80000 8 w) s = exec (.mirrorSignal w)
   s) ∧ exec (.registerWrite ch .command 0 width w) s = .next (s.writeBme ch (bitAt w 2)) ∧ (∀ off n, off / 8 = 3 → ¬(off = 0x18 ∧ n = 8) →
   exec (.registerWrite ch .bar0 off n w) s = exec (.mbxCmdDataWrite ch 0 w) s) ∧ (∀ off n, off < 0x8000 → off / 8 ≠ 3 → n ≠ 8 →
   exec (.registerWrite ch .bar0 off n w) s = .next s) ∧ (Runs (.registerWrite ch .pm 0 width w) s fun t =>
   t.chans[ch].d3hot = decide (bits w 1 0 = 3) ∧ t = { s with chans := t.chans, out := t.out } ∧ t.chans[ch].replies = s.chans[ch].replies))

/-- A partition is created, given its fold slots and destroyed; no other partition changes but one that a tandem binding names (R317, R347 to
R351, R353, R447). Model's choices: the bank and the ledger banks taken are the lowest free ones (R350 names none); a pair that loses its
owner keeps its rail as log 130 reads R447. -/
def Obligations.PartitionsLiveAndEnd : Prop :=
  (∀ s ch c (k : Nat), vfTakes s ch 0x0203 c → c.sealed → c.payload = [w64 (k * 2 ^ 48 + 1 * 2 ^ 16 + (chanPart ch).val)] → k ≤ 24 →
   s.roundsOpen (chanPart ch) = 0 → (k = 0 → s.netHolds (chanPart ch) = false ∧ s.boundByTandem (chanPart ch) = false) →
   AnswersWith (.queryPartitionSetFoldK ch c) s ch 0x0203 c .ok [] fun u => (u.modPart (chanPart ch) (fun q =>
   { q with foldKNext := k, foldK := if s.taskRunning (chanPart ch) then q.foldK else k })).bindingsEval) ∧
  (∀ s c (b : Fin 18) (p : Fin 16), takes s 0 0x0201 c → checkCreatePartition s c.payload = none → s.freeBank = some b →
   s.entropy 0 = .ready → s.banks[b].entropy = .ready → p = pid (payloadBits c 0 3 0) → Runs (.createPartition 0 c) s fun t =>
   Holds s t 0 0x0201 c (.creation p.val) ∧ t.parts[p].st = .creating ∧ t.parts[p].asCreated s c ∧ (∀ q, q ≠ p → t.parts[q] = s.parts[q]) ∧
   t.banks[b].role = .owned p.val ∧ (∀ j, j ≠ b → t.banks[j] = s.banks[j]) ∧ t.nvm = { s.nvm with creations := s.nvm.creations + 1 } ∧
   t.links = s.links ∧ t.clusters = s.clusters ∧ t.power = s.power) ∧
  (∀ s (p : Fin 16) (b : Fin 18) r, s.parts[p].st = .creating → s.bankOf p = some b → 6 * s.parts[p].stacks ≤ s.banks[b].own →
   s.pf.held = some ⟨r, .creation p.val⟩ → Runs (.partitionCreationDone p) s fun t => t.parts[p].st = .active ∧ t.parts[p].dram = [] ∧
   t.parts[p].mem = ⟨false, List.replicate s.parts[p].stacks [], none, 0⟩ ∧ t.parts[p].acct.balance = s.parts[p].acct.cap ∧
   t.parts[p].log.count = s.parts[p].log.count + 1 ∧ s.parts[p].phaseAt + scrubUnits ≤ t.clock ∧ Apart p s t ∧ (∀ q, q = s.parts[p] →
   Finishes s t 0 r .ok [w64 q.creation, w64 q.stacks, if q.shared then w64 (q.linkMask + q.prio * 2 ^ 24) else 0]) ∧ t.power = s.power) ∧
  (∀ s ch c (p : Fin 16), takes s ch 0x0202 c → c.payload = [w64 p.val] → (ch = 0 ∨ p = chanPart ch) → s.parts[p].st = .active →
   Runs (.destroyPartition ch c) s fun t => Holds s t ch 0x0202 c (.destruction p.val) ∧ t.parts[p].st = .destroying ∧
   t.parts[p].mirrorOn = false ∧ t.parts[p].debugOn = false ∧ Apart p s t ∧ t.power = s.power) ∧
  (∀ s (p : Fin 16), s.parts[p].st = .destroying → (∀ h ∈ s.pf.held, h.why ≠ .zeroise) → Runs (.partitionDestructionDone p) s fun t =>
   t.parts[p] = Partition.absent ∧ (∀ b ∈ s.bankOf p, t.banks[b].role = .unallocated) ∧ s.parts[p].phaseAt + scrubUnits ≤ t.clock ∧
   Apart p s t ∧ (∀ r, s.pf.held = some ⟨r, .destruction p.val⟩ → Finishes s t 0 r .ok []) ∧
   (∀ r, s.chans[vf p].held = some ⟨r, .destruction p.val⟩ → s.chans[vf p].waiting = [] → Finishes s t (vf p) r .ok []) ∧
   (∀ j : Fin 16, s.parts[p].pairMask.testBit j → (∀ q, q ≠ p → s.parts[q].pairMask.testBit j = false) → t.pairRail j = s.railMv 550 ∧
   t.pairClocked j = false) ∧ t.logged 0x0402) ∧
  (∀ s (p : Fin 16) r, s.parts[p].st = .destroying → (∀ q, q ≠ p → s.parts[q].st = .absent) → s.pf.held = some ⟨r, .zeroise⟩ →
   Runs (.partitionDestructionDone p) s fun t => t.noPartition ∧ Finishes s t 0 r .ok [] ∧ t.pf.seqExpect = 0 ∧ (∀ slot, 2 ≤ slot →
   t.keySlot slot = none) ∧ t.keyAt 0 = some (beBytes 48 identityKey) ∧ t.keyAt 1 = some (beBytes 48 bindingKey) ∧ t.logged 0x0301)

/-- Key slots are filled, destroyed and re-masked, and no other slot changes (R307, R313, R314, R316, R317, R344). Model's choices: which
opcodes are key operations and so wait for the RTP's turn of their channel (R344 does not list them; see State.inTurn). -/
def Obligations.TenantKeysLiveAndEnd : Prop :=
  (∀ s ch c (w : W64) (loc : Nat), takes s ch 0x0401 c → c.payload = [w] → checkKeyGenerate s ch w = none →
   s.chosenSlot (chanPart ch) (bits w 47 32) = some loc → s.entropy ch = .ready → Runs (.keyGenerate ch c) s fun t =>
   ∃ e, t.keySlot (partSlot (chanPart ch) loc) = some e ∧ Answered s t ch 0x0401 c .ok ([w64 loc, w64 (s.nvm.serials + 1)] ++ bytesToWords
   12 (publicPart e.kind e.key)) ∧ e.key = ((s.partReseed (chanPart ch)).genKey ch e.kind).1 ∧ (∀ n, n ≠ partSlot (chanPart ch) loc →
   t.keySlot n = s.keySlot n) ∧ e.period = bits (w64 e.policy) 9 8 ∧ e.kind = bits w 55 48 ∧ e.policy = bits w 31 0 ∧
   e.serial = s.nvm.serials + 1 ∧ e.created = s.nvm.life.seconds ∧ t.nvm = { s.nvm with serials := s.nvm.serials + 1 } ∧ Logged s t ch 1 ∧
   OwnOnly [.nvm, .pannier, .banks, .pool, .devDrbg, .rngAlarm, .free] s t ch 0x0401) ∧
  (∀ s ch c (loc : Nat) (k : KeySlot), vfTakes s ch 0x0404 c → c.payload = [w64 loc] → 16 ≤ loc → loc ≤ 239 →
   s.keySlot (partSlot (chanPart ch) loc) = some k → s.slotInUse (chanPart ch) loc = false → Runs (.keyDestroySlot ch c) s fun t =>
   Answered s t ch 0x0404 c .ok [] ∧ t.pannier = Table.del s.pannier (partSlot (chanPart ch) loc) ∧ Logged s t ch 1 ∧
   OwnOnly [.pannier] s t ch 0x0404) ∧
  (∀ s ch c (slot per : Nat) (k : KeySlot), takes s ch 0x0407 c → c.payload = [w64 (per * 2 ^ 16 + slot)] → per ≤ 2 →
   (if ch = 0 then slot ≤ 255 else slot ≤ 239) → (ch = 0 → slot ≤ 1 → per ≠ 0) →
   ∀ at', at' = (if ch = 0 then slot else partSlot (chanPart ch) slot) → s.keySlot at' = some k → (per = 1 →
   k.period = 1 ∨ s.fastSlots < 256) → AnswersWith (.setRemask ch c) s ch 0x0407 c .ok [] fun u =>
   { u with pannier := Table.modify s.pannier at' (fun k => { k with period := per, remaskAt := u.clock + (remaskUnits per).getD 0 }) }) ∧
  (∀ s (slot u : Nat) (k : KeySlot), s.keySlot slot = some k → remaskUnits k.period = some u →
   ∀ x, x = (s.advance k.remaskAt).inHousekeeping → Runs (.remaskPeriod slot) s fun t => t.clock = x.clock ∧
   t.pannier = Table.put s.pannier slot { k.reshare (x.deviceDraw k.shareA.length).1 with remaskAt := k.remaskAt + u } ∧
   (k.shareB.length = k.shareA.length → t.keyAt slot = some k.key) ∧ Only [.clock, .pannier, .pool, .devDrbg, .free] s t)

/-- KEY_ATTEST answers with signed statements; OPEN_SESSION opens a session under the owner's signature (R324 to R327, R344). Model's choices:
that OPEN_SESSION is a key operation in the RTP's turn (R344 does not list them). -/
def Obligations.StatementsAndSessions : Prop :=
  (∀ s ch c (slot : Nat) (k : KeySlot) (n : List W64), takes s ch 0x0402 c → (ch = 0 ∨ c.sealed) → n.length = 4 →
   c.payload = w64 slot :: 0 :: n → (if ch = 0 then slot ≤ 1 else 16 ≤ slot ∧ slot ≤ 239) →
   s.keySlot (if ch = 0 then slot else partSlot (chanPart ch) slot) = some k →
   ∀ m, m = statement 1 (s.statementFlags ch) (if ch = 0 then 0xFFFF else ch.val - 1) slot k.kind k.policy k.serial s.nvm.life.seconds
   k.created (wordsToBytes n) (publicPart k.kind k.key) → Runs (.keyAttestKey ch c) s fun t =>
   Answered s t ch 0x0402 c .ok (bytesToWords 44 (m ++ (s.signIdentity m).1)) ∧
   Only [.chans, .out, .pool, .devDrbg, .free] (s.inTurn ch 0x0402) t) ∧
  (∀ s ch c (first max : Nat) (n : List W64), vfTakes s ch 0x0402 c → c.sealed → n.length = 4 →
   c.payload = w64 (1 * 2 ^ 16) :: w64 (max * 2 ^ 32 + first) :: n → 1 ≤ max → max ≤ 1000 → first < 2 ^ 32 → first ≤ (s.own ch).log.count →
   ∀ rs, rs = (s.own ch).log.select first max → ∀ m, m = statement 2 (s.statementFlags ch) (ch.val - 1) 0 0 0 (s.own ch).log.count
   s.nvm.life.seconds 0 (wordsToBytes n) (s.own ch).log.digest → Runs (.keyAttestLog ch c) s fun t =>
   Answered s t ch 0x0402 c .ok (bytesToWords 44 (m ++ (s.signIdentity m).1) ++ [w64 rs.length] ++ bytesToWords (8 * rs.length) rs.flatten)
   ∧ Only [.chans, .out, .pool, .devDrbg, .free] (s.inTurn ch 0x0402) t) ∧
  (∀ s ch c, takes s ch 0x0204 c → s.chans[ch].asyncs = [] → nonZero (word c.payload 0) 63 32 = false →
   (readPoint (wordsToBytes ((c.payload.drop 1).take 12))).isSome → payloadBits c 0 31 0 = (s.sessionIds ch).2.2 → (ch ≠ 0 →
   s.roundsOpen (chanPart ch) = 0 ∧ s.ticketsBusy (chanPart ch) = false) → s.entropy ch = .ready →
   ∀ ok, ok = ecdsaVerify (s.ownerKey ch) (s.sessionMessage ch c.payload) (wordsToBytes ((c.payload.drop 17).take 12)) →
   Runs (.openSession ch c) s fun t => (ok → ∃ d nonce k e, t.keySlot (sessionSlot ch) = some e ∧ e.kind = 9 ∧
   e.key = hkdf sha384Kind (ecdh (scalarOf d) (wordsToBytes ((c.payload.drop 1).take 12))) (wordsToBytes ((c.payload.drop 13).take 4) ++
   nonce) (ascii "skv9032 session" ++ leBytes 2 (s.sessionIds ch).1 ++ leBytes 4 (s.sessionIds ch).2.2) 32 ∧ (∀ n, n ≠ sessionSlot ch →
   t.keySlot n = s.keySlot n) ∧ (t.sessionIds ch).2.2 = (s.sessionIds ch).2.2 + 1 ∧ t.chans[ch].seqExpect = 0 ∧ t.chans[ch].held = none ∧
   Replied s t ch 0x0204 c .ok (bytesToWords 12 (p384Pub (scalarOf d)) ++ bytesToWords 4 nonce ++ bytesToWords 6 deviceFp ++ bytesToWords 12
   (ecdsaSign identityKey (scalarOf k) (sha384 (s.sessionMessage ch c.payload) ++ wordsToBytes ((c.payload.drop 17).take 12) ++ p384Pub
   (scalarOf d) ++ nonce ++ deviceFp)))) ∧ (ok = false → Answered s t ch 0x0204 c .authFailed [] ∧ OnlyChannel (s.inTurn ch 0x0204) t ch) ∧
   Only [.nvm, .chans, .out, .pannier, .parts, .banks, .pool, .devDrbg, .rngAlarm, .free] (s.inTurn ch 0x0204) t)

/-- Memory keys, tenant keys and link keys rotate; the plaintext of DRAM stays the same (R313, R330 to R333). Model's choices: when the SAK
before is retired and the next association number (log 134); what a fold slot carries in a frame (log 151); the layout of the exchange (log
51). -/
def Obligations.KeysRotate : Prop :=
  (∀ s ch c, vfTakes s ch 0x0403 c → c.payload = [0] → s.rotating (chanPart ch) = false → s.entropy ch = .ready →
   Runs (.keyRotateMemory ch c) s fun t => ∃ e, Holds s t ch 0x0403 c (.epochFlip (chanPart ch).val) ∧
   t.chans[ch].replies = s.chans[ch].replies ∧ Table.get? t.pannier (partSlot (chanPart ch) (if (s.own ch).mem.epoch then 1 else 2)) = some
   e ∧ e.kind = 8 ∧ e.key = ((s.partReseed (chanPart ch)).partDraw (chanPart ch) 64).1 ∧
   (∀ n, n ≠ partSlot (chanPart ch) (if (s.own ch).mem.epoch then 1 else 2) → t.keySlot n = s.keySlot n) ∧ (t.own ch).mem = (s.own ch).mem ∧
   (t.own ch).dram = (s.own ch).dram ∧ OwnOnly [.pannier, .banks, .pool, .devDrbg, .rngAlarm, .free] s t ch 0x0403) ∧
  (∀ s (p : Fin 16) r, s.chans[vf p].held = some ⟨r, .epochFlip p.val⟩ → Runs (.epochFlip p) s fun t => nextFrame s.clock ≤ t.clock ∧
   Finishes s t (vf p) r .ok [] ∧ t.parts = (s.modPart p (fun q =>
   { q with mem := { q.mem with epoch := !q.mem.epoch, sweep := some ⟨nextFrame s.clock, 0⟩ } })).parts ∧
   Only [.clock, .chans, .out, .parts] s t) ∧
  (∀ (s : State) (p : Fin 16) (rank : Nat) (sw : Sweep), s.parts[p].mem.sweep = some sw → rank < s.parts[p].stacks →
   (s.stackCool s.parts[p] rank = false → s.parts[p].foldIdle rank = false → exec (.memorySweepSlot p rank) s = .next s) ∧
   (s.stackCool s.parts[p] rank ∨ s.parts[p].foldIdle rank → Runs (.memorySweepSlot p rank) s fun t => ∃ k, k ≤ 4 ∧
   t.parts[p].mem.sweep = some { sw with pages := sw.pages + k } ∧ t.parts[p].mem.epoch = s.parts[p].mem.epoch ∧ (k < 4 →
   t.parts[p].mem.oldPage rank 0 = none) ∧ (∀ r, r ≠ rank → t.parts[p].mem.onePages.getD r [] = s.parts[p].mem.onePages.getD r []) ∧
   t.parts[p].dram = s.parts[p].dram ∧ InPart p [] s t)) ∧
  (∀ (s : State) (p : Fin 16) (sw : Sweep), s.parts[p].mem.sweep = some sw → (∀ r, r < s.parts[p].stacks →
   s.parts[p].mem.oldPage r 0 = none) → Runs (.memorySweepDone p) s fun t => At (nextFrame s.clock) s t ∧
   t.pannier = Table.del s.pannier (partSlot p (if s.parts[p].mem.epoch then 1 else 2)) ∧
   t.parts[p].mem = { s.parts[p].mem with sweep := none, rotations := s.parts[p].mem.rotations + 1 } ∧ t.parts[p].dram = s.parts[p].dram ∧
   InPart p [.clock, .chans, .out, .pannier] s t) ∧
  (∀ s ch c (loc : Nat) (k : KeySlot), vfTakes s ch 0x0403 c → c.payload = [w64 (loc * 2 ^ 32 + 1)] → 16 ≤ loc → loc ≤ 239 →
   s.keySlot (partSlot (chanPart ch) loc) = some k → s.slotInUse (chanPart ch) loc = false → s.entropy ch = .ready →
   Runs (.keyRotateTenantKey ch c) s fun t => ∃ e, t.keySlot (partSlot (chanPart ch) loc) = some e ∧
   Answered s t ch 0x0403 c .ok ([w64 loc, w64 (s.nvm.serials + 1)] ++ bytesToWords 12 (publicPart e.kind e.key)) ∧
   e.key = ((s.partReseed (chanPart ch)).genKey ch k.kind).1 ∧ (∀ n, n ≠ partSlot (chanPart ch) loc → t.keySlot n = s.keySlot n) ∧
   e.kind = k.kind ∧ e.policy = k.policy ∧ e.period = k.period ∧ e.serial = s.nvm.serials + 1 ∧ Logged s t ch 2 ∧
   OwnOnly [.nvm, .pannier, .banks, .pool, .devDrbg, .rngAlarm, .free] s t ch 0x0403) ∧
  (∀ s c (l : Fin 24), takes s 0 0x0403 c → c.payload = [w64 (l.val * 2 ^ 32 + 2)] → s.entropy 0 = .ready →
   Runs (.keyRotateLinkSak 0 c) s fun t => t.pf.held = none ∧ Replied s t 0 0x0403 c .ok [] ∧ (s.links[l].secured → s.links[l].keyServer →
   s.links[l].st = .up → t.links[l].secured ∧ t.links[l].pnTx = 1 ∧ t.links[l].pnRx = 1 ∧ t.links[l].an = (s.links[l].an + 1) % 4 ∧
   t.links[l].oldPn = some s.links[l].pnRx ∧ t.links[l].st = .up ∧ (∀ e₀, s.keySlot (s.links[l].sakSlot l.val) = some e₀ →
   ∃ e, t.keySlot (33 + 2 * l.val) = some e ∧ e.kind = 11 ∧ e.period = e₀.period) ∧ Table.has t.pannier (33 + 2 * l.val) ∧ (∀ j, j ≠ l →
   t.links[j] = s.links[j])) ∧ (s.links[l].secured = false ∨ s.links[l].keyServer = false → t.links = s.links ∧ t.pannier = s.pannier)) ∧
  (∀ s c (l : Fin 24), takes s 0 0x0403 c → c.payload = [w64 (l.val * 2 ^ 32 + 3)] → s.entropy 0 = .ready →
   Runs (.keyRotateLinkBinigal 0 c) s fun t => Answered s t 0 0x0403 c .ok [] ∧ (s.links[l].mode = 3 →
   s.links[l].st = .up ∨ s.links[l].st = .training → t.links[l].bin.keyed = false ∧ (s.links[l].bin.keyed ∨ s.links[l].st = .up →
   t.pannier = s.pannier) ∧ (s.links[l].bin.keyed = false → s.links[l].st = .training →
   t.pannier = Table.del (Table.del s.pannier (80 + 2 * l.val)) (81 + 2 * l.val)) ∧
   ∃ a b k, Output.binigal l.val (plainFrame ⟨12, 0xFF, a, b, 0, 0, 0, 0, 0, identityPub ++ handshakeBody t.links[l].bin.eph
   t.links[l].bin.nonce ++ ecdsaSign identityKey (scalarOf k) (handshakeBody t.links[l].bin.eph t.links[l].bin.nonce)⟩) ∈ t.out) ∧
   (s.links[l].mode ≠ 3 → t.links = s.links ∧ t.pannier = s.pannier) ∧ (∀ j, j ≠ l → t.links[j] = s.links[j]))

/-- ZEROISE clears the pannier; weights bundles are bound and unwrapped; debug scopes unlock under their authority (R317, R334 to R336, R340,
R341, R378). Model's choices: a RESPONSE that fails also consumes the nonce (see its assumption). -/
def Obligations.ZeroiseWeightsAndDebug : Prop :=
  (∀ s c, takes s 0 0x0404 c → c.payload = [w64 (1 * 2 ^ 16)] → (s.noPartition → Runs (.keyDestroyZeroise 0 c) s fun t => t.pf.held = none ∧
   t.pf.seqExpect = 0 ∧ Replied s t 0 0x0404 c .ok [] ∧ (∀ slot, 2 ≤ slot → t.keySlot slot = none) ∧ (∃ e, t.keySlot 0 = some e ∧
   e.kind = 1 ∧ e.key = beBytes 48 identityKey) ∧ (∃ e, t.keySlot 1 = some e ∧ e.kind = 2 ∧ e.key = beBytes 48 bindingKey)) ∧
   (∀ p : Fin 16, s.parts[p].st = .active → Runs (.keyDestroyZeroise 0 c) s fun t => t.parts[p].st = .destroying ∧
   Holds s t 0 0x0404 c (.zeroise) ∧ t.pf.replies = s.pf.replies)) ∧
  (∀ s ch c, vfTakes s ch 0x0405 c → s.ranDry ch 0x0405 c → s.entropy ch = .ready → ∀ b, b = readBind c.payload →
   ∀ u, u = s.dryTurn ch 0x0405 c → ∀ x, x = (u.partReseed (chanPart ch)).bindWeights (chanPart ch) b → Runs (.bindWeights ch c) s fun t =>
   (checkBindWeights u (chanPart ch) c.payload = none → Answered s t ch 0x0405 c .ok x.1 ∧
   (∃ bid, x.1 = [bid, w64 (bundleLength b.n b.plain)] ++ bytesToWords 6 (sha384 ((u.own ch).dram.readN b.src b.plain))) ∧
   (t.own ch).dram = (x.2.own ch).dram ∧ OwnFrom [.banks, .pool] u t ch) ∧ (∀ st, checkBindWeights u (chanPart ch) c.payload = some st →
   Answered s t ch 0x0405 c st [] ∧ OnlyChannel (s.inTurn ch 0x0405) t ch)) ∧
  (∀ s ch c, vfTakes s ch 0x0406 c → s.ranDry ch 0x0406 c → ∀ u, u = s.dryTurn ch 0x0406 c →
   ∀ x, x = u.unwrapWeights (chanPart ch) c.payload → Runs (.unwrapWeights ch c) s fun t =>
   (checkUnwrapWeights u (chanPart ch) c.payload = none → Answered s t ch 0x0406 c x.1 x.2.1 ∧ (t.own ch).dram = (x.2.2.own ch).dram ∧
   OwnFrom [] u t ch) ∧ (∀ st, checkUnwrapWeights u (chanPart ch) c.payload = some st → Answered s t ch 0x0406 c st [] ∧
   OnlyChannel (s.inTurn ch 0x0406) t ch)) ∧
  (∀ s c, takes s 0 0x0A03 c → c.payload = [0] → s.noPartition → ∀ n, n = (s.deviceDraw 32).1 → Runs (.debugUnlockChallenge 0 c) s fun t =>
   t.debugAccess = { s.debugAccess with nonce := some (n, (s.inTurn 0 0x0A03).clock) } ∧
   Answered s t 0 0x0A03 c .ok (bytesToWords 4 n ++ bytesToWords 6 deviceFp) ∧
   Only [.chans, .out, .pool, .devDrbg, .debugAccess, .free] (s.inTurn 0 0x0A03) t) ∧
  (∀ s c (rest : List W64) (n : List Byte) (at' : Nat), takes s 0 0x0A03 c → c.payload = w64 (1 * 2 ^ 16) :: rest → rest.length = 24 →
   s.noPartition → s.debugAccess.nonce = some (n, at') → (s.inTurn 0 0x0A03).clock ≤ at' + 60 * sec →
   Runs (.debugUnlockResponse 0 c) s fun t => t.debugAccess.nonce = none ∧ (debugAnswerOk n c.payload → t.debugAccess.unlocked ∧
   Replied s t 0 0x0A03 c .ok []) ∧ (debugAnswerOk n c.payload = false → t.debugAccess.unlocked = s.debugAccess.unlocked ∧
   Answered s t 0 0x0A03 c .authFailed []) ∧ Only [.chans, .out, .nvm, .debugAccess] (s.inTurn 0 0x0A03) t) ∧
  (∀ s ch c, vfTakes s ch 0x0A03 c → c.sealed → (c.payload = [w64 (2 * 2 ^ 16)] → Runs (.debugUnlockPartitionOn ch c) s fun t =>
   (t.own ch).debugOn ∧ Logged s t ch 1 ∧ OnlyPart (chanPart ch) s t ∧ Replied s t ch 0x0A03 c .ok [] ∧
   Only [.chans, .out, .nvm, .parts] (s.inTurn ch 0x0A03) t) ∧ (c.payload = [w64 (3 * 2 ^ 16)] →
   Runs (.debugUnlockPartitionOff ch c) s fun t => (t.own ch).debugOn = false ∧ Logged s t ch 1 ∧ OnlyPart (chanPart ch) s t ∧
   Replied s t ch 0x0A03 c .ok [] ∧ Only [.chans, .out, .nvm, .parts] (s.inTurn ch 0x0A03) t)) ∧
  (∀ (s : State) (n : List Byte) (at' : Nat), s.debugAccess.nonce = some (n, at') → Runs .debugNonceExpiry s fun t =>
   t.debugAccess = { s.debugAccess with nonce := none } ∧ At (at' + 60 * sec) s t ∧ Only [.clock, .debugAccess] s t)

/-- PORT_CONFIG sets links, CAKs and congestion control; SET_EGRESS_ALLOW sets and clears entries (R361, R362, R364, R381, R386). -/
def Obligations.PortsAndEgressAreConfigured : Prop :=
  (∀ s c (l : Fin 24) (w : List W64), takes s 0 0x0601 c → c.sealed → c.payload = w → bits (word w 0) 17 16 = 0 →
   bits (word w 0) 4 0 = l.val → checkSetLink s 0 (s.req 0 0x0601 c) = none → Runs (.portConfigSetLink 0 c) s fun t =>
   Replied s t 0 0x0601 c .ok [] ∧ t.links[l].asSet w ∧ t.links[l].st = (if bits (word w 0) 23 20 = 0 then .down else .training)) ∧
  (∀ s c (l : Fin 24) (k : List W64), takes s 0 0x0601 c → c.sealed → c.payload = w64 (1 * 2 ^ 16 + l.val) :: k → k.length = 6 →
   Runs (.portConfigSetCak 0 c) s fun t => ∃ e, Answered s t 0 0x0601 c .ok [] ∧ t.keySlot (8 + l.val) = some e ∧ e.kind = 10 ∧
   e.key = wordsToBytes (k.drop 2) ∧ (∀ n, n ≠ 8 + l.val → t.keySlot n = s.keySlot n) ∧ t.links = (s.modLink l (fun x =>
   { x with ckn := wordsToBytes (k.take 2), newCak := true })).links ∧ Only [.chans, .out, .pannier, .pool, .devDrbg, .links, .free]
   (s.inTurn 0 0x0601) t) ∧
  (∀ s ch c (p1 p2 : W64), vfTakes s ch 0x0601 c → c.sealed → c.payload = [w64 (3 * 2 ^ 16), p1, p2] → nonZero p2 25 0 = false →
   (readCc c.payload).ok → AnswersWith (.portConfigSetCc ch c) s ch 0x0601 c .ok [] fun u => u.modNet (chanPart ch) (fun n => { n with
     cc := ⟨bits p1 63 48, bits p1 47 32, bits p1 31 16, bits p1 15 0, bits p2 63 54, bits p2 53 44, bits p2 43 34, bits p2 33 30, bits p2
         29 26⟩ })) ∧
  (∀ s ch c (i : Nat), vfTakes s ch 0x0205 c → i < 64 → (∀ (kind : Nat) (v6 : Bool) (a0 a1 : W64) (pub : List W64), c.payload = w64 (b2n v6
   * 2 ^ 32 + kind * 2 ^ 24 + i) :: a0 :: a1 :: pub → kind < 3 → (v6 = false → a0.toNat < 2 ^ 32 ∧ a1 = 0) →
   (AllowEntry.mk v6 kind a0 a1 (wordsToBytes pub)).pubOk → AnswersWith (.setEgressAllowSet ch c) s ch 0x0205 c .ok [] fun u =>
   u.modNet (chanPart ch) (fun n => { n with allow := Table.put n.allow i ⟨v6, kind, a0, a1, wordsToBytes pub⟩ })) ∧
   (∀ rest : List W64, c.payload = w64 (1 * 2 ^ 16 + i) :: rest → rest.all (· == 0) → Table.has (s.own ch).net.allow i →
   AnswersWith (.setEgressAllowClear ch c) s ch 0x0205 c .ok [] fun u => u.modNet (chanPart ch) (fun n =>
   { n with allow := Table.del n.allow i })))

/-- Queue pairs are created, moved through their states, given descriptors and destroyed (R369 to R373, R382). -/
def Obligations.QueuePairsLiveAndEnd : Prop :=
  (∀ s ch c (addr : Nat), vfTakes s ch 0x0602 c → c.payload = [0, w64 addr] → addr < 2 ^ 39 → checkStore (s.own ch) c.payload = none →
   AnswersWith (.createQpStore ch c) s ch 0x0602 c .ok [] fun u => u.modNet (chanPart ch) (fun n => { n with store := some addr })) ∧
  (∀ s ch c (i : Nat), vfTakes s ch 0x0602 c → payloadBits c 0 17 16 = 1 → checkCreateQp (s.own ch) c.payload = none →
   (s.own ch).freeQp = some i → Runs (.createQpCreate ch c) s fun t => ∃ q, Answered s t ch 0x0602 c .ok [w64 (qpnOf (chanPart ch) i * 2 ^
   32 + i)] ∧ t.qp? (chanPart ch) i = some q ∧ q.asCreated c ∧ q.prio = (if (s.own ch).shared then (s.own ch).prio else payloadBits c 0 43
   41) ∧ (0 < (s.own ch).cacheSize → (t.own ch).net.cache.head? = some i) ∧ (∀ j, j ≠ i → t.qp? (chanPart ch) j = s.qp? (chanPart ch) j) ∧
   OwnOnly [] s t ch 0x0602) ∧
  (∀ s ch c (i n rx tx : Nat) (q : Qp) (m : QpState), vfTakes s ch 0x0603 c → i < 2 ^ 18 → rx < 2 ^ 24 → tx < 2 ^ 24 → n < 8 → (m ≠ .init →
   rx = 0 ∧ tx = 0) → c.payload = [w64 (i * 2 ^ 40 + n), w64 rx, w64 tx] → readQpState n = some m → s.qp? (chanPart ch) i = some q →
   (qpMove q.st m → m ≠ .error → AnswersWith (.modifyQpState ch c) s ch 0x0603 c .ok [] fun u => u.modQp (chanPart ch) i (fun q => { q with
     st := m, ePsn := if m = .init then rx else q.ePsn, sqPsn := if m = .init then tx else q.sqPsn,
     seqNak := if m = .init then false else q.seqNak, sinceAck := if m = .init then 0 else q.sinceAck })) ∧ (m = .error →
   Runs (.modifyQpState ch c) s fun t => ∃ q', t.qp? (chanPart ch) i = some q' ∧ q'.st = .error ∧ (q.st ≠ .error → q'.sending = none ∧
   q'.egress = [] ∧ q'.msg = none) ∧ Replied s t ch 0x0603 c .ok [] ∧ OnlyPart (chanPart ch) s t) ∧ (qpMove q.st m = false →
   Answers (.modifyQpState ch c) s ch 0x0603 c .badState [])) ∧
  (∀ s ch c (i : Nat) (e : List W64), vfTakes s ch 0x0603 c → i < 2 ^ 18 → c.payload = w64 (i * 2 ^ 40 + 1 * 2 ^ 16) :: e → e.length = 6 →
   egressMalformed s (chanPart ch) (some i) e = false → (s.own ch).egressLoad i < 16 → checkEgress s (chanPart ch) none (some i) e = none →
   AnswersWith (.modifyQpPostEgress ch c) s ch 0x0603 c .ok [] fun u => u.queueEgress (chanPart ch) e) ∧
  (∀ s ch c (i : Nat) (q : Qp), vfTakes s ch 0x0604 c → i < 2 ^ 18 → c.payload = [w64 i] → s.qp? (chanPart ch) i = some q →
   Runs (.destroyQp ch c) s fun t => t.qp? (chanPart ch) i = none ∧ Replied s t ch 0x0604 c .ok [] ∧ OnlyPart (chanPart ch) s t)

/-- Regions are registered, revoked and retired (R374, R375, R379, R380). -/
def Obligations.RegionsLiveAndEnd : Prop :=
  (∀ s ch c (i : Nat), vfTakes s ch 0x0605 c → checkRegister (s.own ch) c.payload = none → (s.own ch).net.freeReg = some i →
   Runs (.registerRegion ch c) s fun t => ∃ g, Answered s t ch 0x0605 c .ok [t.rkeyWord (chanPart ch) i] ∧
   Table.get? (t.own ch).net.regs i = some ⟨(s.own ch).net.regCount % 4096, .region g⟩ ∧ g.base = payloadBits c 1 38 0 ∧
   g.length = payloadBits c 2 36 0 ∧ g.revoking = none ∧ (∀ j, j ≠ i → Table.get? (t.own ch).net.regs j = Table.get? (s.own ch).net.regs j)
   ∧ OwnOnly [.clusters] s t ch 0x0605) ∧
  (∀ s ch c (k : Nat) (g : Region), vfTakes s ch 0x0606 c → k < 2 ^ 32 → c.payload = [w64 k] → (s.own ch).net.region? k = some g →
   g.revoking = none → AnswersWith (.revokeRegion ch c) s ch 0x0606 c .revoking [] fun u => u.modNet (chanPart ch) (fun n =>
   n.modRegion (rkeyIndex k) (fun g => { g with revoking := some ⟨u.clock, 0, 0⟩ }))) ∧
  (∀ (s : State) (p : Fin 16) (i tag k : Nat) (g : Region) (v : Revoking), Table.get? s.parts[p].net.regs i = some ⟨tag, .region g⟩ →
   s.parts[p].net.rkey i = some k → g.revoking = some v → (s.parts[p].net.msgUnderway i = false → s.parts[p].rnd.placing i = false →
   Runs (.revocationDrained p i) s fun t => Table.get? t.parts[p].net.regs i = none ∧ InPart p [.chans, .out] s t) ∧
   (s.parts[p].net.msgUnderway i → Runs (.revocationTimeout p i) s fun t => At (v.at' + 100 * ms) s t ∧
   t.parts[p].net.msgUnderway i = false ∧ InPart p [.clock] s t))

/-- A round opens, closes its ranges and ends, with the ledger, the counts and the accumulators its rules give (R35, R47 to R49, R55 to R58,
R60, R63 to R66, R97, R142, R225, R436). -/
def Obligations.RoundsOpenCloseAndEnd : Prop :=
  (∀ s ch c, vfTakes s ch 0x0301 c → openBad c.payload = false → s.ranDry ch 0x0301 c → ∀ u, u = s.dryTurn ch 0x0301 c →
   checkOpenSlots (u.own ch) c.payload = none → checkOpenTable (u.own ch) c.payload = none → Runs (.openRound ch c) s fun t =>
   ∃ x, Answered s t ch 0x0301 c .accepted [] ∧ (t.own ch).rnd.rounds = (s.own ch).rnd.rounds ++ [x] ∧ x.asOpened c ∧ (∀ i, i < x.clients →
   ((t.own ch).rnd.entry (x.base + i)).st = .absent ∧ ((t.own ch).rnd.entry (x.base + i)).tag = x.tag) ∧ OwnFrom [] u t ch) ∧
  (∀ s p tag x, State.round? s p tag = some x → x.opening → x.ending = none → ∀ u, u = s.syncDram p →
   Runs (.roundClearingDone p tag) s fun t => t.round? p tag = some
   { x with opening := false, openedAt := s.clock, openedSec := s.nvm.life.seconds } ∧ (∀ a, x.bitmapAddr ≤ a →
   a < x.bitmapAddr + x.clients * x.bitmapStride → t.parts[p].dram.read a = 0) ∧ (∀ w ∈ s.parts[p].roundWindows x, ∀ j, j < w.vecChunks →
   ∀ b, b < 4096 → t.parts[p].dram.read (w.chunkAddr j + b) = 0) ∧ (∀ a, (a < x.bitmapAddr ∨ x.bitmapAddr + x.clients * x.bitmapStride ≤ a)
   → (∀ w ∈ s.parts[p].roundWindows x, ∀ j, j < w.vecChunks → a < w.chunkAddr j ∨ w.chunkAddr j + 4096 ≤ a) →
   t.parts[p].dram.read a = u.parts[p].dram.read a) ∧ Posts p s t ∧ InPart p [.chans, .out] u t) ∧
  (∀ s ch c (x : Round), vfTakes s ch 0x0302 c → checkCloseRound s (chanPart ch) c.payload = none →
   s.round? (chanPart ch) (payloadBits c 0 10 0) = some x → ∀ idx, idx = x.closing (bitAt (word c.payload 0) 11) (payloadBits c 1 24 0)
   (payloadBits c 1 56 32) → Runs (.closeRound ch c) s fun t => ∃ x' y, Answered s t ch 0x0302 c .ok [] ∧
   t.round? (chanPart ch) x.tag = some x' ∧ x'.ranges = x.ranges ++ [y] ∧ y.idx = idx ∧ y.posted = false ∧ y.final = false ∧
   y.closeId = (s.own ch).rnd.nextId ∧ y.mendEnd = (s.inTurn ch 0x0302).clock + x.mendMs * ms ∧ (∀ i, i < x.clients →
   (t.own ch).rnd.entry (x.base + i) = (s.own ch).closeEntry x idx i ((s.own ch).rnd.entry (x.base + i))) ∧
   (t.own ch).dram = (s.own ch).dram ∧ OwnOnly [] s t ch 0x0302) ∧
  (∀ (s : State) (p : Fin 16) (tag i : Nat) (x : Round) (y : ClosedRange), s.round? p tag = some x → x.range? i = some y → x.ending = none →
   (y.posted = false → s.parts[p].rnd.drained tag y.closeId → Runs (.rangeClosed p tag i) s fun t =>
   t.round? p tag = some (x.modRange i (fun y => { y with posted := true })) ∧ Posts p s t ∧ InPart p [.chans, .out] s t) ∧
   (y.endId = none → exec (.mendWindowEnd p tag i) s = .next ((s.advance y.mendEnd).modRound p tag (fun x => x.modRange i (fun y =>
   { y with endId := some s.parts[p].rnd.nextId })))) ∧ (∀ id, y.posted → y.final = false → y.endId = some id →
   s.parts[p].rnd.drained tag id → ∀ least, least = (s.parts[p].leastOf x ((List.range x.chunks).filter (RangeSet.mem y.idx))).getD 0 →
   Runs (.rangeFinal p tag i) s fun t => ∃ x' y', t.round? p tag = some x' ∧ x'.range? i = some y' ∧ y'.final ∧
   x'.least = some (x.least.elim least (Nat.min least)) ∧ (x.minSurvivors ≠ 0 → least < x.minSurvivors → x'.ending = some (.torn 1)) ∧
   (∀ j e e', j < x.clients → e = s.parts[p].rnd.entry (x.base + j) → e' = t.parts[p].rnd.entry (x.base + j) → ((y.last = true ∧
   (e.st = .arriving ∨ e.st = .torn) → e'.st = .torn ∧ e'.flags.testBit 4 = true) ∧ (y.last = false ∨ (e.st ≠ .arriving ∧ e.st ≠ .torn) →
   e'.st = e.st ∧ e'.flags.testBit 4 = e.flags.testBit 4))) ∧ InPart p [.chans, .out] s t)) ∧
  (∀ s ch c (tag n : Nat) (x : Round) (d : List W64), vfTakes s ch 0x0306 c → tag < 2 ^ 11 → n ≤ 8 →
   c.payload = w64 (n * 2 ^ 16 + tag) :: d → d.length = 6 * n → s.round? (chanPart ch) tag = some x → x.state = 4 → x.ending = none →
   checkDescriptors s (chanPart ch) tag [] (chop 6 n d) = none → Runs (.releaseAggregate ch c) s fun t =>
   ∃ x', Answered s t ch 0x0306 c .ok [w64 n] ∧ t.round? (chanPart ch) tag = some x' ∧ x'.ending = some .released ∧ x'.egress = chop 6 n d ∧
   (t.own ch).dram = (s.own ch).dram ∧ OwnOnly [] s t ch 0x0306) ∧
  (∀ s ch c (tag : Nat) (x : Round), vfTakes s ch 0x0308 c → tag < 2 ^ 11 → c.payload = [w64 tag] → s.round? (chanPart ch) tag = some x →
   Runs (.abortRound ch c) s fun t => ∃ x', Answered s t ch 0x0308 c .ok [] ∧ t.round? (chanPart ch) tag = some x' ∧
   x'.ending = some (x.ending.getD (.aborted 2)) ∧ (t.own ch).dram = (s.own ch).dram ∧ OwnOnly [] s t ch 0x0308) ∧
  (∀ s p tag x (e : Ending), State.round? s p tag = some x → x.ending = some e → s.parts[p].rnd.inFlight.any (fun k =>
   k.tag == tag) = false → s.parts[p].recovering tag = false → ∀ u, u = s.syncDram p → Runs (.roundEndDrainDone p tag) s fun t =>
   t.round? p tag = none ∧ (∀ i, i < x.clients → t.parts[p].rnd.entry (x.base + i) = LedgerEntry.reset) ∧
   (t.parts[p].rnd.ended.head?.map EndedRound.tag) = some tag ∧ t.parts[p].dram = u.parts[p].roundMemory x e ∧
   (∃ r ∈ t.nvm.log, r.seq = s.nvm.logSeq + 1 ∧ r.kind = 0x0403) ∧ InPart p [.clock, .nvm, .chans, .out] u t)

/-- Fold windows are registered and unregistered; a region packet is placed and changes no other byte (R71 to R75, R276, R376). Model's choices:
a packet that signals waits with its payload for the chunks before it (log 115). -/
def Obligations.FoldWindowsAndPlacement : Prop :=
  (∀ s ch c (i id : Nat), vfTakes s ch 0x0607 c → checkCreateWindow (s.own ch) c.payload = none → (s.own ch).net.freeReg = some i →
   id = payloadBits c 0 6 0 → Runs (.createFoldWindow ch c) s fun t => Answered s t ch 0x0607 c .ok [t.rkeyWord (chanPart ch) i] ∧
   Table.get? (t.own ch).rnd.windows id = some (readWindow c.payload i) ∧
   Table.get? (t.own ch).net.regs i = some ⟨(s.own ch).net.regCount % 4096, .window id⟩ ∧
   (t.own ch).rnd.aq.isSome = ((s.own ch).rnd.aq.isSome || (s.own ch).rnd.windows.isEmpty) ∧ OwnOnly [.clusters] s t ch 0x0607) ∧
  (∀ s ch c (id : Nat) (w : Window), vfTakes s ch 0x0608 c → id ≤ 63 → c.payload = [w64 id] →
   Table.get? (s.own ch).rnd.windows id = some w → (s.own ch).rnd.roundOf id = none → Runs (.destroyFoldWindow ch c) s fun t =>
   Answered s t ch 0x0608 c .ok [] ∧ Table.get? (t.own ch).rnd.windows id = none ∧ Table.get? (t.own ch).net.regs w.reg = none ∧
   ((t.own ch).rnd.windows = [] → (t.own ch).rnd.aq = none) ∧ OwnOnly [.clusters] s t ch 0x0608) ∧
  (∀ (s : State) (p : Fin 16) (id reg addr : Nat) (payload : List Byte) (signal : Bool) (qp : Nat) (y : Bool) (rest : List QItem), takePlace
   s.parts[p].rnd.foldQ = some (.place id reg addr payload signal qp y, rest) → (signal → s.parts[p].rnd.chunksBefore id qp = false) →
   ∀ u, u = s.syncDram p → Runs (.regionPlacement p) s fun t => t.parts[p].rnd.foldQ = rest ∧
   t.parts[p].dram.readN addr payload.length = payload ∧ (∀ b, b < addr ∨ addr + payload.length ≤ b →
   t.parts[p].dram.read b = u.parts[p].dram.read b) ∧ InPart p [.chans, .out, .clusters, .links] u t)

/-- A chunk passes the ledger, bitmap, fold and commit stages, and each changes what its rule says (R52, R77, R86 to R88, R92). -/
def Obligations.ChunkStages : Prop :=
  (∀ (s : State) (p : Fin 16) (win rkey client n : Nat) (imm : Option Nat) (payload : List Byte) (qp queue : Nat) (rest : List QItem) (w :
   Window) (r : Round), takeFold s.parts[p].rnd.foldQ = some (.fold win rkey client n imm payload qp queue, rest) →
   Table.get? s.parts[p].rnd.windows win = some w → s.parts[p].net.rkey w.reg = some rkey → s.parts[p].rnd.live win = some r →
   Runs (.ledgerStage p) s fun t => ∃ k, t.parts[p].rnd.foldQ = rest ∧ t.parts[p].rnd.inFlight = s.parts[p].rnd.inFlight ++ [k] ∧
   k.id = s.parts[p].rnd.nextId ∧ k.tag = r.tag ∧ k.win = win ∧ k.imm = imm ∧ k.qp = qp ∧ k.mend = r.mending n ∧ k.client = client ∧
   k.chunk = n ∧ k.payload = payload ∧ (s.parts[p].late r client n → k.stage = 3 ∧ k.outcome = 2) ∧ (s.parts[p].late r client n = false →
   k.stage = 1 ∧ k.outcome = 0) ∧ t.parts[p].rnd.nextId = s.parts[p].rnd.nextId + 1 ∧ t.parts[p].dram = s.parts[p].dram ∧
   InPart p [.chans, .out, .links] s t) ∧
  (∀ s p i k (r : Round), Turn s p i 1 k → s.round? p k.tag = some r → ∀ a u, a = r.bitAddr (k.client - r.base) k.chunk → u = s.syncDram p →
   Runs (.bitmapStage p i) s fun t => t.parts[p].bit r (k.client - r.base) k.chunk ∧ (u.parts[p].bit r (k.client - r.base) k.chunk →
   t.parts[p].rnd = s.parts[p].rnd.setChunk i { k with stage := 3, outcome := 1 } ∧ t.parts[p].dram = u.parts[p].dram) ∧
   (u.parts[p].bit r (k.client - r.base) k.chunk = false → t.parts[p].rnd = s.parts[p].rnd.setChunk i { k with stage := 2 } ∧
   t.parts[p].dram.read a = byte ((u.parts[p].dram.read a).toNat ||| 2 ^ (k.chunk % 8))) ∧ (∀ b, b ≠ a →
   t.parts[p].dram.read b = u.parts[p].dram.read b) ∧ InPart p [.chans] u t) ∧
  (∀ s p i k (w : Window), Turn s p i 2 k → Table.get? s.parts[p].rnd.windows k.win = some w → ∀ j a n, j = k.chunk - w.vecOffset / 4096 →
   a = w.chunkAddr j → n = elemSize w.elem → (w.elem = 3 → 0 < w.modulus j ∧ w.modulus j ≤ 2 ^ 64) → ∀ u, u = s.syncDram p →
   Runs (.foldStage p i) s fun t => t.parts[p].rnd = s.parts[p].rnd.setChunk i { k with stage := 3 } ∧ (∀ e, e < 4096 / n →
   t.parts[p].dram.readLE (a + e * n) n = (u.parts[p].dram.readLE (a + e * n) n + leNat ((k.payload.drop (e * n)).take n)) % (if w.elem = 3
   then w.modulus j else 2 ^ (8 * n))) ∧ (∀ b, b < a ∨ a + 4096 ≤ b → t.parts[p].dram.read b = u.parts[p].dram.read b) ∧ InPart p [] u t) ∧
  (∀ s p i k (r : Round), Turn s p i 3 k → s.round? p k.tag = some r → k.imm = none → Runs (.commit p i) s fun t =>
   ∃ r', (∀ x ∈ t.parts[p].rnd.inFlight, x.id ≠ k.id) ∧ t.round? p k.tag = some r' ∧ (k.outcome = 0 → r'.accepted = r.accepted + 1 ∧
   t.parts[p].rnd.entry k.client = s.parts[p].acceptEntry r k (s.parts[p].rnd.entry k.client)) ∧ (k.outcome = 1 →
   r'.duplicates = r.duplicates + 1 ∧ (t.parts[p].rnd.entry k.client).flags.testBit 1) ∧ (2 ≤ k.outcome → r'.late = r.late + 1 ∧
   (t.parts[p].rnd.entry k.client).flags.testBit 5) ∧ (∀ j, j ≠ k.client → t.parts[p].rnd.entry j = s.parts[p].rnd.entry j) ∧
   t.parts[p].dram = s.parts[p].dram ∧ InPart p [.chans] s t) ∧
  (∀ s p i (v : Nat) k (r : Round) (a : ArrivalQueue), Turn s p i 3 k → s.round? p k.tag = some r → k.imm = some v → ∀ u, u = s.present p →
   u.parts[p].rnd.aq = some a → Runs (.commit p i) s fun t => ∃ a', (∀ x ∈ t.parts[p].rnd.inFlight, x.id ≠ k.id) ∧
   t.parts[p].rnd.aq = some a' ∧ a'.m = a.m + 1 ∧ t.parts[p].dram.readN (a.addr + a.m % 2 ^ a.log2 * 16) 16 = wordsToBytes (arrivalRecord k
   v a.m) ∧ (∀ b, b < a.addr + a.m % 2 ^ a.log2 * 16 ∨ a.addr + a.m % 2 ^ a.log2 * 16 + 16 ≤ b →
   t.parts[p].dram.read b = u.parts[p].dram.read b) ∧ InPart p [.chans, .clusters] u t)

/-- A recovery starts, takes its material, finds its secrets and meets its deadline (R104, R105, R107 to R114, R120). Model's choices: the entry
of the public-key table is read when the agreement ends (log 145). -/
def Obligations.RecoveryRuns : Prop :=
  (∀ s ch c (x : Round) (tag thr sa pa : Nat) (pk : Bool) (salt : List W64), vfTakes s ch 0x0305 c → tag < 2 ^ 11 → thr ≤ 1024 →
   sa < 2 ^ 39 → sa % 64 = 0 → pa < 2 ^ 39 → pa % 64 = 0 → salt.length = 4 → (pk = false → pa = 0) →
   c.payload = w64 (thr * 2 ^ 32 + tag) :: w64 sa :: w64 (b2n pk * 2 ^ 63 + pa) :: salt → s.ranDry ch 0x0305 c →
   s.round? (chanPart ch) tag = some x → checkStart (s.own ch) x c.payload = none → Runs (.recoverStart ch c) s fun t =>
   ∃ x' k, Answered s t ch 0x0305 c .ok [] ∧ t.round? (chanPart ch) tag = some x' ∧ x'.recovery = some k ∧ k.threshold = thr ∧
   k.seedTable = sa ∧ k.pk = (if pk then some pa else none) ∧ k.salt = wordsToBytes salt ∧ k.fresh ∧ (t.own ch).dram = (s.own ch).dram ∧
   OwnOnly [] s t ch 0x0305) ∧
  (∀ (s : State) (ch : Fin 17) (c : Cmd) (x : Round) (k : Recovery) (ws : List W64), ch ≠ 0 → supplyReserved c.payload = false →
   s.round? (chanPart ch) (payloadBits c 0 10 0) = some x → x.recovery = some k → x.ending = none →
   (∀ (rs : List SeedRecord), takes s ch 0x0303 c → s.ranDry ch 0x0303 c → supplyLength false c.payload →
   supplyRange (s.own ch) false (s.req ch 0x0303 c) = false → (s.inTurn ch 0x0303).supplyWords (chanPart ch) k false c.payload = some ws →
   readSeeds (ws.length / 5) ws = some rs → batchOld k.lastSeeds c.payload = false → ∀ r, r = (s.modRecovery (chanPart ch) x.tag (fun k =>
   { k with lastSeeds := lastBatch k.lastSeeds c.payload })).takeSeeds (chanPart ch) x.tag ⟨0, x.tag, 0, 0, 0, 0, 0, []⟩ rs →
   Runs (.supplySeeds ch c) s fun t => Answered s t ch 0x0303 c (if r.1 then .roundTorn else .ok) r.2.1.words ∧
   (∀ i v, rs = [⟨false, 0, i, v⟩] → x.has i → s.secretOf (chanPart ch) x 0 i = none → Answered s t ch 0x0303 c .ok [w64 1, w64 0] ∧
   ∃ x' k', t.round? (chanPart ch) x.tag = some x' ∧ x'.recovery = some k' ∧ Table.get? k'.self i = some v) ∧
   (t.own ch).dram = (s.own ch).dram ∧ OwnOnly [] s t ch 0x0303) ∧ (∀ (bs : List Bundle), takes s ch 0x0304 c → s.ranDry ch 0x0304 c →
   supplyLength true c.payload → supplyRange (s.own ch) true (s.req ch 0x0304 c) = false →
   (s.inTurn ch 0x0304).supplyWords (chanPart ch) k true c.payload = some ws → k.threshold ≠ 0 →
   (cutBundles ws.length ws).bind (readBundles k.threshold) = some bs → batchOld k.lastShares c.payload = false →
   Runs (.supplyShares ch c) s fun t => ((bs.filter (fun b => x.has b.owner)) = [] → Answered s t ch 0x0304 c .ok [0, w64 bs.length]) ∧
   ((bs.filter (fun b => x.has b.owner)) ≠ [] → Holds s t ch 0x0304 c (.seedUnits (s.own ch).rnd.nextSupply) ∧ ∀ b ∈ bs, x.has b.owner →
   ∃ j ∈ (t.own ch).rnd.seedJobs, j.work = .rebuild (s.own ch).rnd.nextSupply b) ∧ (t.own ch).dram = (s.own ch).dram ∧
   OwnOnly [] s t ch 0x0304)) ∧
  (∀ (s : State) (p : Fin 16) (j : SeedJob) (r : Round) (k : Recovery), firstJob s.parts[p].rnd.seedJobs = some j →
   s.round? p j.tag = some r → r.ending = none → r.recovery = some k → ∀ u, u = (s.advance j.ends).syncDram p →
   Runs (.seedUnitJobDone p) s fun t => j.ends ≤ t.clock ∧ (∀ id b v y, j.work = .rebuild id b →
   b.secret (s.parts[p].threshold r.tag) = some v → b.kind = 0 → r.has b.owner → s.secretOf p r 0 b.owner = none →
   s.parts[p].rnd.supplies.find? (fun y => y.id == id) = some y → y.tag = r.tag → (y.remaining ≤ 1 → ∃ r' k', t.round? p j.tag = some r' ∧
   r'.recovery = some k' ∧ Table.get? k'.self b.owner = some v) ∧ (∀ h, y.remaining ≤ 1 → (s.chans[vf p]).held = some h →
   h.why = .seedUnits id → Finishes s t (vf p) h.req .ok ({ y with held := y.held + 1 } : Supply).words) ∧ (2 ≤ y.remaining →
   At j.ends s t ∧ ∃ y' ∈ t.parts[p].rnd.supplies, y'.id = id ∧ y'.remaining = y.remaining - 1 ∧ y'.kept = y.kept ++ [(0, b.owner, v)])) ∧
   (∀ lo hi key v, j.work = .agree lo hi key → r.edge lo hi → Table.get? k.pair (pairKey lo hi) = none →
   pairSeed ((Table.get? k.keys key).getD []) (u.parts[p].publicKey r (if key = lo then hi else lo)) k.salt = some v → At j.ends s t ∧
   ∃ r' k', t.round? p j.tag = some r' ∧ r'.recovery = some k' ∧ Table.get? k'.pair (pairKey lo hi) = some v) ∧
   t.parts[p].dram = s.parts[p].dram ∧ InPart p [.clock, .chans, .out] s t) ∧
  (∀ (s : State) (p : Fin 16) (tag i due : Nat) (r : Round) (x : ClosedRange), s.round? p tag = some r → r.range? i = some x →
   x.deadline = some due → r.ending = none → s.supplyPending p tag due = false →
   ∀ cs, cs = (List.range r.chunks).filter (RangeSet.mem x.idx) → Runs (.recoveryDeadline p tag i) s fun t => ∃ r' x', At due s t ∧
   t.round? p tag = some r' ∧ r'.range? i = some x' ∧ x'.deadline = none ∧ x'.overdue = false ∧
   r'.ending = (if r.recovery = none ∨ s.parts[p].missingSelf r cs ≠ [] ∨ s.parts[p].missingPair r cs ≠ [] then some (.torn 1) else none) ∧
   InPart p [.clock] s t)

/-- LOAD_PROGRAM installs an image that opens and passes its checks; UNLOAD zeroes it (R153 to R157). Model's choices: an image in DRAM that
something owns in part is refused, and so left out here (log 128). -/
def Obligations.ProgramsLoadAndUnload : Prop :=
  (∀ s ch c (len src addr : Nat) (inl : Bool) (img : List Byte), vfTakes s ch 0x0501 c → 80 ≤ len → len ≤ 2 ^ 26 → addr < 2 ^ 39 →
   addr % 4096 = 0 → (inl → ∃ ws, c.payload = 0 :: 0 :: w64 len :: w64 addr :: 0 :: ws ∧ ws.length = ceilDiv len 8 ∧
   ((wordsToBytes ws).drop len).all (· == 0) ∧ img = (wordsToBytes ws).take len) → ∀ u, u = s.dryTurn ch 0x0501 c → (inl = false →
   c.payload = [w64 (2 ^ 11), w64 src, w64 len, w64 addr, 0] ∧ src < 2 ^ 39 ∧ src % 64 = 0 ∧ src + len ≤ (s.own ch).dramSize ∧
   (s.own ch).sourceOwned none src len = false ∧ s.ranDry ch 0x0501 c ∧ img = u.dramAt (chanPart ch) src len) →
   Runs (.loadProgramLoad ch c) s fun t => (∀ h body, s.openImage (chanPart ch) img = some (h, body) →
   s.loadRefusal (chanPart ch) h body len addr = none → Answered s t ch 0x0501 c .ok (bytesToWords 6 (sha384 (h ++ body))) ∧
   (∃ x, Table.get? (t.own ch).job.resident (leAt h 8 8) = some x ∧ x.addr = addr ∧ x.length = residentSize len) ∧
   (t.own ch).dram = (u.own ch).dram.writeN addr (padTo (residentSize len) (h ++ body)) ∧ OwnFrom [] u t ch) ∧
   (s.openImage (chanPart ch) img = none → Answered s t ch 0x0501 c .authFailed [] ∧ (t.own ch).job = (s.own ch).job ∧
   (t.own ch).dram = (s.own ch).dram ∧ OwnOnly [] s t ch 0x0501)) ∧
  (∀ s ch c (id : W64) (x : Program), vfTakes s ch 0x0501 c → c.payload = [w64 (1 * 2 ^ 16), 0, 0, 0, id] →
   Table.get? (s.own ch).job.resident id.toNat = some x → (s.own ch).job.uses id = false → ∀ u, u = s.dryTurn ch 0x0501 c →
   Runs (.loadProgramUnload ch c) s fun t => Answered s t ch 0x0501 c .ok [] ∧ Table.get? (t.own ch).job.resident id.toNat = none ∧
   (∀ a, x.addr ≤ a → a < x.addr + x.length → (t.own ch).dram.read a = 0) ∧ (∀ a, a < x.addr ∨ x.addr + x.length ≤ a →
   (t.own ch).dram.read a = (u.own ch).dram.read a) ∧ OwnFrom [] u t ch)

/-- Tasks are queued, cancelled and dispatched by the rules of the cadence governor (R158 to R161, R164, R455 to R457). Model's choices: R160's
comparison of k is made when the task is chosen, and the switch takes 20 µs (logs 80 and 81). -/
def Obligations.TasksAreQueuedAndDispatched : Prop :=
  (∀ s ch c (id : W64) (argc limit : Nat) (args : List W64), vfTakes s ch 0x0502 c → argc ≤ 8 → limit < 2 ^ 32 → args.length = argc →
   c.payload = id :: w64 (argc * 2 ^ 32 + limit) :: args → Table.has (s.own ch).job.resident id.toNat → (s.own ch).job.queue.length < 64 →
   Runs (.runTask ch c) s fun t => ∃ k, Answered s t ch 0x0502 c .accepted [w64 (s.own ch).job.nextTask] ∧
   (k ∈ (t.own ch).job.queue ∨ Cassette.tenant k ∈ (t.own ch).job.cassettes) ∧ k.id = (s.own ch).job.nextTask ∧ k.program = id ∧
   k.args = args ∧ k.maxCycles = limit ∧ (t.own ch).job.nextTask = ((s.own ch).job.nextTask + 1) % 65536 ∧ OwnOnly [] s t ch 0x0502) ∧
  (∀ s ch c (id : Nat) (k : Task), vfTakes s ch 0x0504 c → id < 2 ^ 16 → c.payload = [w64 id] →
   ((s.inTurn ch 0x0504).tasks (chanPart ch)).find? (fun t => t.id == id) = some k → Runs (.cancelTask ch c) s fun t =>
   Apart (chanPart ch) s t ∧ (k.st = .queued ∨ k.st = .cassette → Answered s t ch 0x0504 c .ok [] ∧ ∃ y ∈ (t.own ch).job.known, y.id = id ∧
   y.st = .cancelled ∧ y.status = .ok) ∧ (k.st = .running → Answered s t ch 0x0504 c .ok [] ∧ (∀ r, (s.own ch).job.running = some r →
   ∃ r' x, (t.own ch).job.running = some r' ∧ r'.stop = some x ∧ (r.stop = none →
   x = ⟨(((s.inTurn ch 0x0504).taskCycle (chanPart ch)).map nextProgramFrame).getD 0, true, .ok, 0, 0, 0, 0, 0⟩)) ∧
   Only [.chans, .out, .parts] (s.inTurn ch 0x0504) t) ∧ (k.st = .ended ∨ k.st = .cancelled → Answered s t ch 0x0504 c .badState [] ∧
   OnlyChannel (s.inTurn ch 0x0504) t ch)) ∧
  (∀ (s : State) (p : Fin 16) (i f : Nat) (k : Task) (y : Program), s.mayDispatch p →
   (s.fillCassettes p 5).parts[p].choose s.clock = some (i, .tenant k, f) → Table.get? s.parts[p].job.resident k.program.toNat = some y →
   Runs (.taskDispatch p) s fun t => t.parts[p].foldK = s.parts[p].foldKNext ∧ Apart p s t ∧ (s.parts[p].foldKNext ≤ y.foldK →
   ∃ r, t.parts[p].job.running = some r ∧ r.what = .tenant k ∧ r.pstate = f ∧ r.foldK = y.foldK ∧ r.stop = none ∧ t.parts[p].acct.curP = f ∧
   r.start = t.programFrameFrom p (s.clock + switchUnits)) ∧ (y.foldK < s.parts[p].foldKNext → t.parts[p].job.running = none ∧
   ∃ e, t.parts[p].job.known.getLast? = some e ∧ e.id = k.id ∧ e.st = .ended ∧ e.status = .paramMismatch) ∧ (s.group = none →
   Only [.chans, .out, .parts, .clusters, .pannier] s t))

/-- A task ends by ctl.end, by its stop or by MAX_CYCLES (R161 to R167). Model's choices: what ends a task of no cores, or with equal a31, is
chosen (log 147), and a fault goes before a cancel of the same cycle (log 146). -/
def Obligations.TasksEnd : Prop :=
  ∀ (s : State) (p : Fin 16) (r : Running) (k : Task), s.parts[p].job.running = some r → r.what = .tenant k →
   (∀ n last, s.naturalEnd p = some (n, last) → r.stopped n = false → (∀ x ∈ r.stop, x.cancel) → Runs (.taskEnd p) s fun t =>
   ∃ y, Ends p k s t y ∧ y.st = .ended ∧ y.status = .ok ∧ y.code = (last.map Finished.code).getD 0 ∧ y.cycles = n ∧ Apart p s t ∧
   (∀ x ∈ s.parts[p].coreList, ∀ e, (s.core x.1 x.2).ended = some e → e.1 ≤ n ∧ (s.core x.1 x.2).lastMove ≤ n ∧
   ∀ m ∈ (s.core x.1 x.2).moves, m.done ≤ n)) ∧
  (∀ x, r.stop = some x → x.cancel → Runs (.taskCancelStop p) s fun t => ∃ y, Ends p k s t y ∧ y.st = .cancelled ∧ y.status = x.status ∧
   Apart p s t) ∧
  (∀ x, r.stop = some x → x.cancel = false → Runs (.taskFaultStop p) s fun t => ∃ y, Ends p k s t y ∧ y.st = .ended ∧ y.status = x.status ∧
   y.fault = x.fault ∧ y.faultCluster = x.cluster ∧ y.faultCore = x.core ∧ y.faultBundle = x.bundle ∧ y.faultAddr = x.addr ∧ Apart p s t) ∧
  (∀ n, r.limit = some n → r.stop.any (fun x => x.atCycle ≤ n) = false → (s.naturalEnd p).any (fun e => e.1 < n) = false →
   Runs (.taskCycleLimit p) s fun t => ∃ y, Ends p k s t y ∧ y.st = .ended ∧ y.status = .badState ∧ y.fault = 5 ∧ Apart p s t)

/-- A defect of a cluster site is handled as R27 and R29 say (R29, R166, R356, R491). Model's choices: a defect before a task's cycle 0 lets it
begin (log 147). -/
def Obligations.SiteDefectIsHandled : Prop :=
  ∀ (s : State) (site : Fin 36), (∀ (c : Nat) (p : Fin 16), leastBelow 32 (fun c => s.nvm.siteMap.getD c 36 == site.val) = some c →
   s.ownerOf c = some p → Runs (.siteDefectDetected site) s fun t => site.val ∈ t.nvm.pendingRetire ∧ (t.logged 0x0103) ∧
   (∀ r, s.parts[p].job.running = some r → t.stopping p) ∧ (∀ q : Fin 16, s.parts[q].st = .active →
   t.chans[vf q].eseq = (s.chans[vf q].eseq + 1) % 65536) ∧ s.clock ≤ t.clock ∧ InPart p [.clock, .nvm, .chans, .out] s t)

/-- The ctl instructions compute, branch, loop, change mode and end as their rules say (R15, R129, R130, R162). -/
def Obligations.CtlInstructionsExecute : Prop :=
  CtlDoes .ctlEnd 0 (fun _ i x => { x with ended := some (i.t, nfield i.v 7 0) }) ∧
  CtlDoes .ctlLi 1 (fun s i x => x.puts s i (w64 (nfield i.v 15 0 * 2 ^ (16 * nfield i.v 18 17)))) ∧
  CtlDoes .ctlAdd 2 (fun s i x => x.puts s i (s.regWord i 18 14 + s.regWord i 13 9)) ∧
  CtlDoes .ctlSub 3 (fun s i x => x.puts s i (s.regWord i 18 14 - s.regWord i 13 9)) ∧
  CtlDoes .ctlAddi 4 (fun s i x => x.puts s i (s.regWord i 18 14 + (BitVec.ofNat 14 (nfield i.v 13 0)).signExtend 64)) ∧
  CtlDoes .ctlShl 5 (fun s i x => x.puts s i (s.regWord i 18 14 <<< nfield i.v 5 0)) ∧
  CtlDoes .ctlSetl 6 (fun s i x =>
   let v := if nfield i.v 20 20 = 0 then nfield i.v 19 0 else (s.regWord i 19 15).toNat % 2 ^ 32;
   { x with l := setAt (i.core s).l (nfield i.v 23 21) v }) ∧
  CtlDoes .ctlLoop 7 (fun s i x =>
   let v := ((i.core s).l.getD (nfield i.v 23 21) 0 + 2 ^ 32 - 1) % 2 ^ 32;
   let y := { x with l := setAt (i.core s).l (nfield i.v 23 21) v }; if v = 0 then y else
   { y with nextPtr := (x.ptr + nfield i.v 15 0) % 8192 }) ∧
  CtlDoes .ctlIdle 8 (fun _ i x => { x with nextAt := Nat.max x.nextAt (i.t + nfield i.v 19 0) }) ∧
  CtlDoes .ctlMode 9 (fun s i x =>
   let m := nfield i.v 0 0 == 1; if (i.core s).eng.tensor = m then x else
   { x with eng := { x.eng with tensor := m, free := Nat.max x.eng.free i.t + 16 } })

/-- The move instructions queue their moves, take DRAM slots and land their data (R131, R132, R142, R288). Model's choices: a move's signal has
source kind 2 and its issue's stamp (log 66). -/
def Obligations.MovesRun : Prop :=
  (∀ (s : State) (i : Issue) (op : Nat) (e : Fin 32 → Fin 8 → Instr) (st : Bool) (sp : Space), (op, e, st, sp) ∈ [(1, Instr.mvLd, false,
   Space.core), (2, .mvSt, true, .core), (3, .mvLdsh, false, .shared), (4, .mvStsh, true, .shared)] → Issues s 1 6 op i →
   let q := s.parts[i.p];
   let n := nfield i.v 45 43 + 1;
   let rank := s.regNat i 50 46 / 4096 % q.stacks;
   let pages := movePages (s.regNat i 55 51) (s.regNat i 50 46) (nfield i.v 42 40) q.stacks n;
   let u := s.atIssue i 1;
   let slot := (i.core u).takeSlot i.r s.clusters[i.c].der.jobs (q.rankOf i.c * 8 + i.k.val) rank i.t; Runs (e i.c i.k) s fun t =>
   (∀ kind w a, s.moveFault i.p sp pages = some (kind, w, a) → Faults s t i 1 w kind a) ∧ (s.moveFault i.p sp pages = none → slot = none →
   Faults s t i 1 .badParam 7 (s.regNat i 50 46)) ∧ (∀ x, s.moveFault i.p sp pages = none → slot = some x →
   ∃ m, (i.core t).moves = (i.core u).moves ++ [m] ∧ m.store = st ∧ m.space = sp ∧ m.pages = pages ∧ m.slot = x ∧ m.issue = i.t ∧
   m.done = i.r.tickAt (x + moveLatency (q.rankOf i.c) rank) ∧ m.sig = (if nfield i.v 39 39 = 1 then some (nfield i.v 38 28) else none) ∧
   m.units = 0 ∧ m.data = [] ∧ (s.clusters[i.c].der.jobs = [] → m.held = none) ∧
   (i.core t).slotsTaken = (i.core s).slotsTaken ++ [(rank, x)] ∧ (i.core t).mvFree = i.t + (if st then 16 * n else 1) ∧ OnCore i [] s t)) ∧
  (∀ s c (k : Fin 8) p r (m : Move), RunsOn s c p r → (s.core c k).firstDone = some m → Runs (.moveComplete c k) s fun t =>
   At (r.clockOf m.done) s t ∧ (∀ n ∈ (t.core c k).moves, n.issue ≠ m.issue) ∧
   (t.core c k).lastMove = Nat.max (s.core c k).lastMove m.done ∧ (∀ n, m.sig = some n →
   ⟨⟨c.val, n⟩, 1, ⟨2, c.val, k.val, m.issue, false⟩, m.done, m.done, true⟩ ∈ t.parts[p].job.transit) ∧ (t.core c k).a = (s.core c k).a ∧
   InTask p [] s t ∧ (∀ a b, s.parts[p].coreList.contains (c, k) → (∀ x ∈ s.parts[p].coreList, x ≠ (c, k) → (s.core x.1 x.2).moves = []) →
   (∀ d : Fin 32, s.clusters[d].der.jobs = []) → (s.core c k).moves = [m] → m.pages = [(a, b)] → m.passed = false → m.held = none →
   m.space = .core → m.slot + 256 ≤ m.done → (s.core c k).pending = [] → (s.core c k).eng.mma = none → (s.core c k).eng.drain = none →
   (m.store = false → (t.core c k).loc.readN a 4096 = s.parts[p].dram.readN b 4096) ∧ (m.store → m.units = 0 → m.data = [] →
   t.parts[p].dram.readN b 4096 = (s.core c k).loc.readN a 4096))) ∧
  (∀ (s : State) (i : Issue) (op : Nat) (e : Fin 32 → Fin 8 → Instr) (src dst : Space), (op, e, src, dst) ∈ [(8, Instr.mvLsh, Space.shared,
   Space.core), (9, .mvSsh, .core, .shared)] → Issues s 1 6 op i →
   let n := 64 * nfield i.v 45 33;
   let u := s.atIssue i 1;
   let done := i.t + ceilDiv (nfield i.v 45 33) 4 + 12;
   let bad := (badOperand dst 64 (s.regNat i 55 51) n).or (badOperand src 64 (s.regNat i 50 46) n); Runs (e i.c i.k) s fun t =>
   (∀ kind a, bad = some (kind, a) → Faults s t i 1 .badParam kind a) ∧ (bad = none →
   Writes u t i ⟨done, 1, dst, s.regNat i 55 51, (u.readStore i src (s.regNat i 50 46) n).1⟩ ∧ (nfield i.v 27 27 = 1 →
   ⟨⟨i.c.val, nfield i.v 26 16⟩, 1, ⟨2, i.c.val, i.k.val, i.t, false⟩, done, done, false⟩ ∈ t.parts[i.p].job.transit) ∧
   (i.core t).mvFree = i.t + ceilDiv (nfield i.v 45 33) 4 ∧ (i.core t).moves.length = (i.core s).moves.length ∧ OnCore i [] s t))

/-- The ring instructions over vectors write their result modulo q and hold the engine for their occupancy (R134, R174 to R179). -/
def Obligations.RingVectorsAreComputed : Prop :=
  let lat (n : Nat) (i : Issue) : Nat := 2 ^ i.logN / 128 + n; let occ (i : Issue) : Nat := 2 ^ i.logN / 128;
  RingDoes .ringNtt 1 Issue.nttCycles Issue.nttCycles rangesDA State.clearDA (fun u i q psi l =>
   nttFwd q (psiFor q psi l i.logN) i.logN ((u.vecOf i 48 44).map (· % q))) ∧
  RingDoes .ringIntt 2 Issue.nttCycles Issue.nttCycles rangesDA State.clearDA (fun u i q psi l =>
   nttInv q (psiFor q psi l i.logN) i.logN ((u.vecOf i 48 44).map (· % q))) ∧
  RingDoes .ringAdd 3 occ (lat 8) rangesDAB State.clearDAB (fun u i q _ _ => zip2 (fun x y =>
   (x + y) % q) (u.vecOf i 48 44) (u.vecOf i 43 39)) ∧
  RingDoes .ringSub 4 occ (lat 8) rangesDAB State.clearDAB (fun u i q _ _ => zip2 (subWord q) (u.vecOf i 48 44) (u.vecOf i 43 39)) ∧
  RingDoes .ringMul 5 occ (lat 12) rangesDAB State.clearDAB (fun u i q _ _ => zip2 (fun x y =>
   x * y % q) (u.vecOf i 48 44) (u.vecOf i 43 39)) ∧
  RingDoes .ringMac 6 occ (lat 12) rangesDAB State.clearDAB (fun u i q _ _ => zip2 (fun d y =>
   (d + y) % q) (u.vecOf i 53 49) (zip2 (fun x y => x * y) (u.vecOf i 48 44) (u.vecOf i 43 39))) ∧
  RingDoes .ringMulc 7 occ (lat 12) rangesDAs (fun s i => s.clearDA i && (s.regNat i 53 49 == s.regNat i 43 39 || !meetBytes (s.regNat i 53
   49) i.vec (s.regNat i 43 39) 8)) (fun u i q _ _ => (u.vecOf i 48 44).map (fun x =>
   x * leNat ((i.core u).loc.readN (u.regNat i 43 39) 8) % q)) ∧
  RingDoes .ringBce 8 occ (lat 12) rangesDA State.clearDA (fun u i q _ _ => zip2 (bceWord q) (u.vecOf i 53 49) (u.vecOf i 48 44)) ∧
  RingDoes .ringAuto 9 occ (lat 40) rangesDA (fun s i => !meetBytes (s.regNat i 53 49) i.vec (s.regNat i 48 44) i.vec) (fun u i q _ _ =>
   permuted i.logN (autoPos i.logN (nfield i.v 29 13)) ((u.vecOf i 48 44).map (· % q)))

/-- ring.ldb loads basis slots from entries, and ring.kchk compares 32 bytes (R171, R172, R176). -/
def Obligations.RingEntriesAreLoadedAndCompared : Prop :=
  (∀ s i, Issues s 2 1 10 i → (i.core s).eng.tensor = false → badOperands (rangesLdb i s) = none →
   let n := nfield i.v 29 23; Runs (.ringLdb i.c i.k) s fun t => ∃ b, (s.noJob i .core (s.regNat i 48 44) (64 * n) →
   b = (i.core (s.atIssue i 2)).loc.readN (s.regNat i 48 44) (64 * n)) ∧ (∀ j, j < n →
   Table.get? (i.core t).eng.slots (nfield i.v 38 32 + j) = some (entrySlot (bytesToWords 8 (b.drop (64 * j))))) ∧
   (∀ j, j < nfield i.v 38 32 ∨ nfield i.v 38 32 + n ≤ j → Table.get? (i.core t).eng.slots j = Table.get? (i.core s).eng.slots j) ∧
   Writes (s.atIssue i 2) t i ⟨i.t + 24 * n, 2, .core, s.regNat i 53 49, natsBytes ((List.range n).map (fun j =>
   if entrySlot (bytesToWords 8 (b.drop (64 * j))) = .rejected then 0 else 1))⟩ ∧ (i.core t).eng.free = i.t + 24 * n ∧ InTask i.p [] s t) ∧
  (∀ s i, Issues s 2 1 11 i → (i.core s).eng.tensor = false → badOperands (rangesKchk i s) = none → Runs (.ringKchk i.c i.k) s fun t =>
   ∃ n, Writes (s.atIssue i 2) t i ⟨i.t + 8, 2, .core, s.regNat i 53 49, leBytes 8 n⟩ ∧ ((∀ r ∈ rangesKchk i s, s.noJob i .core r.1 r.2) →
   n = b2n ((i.core (s.atIssue i 2)).loc.readN (s.regNat i 48 44) 32 == (i.core (s.atIssue i 2)).loc.readN (s.regNat i 43 39) 32)) ∧
   (i.core t).eng.free = i.t + 8 ∧ InTask i.p [] s t)

/-- The tn instructions configure, load, multiply, drain and clear the tensor engine (R135, R224, R243, R246, R247, R250 to R256). -/
def Obligations.TensorInstructionsExecute : Prop :=
  (∀ s i, Issues s 2 2 1 i → (i.core s).eng.tensor → badOperands [(s.regNat i 53 49, 64), (s.regNat i 43 39, 8)] = none →
   Runs (.tnCfg i.c i.k) s fun t => ∃ b, (s.noJob i .core (s.regNat i 53 49) 64 →
   b = (i.core (s.atIssue i 2)).loc.readN (s.regNat i 53 49) 64) ∧ (i.core t).eng.block = some (bytesToWords 8 b) ∧
   (i.core t).eng.stream = s.regNat i 48 44 % 2 ^ 32 ∧ (i.core t).eng.p = 0 ∧ (i.core t).eng.dcount = 0 ∧ (i.core t).eng.free = i.t + 16 ∧
   Writes (s.atIssue i 2) t i ⟨i.t + 16, 2, .core, s.regNat i 43 39, leBytes 8 (b2n (parseCfg (bytesToWords 8 b)).isSome)⟩ ∧
   InTask i.p [] s t) ∧
  (∀ (s : State) (i : Issue) (op : Nat) (e : Fin 32 → Fin 8 → Instr) (comp : Bool), (op, e, comp) ∈ [(2, Instr.tnMma, false), (3, .tnMmac,
   true)] → Issues s 2 2 op i → (i.core s).eng.tensor → badOperands (rangesMma i s) = none →
   let u := (s.atIssue i 2).core i.c i.k; Runs (e i.c i.k) s fun t => (i.core t).eng.free = i.t + (if comp then 2 else 1) * i.rep ∧
   (i.core t).eng.mmaEnd = i.t + (if comp then 2 else 1) * i.rep + (if comp then 13 else 11) ∧ (∀ g, u.eng.cfg = some g →
   (i.core t).eng.p = (u.eng.p + i.rep * g.advance comp) % 16 ∧ (i.core t).eng.stepKind = some comp ∧ (1 ≤ i.rep →
   (g.isInt ∨ g.groupLog2 = 0 ∨ u.eng.stepKind ≠ some !comp) → u.eng.mixed = false → s.clusters[i.c].der.jobs = [] →
   (⟨comp, i.t, if comp then 2 else 1, s.regNat i 53 49, s.regNat i 48 44, u.eng.p, i.rep, 0, g, none, none⟩ : MmaRun).step u.loc ∈ (i.core
   t).eng.tree) ∧ (g.isInt = false → 1 ≤ g.groupLog2 → u.eng.stepKind = some !comp → u.eng.drain = none → (i.core t).eng.mixed)) ∧
   OnCore i [] s t) ∧
  (∀ s i, Issues s 2 2 4 i → (i.core s).eng.tensor → badOperands [(s.regNat i 53 49, s.preBytes i)] = none →
   let u := (s.atIssue i 2).core i.c i.k; Runs (.tnPre i.c i.k) s fun t => (i.core t).eng.free = i.t + 32 ∧ (∀ g, u.eng.cfg = some g →
   s.noJob i .core (s.regNat i 53 49) (s.preBytes i) → (i.core t).eng = ({ u.eng with free := i.t + 32 } : Engine).preload g u.loc (s.regNat
   i 53 49) i.rep) ∧ InTask i.p [] s t) ∧
  (∀ s i, Issues s 2 2 5 i → (i.core s).eng.tensor → Runs (.tnZero i.c i.k) s fun t => (∀ j, (i.core t).eng.reg j = 0) ∧
   (i.core t).eng.p = 0 ∧ (i.core t).eng.free = i.t + 1 ∧ (i.core t).eng.tree = (i.core (s.atIssue i 2)).eng.tree ∧ InTask i.p [] s t) ∧
  (∀ s i, Issues s 2 2 6 i → (i.core s).eng.tensor → badOperands (rangesDrain i s) = none →
   let u := (s.atIssue i 2).core i.c i.k; Runs (.tnDrain i.c i.k) s fun t => (i.core t).eng.free = Nat.max i.t u.eng.mmaEnd + 64 ∧
   (∀ g, u.eng.cfg = some g → s.clusters[i.c].der.jobs = [] →
   let d : DrainRun := ⟨Nat.max i.t u.eng.mmaEnd, s.regNat i 53 49, s.regNat i 48 44, s.regNat i 43 39, g, none⟩; (i.t < u.eng.mmaEnd →
   (i.core t).eng.drain = some d) ∧ (u.eng.mmaEnd ≤ i.t → u.eng.mma = none → u.eng.drain = none →
   (i.core t).eng.dcount = (u.eng.dcount + 1) % 2 ^ 32 ∧ (g.drainClear → ∀ j, (i.core t).eng.reg j = 0) ∧
   ∀ w ∈ (Engine.runDrain { u.eng with free := i.t + 64 } d u.loc).2, w ∈ (i.core t).pending)) ∧ InTask i.p [] s t)

/-- fold.add, fold.sub, ks.key and ks.gen write what their rules give (R77, R98, R136, R137). Model's choices: a ks.gen with no ks.key before it
faults MODE too (log 126). -/
def Obligations.FoldAndKeystreamExecute : Prop :=
  (∀ (s : State) (i : Issue) (op : Nat) (e : Fin 32 → Fin 8 → Instr) (neg : Bool), (op, e, neg) ∈ [(1, Instr.foldAdd, false), (2, .foldSub,
   true)] → Issues s 3 3 op i →
   let sp : Space := if nfield i.v 22 22 = 1 then .shared else .core;
   let n := 512 * nfield i.v 40 28;
   let w := arithWidth (nfield i.v 43 41);
   let m := if nfield i.v 43 41 = 3 then s.regNat i 27 23 % 2 ^ 61 else 2 ^ (8 * w);
   let u := s.atIssue i 3;
   let bad := (badOperand sp 64 (s.regNat i 53 49) n).or (badOperand .core 64 (s.regNat i 48 44) n); Runs (e i.c i.k) s fun t =>
   (∀ kind a, bad = some (kind, a) → Faults s t i 3 .badParam kind a) ∧ (bad = none →
   ∃ b, Writes u t i ⟨i.t + nfield i.v 40 28 + 6, 3, sp, s.regNat i 53 49, b⟩ ∧ (0 < m → s.noJob i sp (s.regNat i 53 49) n →
   s.noJob i .core (s.regNat i 48 44) n → b = foldRange w m neg ((if sp = .core then (i.core u).loc else u.clusters[i.c].shared).readN
   (s.regNat i 53 49) n) ((i.core u).loc.readN (s.regNat i 48 44) n)) ∧ (i.core t).foldFree = i.t + nfield i.v 40 28 ∧ InTask i.p [] s t)) ∧
  (∀ s i, Issues s 3 4 1 i → badOperand .core 64 (s.regNat i 53 49) 32 = none → Runs (.ksKey i.c i.k) s fun t =>
   (i.core t).ksPrg = some (nfield i.v 43 42) ∧ (s.noJob i .core (s.regNat i 53 49) 32 →
   (i.core t).ksKey = (i.core (s.atIssue i 3)).loc.readN (s.regNat i 53 49) 32) ∧ (i.core t).ksFree = i.t + 32 ∧ OnCore i [] s t) ∧
  (∀ s i, Issues s 3 4 2 i →
   let prg := nfield i.v 43 42;
   let n := nfield i.v 41 28;
   let occ := if prg = 2 then 2 * n else n; Runs (.ksGen i.c i.k) s fun t => ((i.core s).ksPrg ≠ some prg → Faults s t i 3 .badParam 4 0) ∧
   ((i.core s).ksPrg = some prg → badOperand .core 64 (s.regNat i 53 49) (64 * n) = none → s.regNat i 48 44 % 64 = 0 →
   Writes (s.atIssue i 3) t i ⟨i.t + occ + 20, 3, .core, s.regNat i 53 49, keystream prg (i.core s).ksKey (s.regNat i 48 44 / 64) n⟩ ∧
   (i.core t).ksFree = i.t + occ ∧ InTask i.p [] s t))

/-- The derailleur takes a job at its first frame, ends it by the rows of R227 and writes what they allow (R138, R224 to R229, R236, R239).
Model's choices: what rows 1 and 2 leave of a buffer, and the corners of the rows, are readings (log 73); the order of a BLIND's draws, the
residues that a LOOKUP adds and the noise are the model's free values or choices (logs 8 and 74). -/
def Obligations.DerailleurJobsRun : Prop :=
  (∀ s i, Issues s 3 5 1 i →
   let a := s.regNat i 53 49;
   let u := s.atIssue i 3; Runs (.drJob i.c i.k) s fun t => (∀ kind x, badOperand .shared 64 a 128 = some (kind, x) →
   Faults s t i 3 .badParam kind x) ∧ (badOperand .shared 64 a 128 = none → ∃ j l, t.clusters[i.c].der.jobs = l ++ [j] ∧
   l.length = s.clusters[i.c].der.jobs.length ∧ j.core = i.k.val ∧ j.load = none ∧ j.spoiled = false ∧ j.addr = a ∧ j.issued = i.t ∧
   j.sig = (if nfield i.v 39 39 = 1 then some (nfield i.v 38 28) else none) ∧ j.begins % frameCycles = 0 ∧ i.t + 4 ≤ j.begins ∧
   (∀ x ∈ s.clusters[i.c].der.jobs, x.ends ≤ j.begins) ∧ (∀ b, b % frameCycles = 0 → i.t + 4 ≤ b →
   (∀ x ∈ s.clusters[i.c].der.jobs, x.ends ≤ b) → j.begins ≤ b) ∧ (s.noJob i .shared a 128 →
   j.desc = bytesToWords 16 (u.clusters[i.c].shared.readN a 128)) ∧ (0 < i.r.clusterSlots (s.parts[i.p].rankOf i.c) →
   j.ends = j.begins + Desc.frames j.desc (32768 * i.r.clusterSlots (s.parts[i.p].rankOf i.c)) * frameCycles) ∧
   (i.core t).drFree = i.t + 4 ∧ OnCore i [] s t)) ∧
  (∀ s c p r (j : DrJob) (rest : List DrJob), RunsOn s c p r → s.clusters[c].der.jobs = j :: rest → r.stopped j.ends = false →
   let u := s.jobEndState p r c j;
   let j' := u.clusters[c].der.jobs.headD j;
   let d : Desc := j.desc;
   let v := u.jobOutcome p c j';
   let m := u.parts[p].dram;
   let pset := j'.loaded.pset;
   let fp := (pset.drop 8).take 8;
   let top := d.ctPrimes - 1;
   let level := if d.kind = 0 then 0 else top;
   let len := if d.kind = 1 then 80 + d.bodyLength d.level else objBytes d.n level;
   let k := u.clusters[c].der.ticket d.ticket;
   let done (t : State) (v : JobVerdict) : Prop := At (r.clockOf j.ends) s t ∧ t.clusters[c].der.jobs = rest ∧
       t.clusters[c].shared = u.clusters[c].shared.writeN (j.addr + 120) (leBytes 8 (outcomeWord d.kind v.st v.bad v.poisonOut v.poisonIn
       v.written).toNat) ∧ (∀ k : Fin 8, (t.core c k).eng.tensor = false ∧ (t.core c k).a = (s.core c k).a ∧
       (t.core c k).loc = (u.core c k).loc) ∧ (∀ a, a < d.addr 3 ∨ d.addr 3 + len ≤ a ∨ 3 ≤ d.kind → t.parts[p].dram.read a = m.read a) ∧
       InTask p [.out] s t;
   let object (t : State) : Prop := (v.poisonOut → t.parts[p].dram = (m.writeN (d.addr 3 + 4096) (zeros (16 * d.n * (level + 1)))).writeN
       (d.addr 3 + 37) [1]) ∧ (v.written = false → (∀ x ∈ vecsOf level, ∀ w ∈ u.objVec p (d.addr 3) d.n x.1 x.2, w < psetQ pset x.1) →
       ∀ a, t.parts[p].dram.read a = m.read a); (3 ≤ d.kind → Runs (.drJobLookup c) s fun t => done t (.refuse .badParam 0 false)) ∧
   (d.kind = 0 → Runs (.drJobLookup c) s fun t => done t v ∧ object t ∧ (v.written → v.poisonOut = false → j'.spoiled = false →
   t.parts[p].dram = (m.writeN (vecAddr (d.addr 3) d.n 0 0) (natsBytes (u.lookupVec p j' 0))).writeN (vecAddr (d.addr 3) d.n 0 1) (natsBytes
   (u.lookupVec p j' 1)) ∧ (∀ x, (u.lookupError p j' x).natAbs ≤ Config.noiseSize (psetFp pset)) ∧ (u.lookupKeysFit p d pset j'.loaded.br →
   0 < psetQ pset 0 →
   let tr (x : List Nat) := nttFwd (psetQ pset 0) (psetPsi pset 0 d.logN) d.logN x;
   let sec := tr ((List.range d.n).map (fun i => modQ (psetQ pset 0) (Config.secretCoeff (psetFp pset) i))); ∀ i, i < d.n →
   ((u.lookupVec p j' 0).getD i 0 + (u.lookupVec p j' 1).getD i 0 * sec.getD i 0) % psetQ pset 0 = ((u.objVec p (d.addr 3) d.n 0 0).getD i 0
   + (u.objVec p (d.addr 3) d.n 0 1).getD i 0 * sec.getD i 0 + (tr (u.lookupGain p j')).getD i 0) % psetQ pset 0))) ∧ (d.kind = 1 →
   Runs (.drJobBlind c) s fun t => done t v ∧ (v.written = false → t.parts[p].dram = (if u.bufferFree p d (d.addr 3) len 64 then m.writeN
   (d.addr 3) (zeros len) else m) ∧ t.clusters[c].der.tickets = u.clusters[c].der.tickets) ∧ (v.written → (j'.spoiled = false →
   ∀ h e, h = refreshHeader p c 0 d.ticket ((k.epoch + 1) % 2 ^ 32) fp d.level (u.blinded p c j').length →
   e = gcmSeal (u.jobKey p c fp) (refreshNonce p c 0 d.ticket ((k.epoch + 1) % 2 ^ 32)) h (u.blinded p c j') →
   t.parts[p].dram = m.writeN (d.addr 3) (h ++ e.1 ++ e.2)) ∧ (∀ q, s.qp? p (bits (word d 11) 31 16) = some q → q.st ≠ .error →
   (t.qp? p (bits (word d 11) 31 16)).map (fun x => x.egress.length) = some (q.egress.length + 1) ∧
   t.clusters[c].der.ticket d.ticket = ⟨.sending, (u.clusters[c].drbg.draw (32 + noiseBytes d.n)).1.take 32 ++ [byte d.maskBits], (k.epoch +
   1) % 2 ^ 32, t.clock + bits (word d 13) 31 0 * ms, w64 (leNat fp), d.logN, d.ctPrimes⟩) ∧
   ((∀ q, s.qp? p (bits (word d 11) 31 16) = some q → q.st = .error) → (t.clusters[c].der.ticket d.ticket).st = .free ∧
   (t.clusters[c].der.ticket d.ticket).seed = [] ∧ Posts p s t))) ∧ (d.kind = 2 → Runs (.drJobUnblind c) s fun t => done t v ∧ object t ∧
   (v.written = false → t.clusters[c].der.tickets = u.clusters[c].der.tickets) ∧ (v.written →
   (t.clusters[c].der.ticket d.ticket).st = .free ∧ (t.clusters[c].der.ticket d.ticket).seed = []) ∧ (v.written → v.poisonOut = false →
   j'.spoiled = false → (u.returned p c j').length = d.bodyLength top →
   t.parts[p].dram.readN (d.addr 3 + 37) 1 = ((u.returned p c j').drop 37).take 1 ∧
   ∀ x ∈ vecsOf top, t.parts[p].dram.readN (vecAddr (d.addr 3) d.n x.1 x.2) (8 * d.n) = natsBytes (unblindedVec d pset (u.returned p c j')
   k.seed x.1 x.2))))

/-- Refresh tickets become WAITING or expire (R237, R240). -/
def Obligations.RefreshTicketsEnd : Prop :=
  (∀ (s : State) (p : Fin 16) (i c tk epoch ctr task : Nat) (q : Qp) (d : Send), s.qp? p i = some q → q.sending = some d →
   d.kind = .refresh c tk epoch ctr task → d.acked = d.length → d.unacked = [] → c < 32 → Runs (.refreshFlushComplete p i) s fun t =>
   ∃ q', t.qp? p i = some q' ∧ q'.sending = none ∧ q'.egress = q.egress ∧ ((s.clusters[Fin.ofNat 32 c].der.ticket tk).st = .sending →
   (s.clusters[Fin.ofNat 32 c].der.ticket tk).epoch = epoch → (t.clusters[Fin.ofNat 32 c].der.ticket tk).st = .waiting) ∧
   (s.parts[p].holds ⟨c, ctr⟩ ∨ s.parts[p].job.running.any (fun r => r.taskId == task) →
   t.parts[p].onItsWay ⟨c, ctr⟩ = s.parts[p].onItsWay ⟨c, ctr⟩ + 1) ∧ OnlyQp p i s t ∧ InPart p [.chans, .clusters] s t) ∧
  (∀ (s : State) (c : Fin 32) (p : Fin 16) (tk : Fin 128), s.ownerOf c.val = some p → (s.clusters[c].der.ticket tk.val).st ≠ .free →
   let k := s.clusters[c].der.ticket tk.val; Runs (.refreshTicketExpiry c tk) s fun t => At k.deadline s t ∧
   t.clusters[c].der.ticket tk.val = { k with st := .free, seed := [] } ∧ (∀ x, x ≠ tk.val →
   t.clusters[c].der.ticket x = s.clusters[c].der.ticket x) ∧ t.chans = ((s.advance k.deadline).postPart p 0x0521 .ok [ticketWord c tk.val
   k]).chans ∧ t.parts = s.parts ∧ Only [.clock, .chans, .clusters, .out] s t)

/-- Counter signals become visible in time and waits end when their view reaches the value (R139, R267, R269 to R272, R274). Model's choices:
the commands of different cores come in the order the sender gives, each at its own task cycle (log 60); time in an external wait counts
from the wait's cycle to its release (log 77). -/
def Obligations.CountersSignalAndWait : Prop :=
  (∀ s i, Issues s 4 8 1 i → Runs (.synAddi i.c i.k) s fun t => ⟨⟨i.c.val, nfield i.v 23 13⟩, nfield i.v 12 0 + 1, ⟨1, i.c.val, i.k.val,
   i.t, false⟩, i.t + 3, i.t + 12, false⟩ ∈ t.parts[i.p].job.transit ∧ OnCore i [] s t) ∧
  (∀ s i, Issues s 4 8 2 i →
   let n := s.regNat i 7 3;
   let d := s.parts[i.p].ofRank (nfield i.v 23 19);
   let far := i.r.tickAt (i.t + 96); Runs (.synAdd i.c i.k) s fun t => (1 ≤ n ∧ n ≤ 65536 →
   ⟨⟨d.val, nfield i.v 18 8⟩, n, ⟨1, i.c.val, i.k.val, i.t, false⟩, if d = i.c then i.t + 3 else far, if d = i.c then i.t + 12 else far,
   false⟩ ∈ t.parts[i.p].job.transit) ∧ (n = 0 ∨ 65536 < n → (i.core t).wait = some .halted ∧ ∃ r x, t.parts[i.p].job.running = some r ∧
   r.stop = some x ∧ x.atCycle ≤ i.r.tickAfter i.t) ∧ OnCore i [] s t) ∧
  (∀ s i, Issues s 4 8 3 i →
   let ctr : CtrRef := ⟨(s.parts[i.p].ofRank (nfield i.v 23 19)).val, nfield i.v 18 8⟩;
   let n := s.regNat i 7 3;
   let u := (s.atIssue i 4).meter i.p 8 i.t 1; Runs (.synWait i.c i.k) s fun t => (n ≤ u.viewAt i.p i.r ctr i.c i.k i.t →
   (i.core t).wait = none ∧ ((s.coreNow i.c i.k).done = 0 → (if (i.core t).done = 0 then (i.core t).issueAt else (i.core t).nextAt) = i.t +
   4)) ∧ (u.viewAt i.p i.r ctr i.c i.k i.t < n → (i.core t).wait = some (.counter ctr n i.t i.t)) ∧ OnCore i [] s t) ∧
  (∀ s i, Issues s 4 8 4 i → Runs (.synFence i.c i.k) s fun t => ((s.coreNow i.c i.k).done = 0 →
   (if (i.core t).done = 0 then (i.core t).issueAt else (i.core t).nextAt) = Nat.max (i.t + 1) (i.core (s.atIssue i 4)).fence) ∧
   OnCore i [] s t) ∧
  (∀ s c (k : Fin 8) p r (ctr : CtrRef) (n since judged x : Nat) (ext : Bool), RunsOn s c p r →
   (s.core c k).wait = some (.counter ctr n since judged) → s.releaseAt p r ctr c k n judged = some (x, ext) → r.stopped x = false →
   Runs (.waitRelease c k) s fun t => At (r.clockOf x) s t ∧ (t.core c k).wait = none ∧
   (if (s.core c k).done = 0 then (t.core c k).issueAt = Nat.max (s.core c k).issueAt (x + 4) ∧
   (t.core c k).nextAt = (s.core c k).nextAt else (t.core c k).nextAt = Nat.max (s.core c k).nextAt (x + 4) ∧
   (t.core c k).issueAt = (s.core c k).issueAt) ∧ (t.core c k).external = (s.core c k).external + (if ext then x - since else 0) ∧
   (t.core c k).a = (s.core c k).a ∧ InTask p [] s t)

/-- A barrier completes 40 cycles after its last entry and every participant goes on there (R279, R280). -/
def Obligations.BarriersCompleteOnTheDie : Prop :=
  (∀ s i, Issues s 4 8 5 i →
   let x := Nat.max (Nat.max i.t (i.core s).fence) ((s.atIssue i 4).signalsSeen i); Runs (.synBar i.c i.k) s fun t =>
   (i.core t).wait = some (.barrier i.t) ∧ Table.get? t.parts[i.p].job.bar.entered (i.c.val * 8 + i.k.val) = some x ∧
   t.parts[i.p].job.bar.gen = s.parts[i.p].job.bar.gen ∧ OnCore i [] s t) ∧
  (∀ (s : State) (p : Fin 16) (r : Running) (x : Nat), s.parts[p].job.running = some r → s.lastEntry p = some x → s.bindsOf p = [] →
   r.stopped (x + 40) = false → Runs (.barrierComplete p) s fun t => At (r.clockOf (x + 40)) s t ∧
   t.parts[p].job.bar = ⟨!s.parts[p].job.bar.gen, []⟩ ∧ (Count.pos .barRounds < s.chans[vf p].counts.length →
   t.chans[vf p].counts.getD (Count.pos .barRounds) 0 = Nat.min (s.chans[vf p].counts.getD (Count.pos .barRounds) 0 + 1) (2 ^ 64 - 1)) ∧
   (∀ x : CtrRef, x.cluster < 32 → s.parts[p].clusterList.contains x.cluster → s.parts[p].holds x = false → (t.counter x).view = 0) ∧
   (∀ y ∈ s.participants p, ∀ since, (s.core y.1 y.2).wait = some (.barrier since) → (t.core y.1 y.2).wait = none ∧
   (if (s.core y.1 y.2).done = 0 then (t.core y.1 y.2).issueAt = Nat.max (s.core y.1 y.2).issueAt (x + 40) else (t.core y.1 y.2).nextAt =
   Nat.max (s.core y.1 y.2).nextAt (x + 40)) ∧ (t.core y.1 y.2).a = (s.core y.1 y.2).a) ∧ InTask p [] s t)

/-- SYNC_INSPECT reads counters, and host writes through the mirror act as signals of kind 8 (R283, R287 to R291). -/
def Obligations.CountersAreInspectedAndMirrored : Prop :=
  (∀ s ch c (cl idx n : Nat), vfTakes s ch 0x0A01 c → n ≤ 2048 → (s.own ch).clusterList.contains cl → cl < 32 → idx + n ≤ 2048 →
   idx < 2048 →
   let u := (s.inTurn ch 0x0A01).toTick (chanPart ch); (c.payload = [w64 (cl * 2 ^ 11 + idx)] → Runs (.syncInspectRead ch c) s fun t =>
   Answered s t ch 0x0A01 c .ok (u.inspectLayout (chanPart ch) ⟨cl, idx⟩) ∧ t.clock = u.clock ∧ OwnOnly [.clock, .clusters] s t ch 0x0A01) ∧
   (c.payload = [w64 (n * 2 ^ 32 + 1 * 2 ^ 16 + cl * 2 ^ 11 + idx)] → 1 ≤ n → Runs (.syncInspectScan ch c) s fun t =>
   Answered s t ch 0x0A01 c .ok ((List.range n).map (fun i => w64 (u.counter ⟨cl, idx + i⟩).value)) ∧ t.clock = u.clock ∧
   OwnOnly [.clock, .clusters] s t ch 0x0A01)) ∧
  (∀ s ch c (on : Bool), vfTakes s ch 0x0A01 c → c.payload = [w64 ((if on then 2 else 3) * 2 ^ 16)] →
   Runs (if on then .syncInspectMirrorOn ch c else .syncInspectMirrorOff ch c) s fun t => Answered s t ch 0x0A01 c .ok [] ∧
   (t.own ch).mirrorOn = on ∧ OwnOnly [] s t ch 0x0A01) ∧
  (∀ (s : State) (w : W64), s.reachable 0 →
   let c := bits w 47 43;
   let n := bits w 16 0;
   let ctr : CtrRef := ⟨c, bits w 42 32⟩; (∀ p, s.ownerOf c = some p → s.parts[p].mirrorOn → 1 ≤ n → n ≤ 65536 →
   Runs (.mirrorSignal w) s fun t => t.parts[p].onItsWay ctr = s.parts[p].onItsWay ctr + n ∧ (∀ r x, s.parts[p].job.running = some r →
   s.taskCycle p = some x → ⟨ctr, n, ⟨8, 0, 0, r.tickAfter x, false⟩, r.tickAfter x, r.tickAfter x, false⟩ ∈ t.parts[p].job.transit) ∧
   (s.parts[p].job.running = none → ⟨s.strayTick p, ctr, n, ⟨8, 0, 0, 0, true⟩⟩ ∈ t.parts[p].job.stray) ∧ InPart p [] s t) ∧
   (n = 0 ∨ 65536 < n ∨ s.ownerOf c = none ∨ (∀ p, s.ownerOf c = some p → s.parts[p].mirrorOn = false) →
   exec (.mirrorSignal w) s = .next (s.count 0 .mirrorBlocked 1)))

/-- A received frame is discarded, counted, answered or joined to its queue pair's message (R360, R363, R364, R366, R368, R377). Model's
choices: the AETH syndromes 0x1F and 0x60 are the InfiniBand specification's (PRESUMED, log 38). -/
def Obligations.FramesReachTheirQueuePair : Prop :=
  ∀ (s : State) (l : Fin 24) (f : Frame), let k := s.links[l];
   let hdr (p : Fin 16) (i : Nat) (q : Qp) : RoceHdr := ⟨k.nextHop, k.mac, if k.tagged then some (q.prio, k.vid) else none, q.ipv6, if
       q.ipv6 then k.ipv6 else k.ipv4, if q.ipv6 then q.peer0.toNat * 2 ^ 64 + q.peer1.toNat else q.peer0.toNat % 2 ^ 32, k.dscpData, 0,
       (Config.udpPort (qpnOf p i)).toNat⟩;
  k.st = .up → (k.mode = 1 ∨ k.mode = 2) → (f.fcsOk = false ∨ 9216 < f.len → Runs (.frameReceived l f) s fun t =>
   t.links[l].rxFrames = k.rxFrames + 1 ∧ t.links[l].rxDiscards = k.rxDiscards + 1 ∧ t.links[l].st = .up ∧ OnlyLink l s t ∧
   Only [.links] s t) ∧
  (∀ (v6 : Bool) (addr i : Nat) (r : Roce) (p : Fin 16) (q : Qp), f.fcsOk → f.len ≤ 9216 → f.body = .udp v6 addr true 4791 false r →
   s.macsecOk l f → k.addressed f → k.owns v6 addr → ofQpn r.destQpn = some (p, i) → s.qp? p i = some q → q.link = l.val →
   (q.st = .rtr ∨ q.st = .rts) → s.parts[p].net.cache.contains i → Runs (.frameReceived l f) s fun t =>
   ∃ q', t.links[l].rxFrames = k.rxFrames + 1 ∧ t.links[l].rxDiscards = k.rxDiscards ∧ t.qp? p i = some q' ∧ OnlyQp p i s t ∧
   OnlyPart p s t ∧ (r.icrcOk = false → q' = q ∧ t.parts = s.parts) ∧ (r.icrcOk → r.psn = q.ePsn →
   (r.op = .writeFirst ∨ r.op = .writeOnly ∨ r.op = .writeOnlyImm) → q.msg = none → s.parts[p].net.isWindow (rkeyIndex r.rkey) = false →
   regionAllows s.parts[p].net i ⟨r.rkey, r.va, r.len, 0, false, false⟩ true →
   sizeOk (mtuBytes q.mtu) ⟨r.rkey, r.va, r.len, 0, false, false⟩ r → s.parts[p].queueLevel < 1024 → q'.ePsn = (q.ePsn + 1) % 2 ^ 24 ∧
   q'.seqNak = false ∧ q'.st = q.st ∧ q'.msg = (if endsMsg r.op then none else some ⟨r.rkey, r.va, r.len, r.payload.length, false, false⟩) ∧
   t.parts[p].rnd.foldQ = s.parts[p].rnd.foldQ ++ [.place s.parts[p].rnd.nextPlace (rkeyIndex r.rkey) r.va r.payload (hasImm r.op) i
   (endsMsg r.op)] ∧ (endsMsg r.op → s.parts[p].queueLevel + 1 < 768 → k.macsec = false → k.paused.any (fun e => e.1 == q.prio) = false →
   t.out = .answer l.val (hdr p i q) q.destQpn (r.psn % 2 ^ 24) (some 0x1F) :: s.out)) ∧ (r.icrcOk → writeOp r.op → r.psn ≠ q.ePsn →
   psnBefore r.psn q.ePsn → q' = q ∧ t.chans = ((s.count (vf p) .netRxPackets 1).count (vf p) .netDupPsn 1).chans ∧ (k.macsec = false →
   k.paused.any (fun e => e.1 == q.prio) = false → t.out = .answer l.val (hdr p i q) q.destQpn ((q.ePsn + 2 ^ 24 - 1) % 2 ^ 24) (some 0x1F)
   :: s.out)) ∧ (r.icrcOk → writeOp r.op → r.psn ≠ q.ePsn → psnBefore r.psn q.ePsn = false → q' = { q with seqNak := true } ∧
   (q.seqNak = false → t.chans = ((s.count (vf p) .netRxPackets 1).count (vf p) .netSeqNak 1).chans ∧ (k.macsec = false →
   k.paused.any (fun e => e.1 == q.prio) = false → t.out = .answer l.val (hdr p i q) q.destQpn (q.ePsn % 2 ^ 24) (some 0x60) :: s.out)) ∧
   (q.seqNak → t.out = s.out)))

/-- A context fetch ends in the cache, and a send starts once its checks pass (R373, R382 to R384). Model's choices: a source that a round or a
resident copy has come to own since it was posted is refused with NOT_PERMITTED (log 123); every packet of a send leaves in its step (log
41); a fetch ends two stack frames after its request (log 43). -/
def Obligations.ContextsAreFetchedAndSendsStart : Prop :=
  (∀ (s : State) (p : Fin 16) (i x : Nat), s.parts[p].net.fetches.find? (fun e => e.1 == i) = some (i, x) → 0 < s.parts[p].cacheSize →
   Runs (.contextFetchDone p i) s fun t => At x s t ∧ t.parts[p].net.cache.contains i ∧ (∀ e ∈ t.parts[p].net.fetches, e.1 ≠ i) ∧
   (∀ e ∈ t.parts[p].net.waiting, e.1 ≠ i) ∧ i ∉ t.parts[p].net.sendWaiting ∧ InTask p [.links, .out] s t) ∧
  (∀ s p i q (e : List W64) (rest : List SendReq), State.qp? s p i = some q → q.sending = none → q.egress = .descriptor e :: rest →
   let u := (s.cacheContext p i).syncDram p; Runs (.egressSendStart p i) s fun t => ∃ q', t.qp? p i = some q' ∧ q'.st = q.st ∧
   OnlyQp p i s t ∧ t.clock = s.clock ∧ InTask p [.links, .out] s t ∧ (s.parts[p].net.cache.contains i = false → q' = q ∧
   i ∈ t.parts[p].net.sendWaiting) ∧ (s.parts[p].net.cache.contains i → q'.egress = rest ∧ (∀ st, checkSend u p q e = some st →
   q'.sending = none) ∧ (∀ sk ikm, checkSend u p q e = none → Table.get? u.pannier (partSlot p (bits (word e 0) 15 0)) = some sk →
   egressIkm sk (((Table.get? u.parts[p].net.allow (bits (word e 0) 45 40)).map AllowEntry.pub).getD []) = some ikm →
   ∃ d k, q'.sending = some d ∧ d.kind = .egress (bits (word e 0) 63 48) ∧ d.acked = 0 ∧ d.retries = q.retry ∧ d.timer = s.clock ∧
   d.unacked.getLast? = some k ∧ k.isFlush ∧ q'.sqPsn = (q.sqPsn + d.unacked.length) % 2 ^ 24 ∧
   t.parts[p].net.egressSerial = s.parts[p].net.egressSerial + 1)))

/-- The timers of a queue pair resend, end and set its rate (R367, R371, R385, R387). Model's choices: rates are DCQCN's in fixed point,
fractions cut off at 2^-40 (PRESUMED, log 40); a resend counts its bytes (log 39); the RNR times are the InfiniBand specification's (log
38). -/
def Obligations.QueuePairTimersExpire : Prop :=
  (∀ s p i q (d : Send), State.qp? s p i = some q → q.sending = some d → q.st ≠ .error → (d.unacked ≠ [] → d.rnrUntil = none →
   Runs (.qpAckTimeout p i) s fun t => ∃ q', At (d.timer + 2 ^ q.timeout * 4096 * ns) s t ∧ t.qp? p i = some q' ∧ (d.retries = 0 →
   q'.st = .error ∧ q'.sending = none) ∧ (0 < d.retries → q' = { q with
     sending := some { d with retries := d.retries - 1, timer := t.clock },
     rate := { q.rate with bytes := q.rate.bytes + sentBytes d.unacked } }) ∧ InTask p [.links, .out] s t) ∧ (∀ x, d.rnrUntil = some x →
   Runs (.rnrWaitExpiry p i) s fun t => ∃ q', At x s t ∧ t.qp? p i = some q' ∧ (q.rnrRetry = 7 → q' = { q with
     sending := some { d with rnrUntil := none, timer := t.clock }, rate := { q.rate with bytes := q.rate.bytes + sentBytes d.unacked } }) ∧
   (q.rnrRetry ≠ 7 → d.rnrs = 0 → q'.st = .error ∧ q'.sending = none) ∧ (q.rnrRetry ≠ 7 → 0 < d.rnrs → q' = { q with
     sending := some { d with rnrUntil := none, rnrs := d.rnrs - 1, timer := t.clock },
     rate := { q.rate with bytes := q.rate.bytes + sentBytes d.unacked } }) ∧ InTask p [.links, .out] s t)) ∧
  (∀ s p i q, State.qp? s p i = some q →
   let c := s.ccOf p; (Runs (.alphaTimer p i) s fun t => At (q.rate.alphaAt + c.alphaTimer * us) s t ∧ t.qp? p i = some { q with
     rate :=
         { q.rate with alpha := q.rate.alpha - q.rate.alpha / 2 ^ c.g, alphaAt := t.clock, current := Nat.max q.rate.current (c.minRate * fixOne) }
         } ∧ OnlyQp p i s t ∧ InPart p [.clock] s t) ∧ (Runs (.rateTimer p i) s fun t => At (q.rate.rateAt + c.rateTimer * us) s t ∧
   t.qp? p i = some { q with rate := ({ q.rate with stageT := q.rate.stageT + 1, rateAt := t.clock } : Rate).recover c (s.lineOf q) } ∧
   OnlyQp p i s t ∧ InPart p [.clock] s t) ∧ (c.byteCounter * 65536 ≤ q.rate.bytes → Runs (.byteCounter p i) s fun t =>
   t.qp? p i = some { q with
     rate := ({ q.rate with stageB := q.rate.stageB + 1, bytes := q.rate.bytes - c.byteCounter * 65536 } : Rate).recover c (s.lineOf q) } ∧
   OnlyQp p i s t ∧ InPart p [] s t))

/-- Links train, become secure, fail and lose their keys (R332, R359 to R364). Model's choices: training anew deletes a link's SAKs and Binigal
keys, and the participant with the lower key-server priority is key server (log 46); a Binigal link stays TRAINING until it is keyed (log
47); the next SAK is sent under at once, and packet numbers begin again under the next association number (log 134); the KEK and the
wrapping are those of the standards (log 135), and a SAK that does not unwrap counts as a CAK mismatch (log 152). -/
def Obligations.LinksTrainAndSecure : Prop :=
  ∀ (s : State) (l : Fin 24), let k := s.links[l];
  (k.st = .up ∨ k.st = .securing → Runs (.linkSignalLoss l) s fun t => t.links[l].signal = false ∧ t.links[l].trainAt = s.clock ∧
   t.links[l].st = (if k.mode = 0 then .down else .training) ∧ t.links[l].secured = false ∧ t.links[l].bin.keyed = false ∧
   t.keySlot (32 + 2 * l.val) = none ∧ t.keySlot (33 + 2 * l.val) = none ∧ t.keySlot (80 + 2 * l.val) = none) ∧
  (k.signal = false → k.mode ≠ 0 → k.st = .training ∨ k.st = .failed → Runs (.linkSignalDetect l) s fun t => t.links[l].signal ∧
   t.links[l].st = .training ∧ t.links[l].trainAt = s.clock ∧ OnlyLink l s t) ∧
  (k.st = .training → k.signal → k.bin.eph = 0 → Runs (.linkTrainingComplete l none) s fun t => t.links[l].spareInUse = k.spareInUse ∧
   t.links[l].mode = k.mode ∧ t.links[l].st = (if k.mode = 3 then .training else if k.macsec then .securing else .up) ∧ (k.mode = 3 →
   t.links[l].bin.keyed = false ∧ t.links[l].bin.eph ≠ 0)) ∧
  (k.st = .training → k.signal → k.bin.eph = 0 → Runs (.linkTrainingTimeout l) s fun t => At (k.trainAt + 50 * ms) s t ∧
   t.links[l].st = .failed) ∧
  (∀ mismatch : Bool, s.mkaRuns l → (mismatch ∨ k.secured) → Runs (.mkaPeerLost l mismatch) s fun t => t.links[l].secured = false ∧
   t.links[l].st = .securing ∧ t.keySlot (32 + 2 * l.val) = none ∧ t.keySlot (33 + 2 * l.val) = none) ∧
  (2 ^ 62 ≤ k.pnTx ∨ 2 ^ 62 ≤ k.pnRx → k.secured → k.st = .up → Runs (.sakPnExhausted l) s fun t => (k.keyServer →
   let x := (s.inHousekeeping.deviceDraw 32).1; ∃ e, .sak l.val 0x10 ((k.an + 1) % 4) (aesWrap (s.kekOf l) x) ∈ t.out ∧ (k.oldPn = none →
   e.key = x ∧ e.period = s.slotPeriod (32 + 2 * l.val)) ∧ t.links[l].pnTx = 1 ∧ t.links[l].pnRx = 1 ∧ t.links[l].secured ∧
   t.links[l].st = .up ∧ t.links[l].an = (k.an + 1) % 4 ∧ t.links[l].oldPn = some k.pnRx ∧ t.keySlot (33 + 2 * l.val) = some e ∧
   e.kind = 11 ∧ (k.oldPn = none → t.keySlot (32 + 2 * l.val) = s.keySlot (32 + 2 * l.val))) ∧ (k.keyServer = false → Only [.clock] s t)) ∧
  (∀ (f : Frame) (prio sci : Nat) (wrapped key : List Byte), s.mkaRuns l → k.st = .securing → k.secured = false → f.fcsOk → f.len ≤ 9216 →
   f.body = .mkaSak prio sci (some wrapped) → prio < 16 → aesUnwrap (s.kekOf l) wrapped = some key → Runs (.frameReceived l f) s fun t =>
   ∃ e, e.key = key ∧ t.links[l].st = .up ∧ t.links[l].secured ∧ t.links[l].keyServer = false ∧ t.links[l].pnTx = 1 ∧ t.links[l].an = 0 ∧
   t.keySlot (32 + 2 * l.val) = some e ∧ e.kind = 11) ∧
  (∀ (f : Frame) (prio sci : Nat) (wrapped : List Byte), s.mkaRuns l → f.fcsOk → f.len ≤ 9216 → f.body = .mkaSak prio sci (some wrapped) →
   prio < 16 → aesUnwrap (s.kekOf l) wrapped = none → Runs (.frameReceived l f) s fun t => t.links[l].st = .securing ∧
   t.links[l].secured = false ∧ t.keySlot (32 + 2 * l.val) = none) ∧
  (∀ (prio : Fin 8) (x : Nat), k.paused.find? (fun e => e.1 == prio.val) = some (prio.val, x) → Runs (.pfcPauseExpiry l prio) s fun t =>
   At x s t ∧ t.links[l].paused = k.paused.filter (fun e => e.1 != prio.val) ∧ t.links[l].held = k.held.filter (fun e => e.1 != prio.val) ∧
   OnlyLink l s t ∧ Only [.clock, .links, .out] s t)

/-- A Binigal link takes frames in order, acknowledges them and resends what is left (R393 to R396). Model's choices: ACK and NAK take no SEQ,
every frame in order is acknowledged at once, more than 8 resends train the link again, and SEQ continues across re-keying (log 54). -/
def Obligations.BinigalLinksAreReliable : Prop :=
  ∀ (s : State) (l : Fin 24) (f : BFrame), let k := s.links[l]; let b := k.bin;
  k.binOpen → (∀ e ∈ [Instr.data l f, .signal l f, .barEnter l f, .barRelease l f, .barFail l f, .calibrate l f, .refuse l f, .counterRead l
   f, .counterValue l f, .digest l f], Runs e s fun t => t.links[l].rxFrames = k.rxFrames + 1 ∧ (f.seq = b.seqRx →
   t.links[l].bin.seqRx = (b.seqRx + 1) % 2 ^ 32 ∧ t.links[l].bin.nakOut = false) ∧ (f.seq ≠ b.seqRx → seqLe f.seq b.seqRx →
   t.links[l].bin.seqRx = b.seqRx ∧ t.links[l].bin.nakOut = b.nakOut ∧ Only [.links, .out] s t) ∧ (f.seq ≠ b.seqRx →
   seqLe f.seq b.seqRx = false → t.links[l].bin.seqRx = b.seqRx ∧ t.links[l].bin.nakOut ∧ Only [.links, .out] s t)) ∧
   (let n := (b.sent.filter (fun x => seqLe x.seq f.seq)).length; Runs (.ack l f) s fun t => t.links[l].bin.replay = b.replay.drop n ∧
   t.links[l].bin.seqTx = b.seqTx ∧ (0 < n → t.links[l].bin.resends = 0 ∧ t.links[l].bin.since = s.clock) ∧ OnlyLink l s t ∧
   Only [.links, .out] s t) ∧
   (let n := (b.sent.filter (fun x => seqLe x.seq ((f.seq + 2 ^ 32 - 1) % 2 ^ 32))).length; Runs (.nak l f) s fun t =>
   t.links[l].bin.replay = b.replay.drop n ∧ (b.resends < 8 → n < b.replay.length → t.links[l].st = .up ∧
   t.links[l].bin.resends = (if n = 0 then b.resends else 0) + 1 ∧ Only [.links, .out] s t)) ∧
  (b.replay ≠ [] → Runs (.binigalResendTimeout l) s fun t => At (b.since + 20 * us) s t ∧ (b.resends < 8 →
   t.links[l].bin.replay = b.replay ∧ t.links[l].bin.resends = b.resends + 1 ∧ t.links[l].bin.since = t.clock ∧
   ((s.engineKey (80 + 2 * l.val) (.binigal l.val)).isSome → t.links[l].bin.txc = b.txc + b.sent.length) ∧
   Only [.clock, .links, .out] s t) ∧ (8 ≤ b.resends → t.links[l].st = .training ∧ t.links[l].bin.keyed = false)) ∧
  (Runs (.binigalTagFailure l) s fun t => t.links[l].bin.nakOut ∧ t.links[l].bin.seqRx = b.seqRx ∧ t.links[l].rxFrames = k.rxFrames + 1 ∧
   Only [.links, .out] s t) ∧
  (2 ^ 40 ≤ b.txc → Runs (.binigalTxcExhausted l) s fun t => t.links[l].bin.keyed = false ∧ t.links[l].bin.eph ≠ 0 ∧
   t.links[l].bin.replay = b.replay ∧ t.links[l].st = .up ∧ Only [.clock, .pannier, .pool, .devDrbg, .links, .out, .free] s t)

/-- A tandem group keeps its time, its link keys, its reports and its ports (R333, R395, R399, R400, R402). Model's choices: the payload of
CALIBRATE, DIGEST and HANDSHAKE frames (log 51), what a report tells (log 52), the root by which group time is set (log 57), what of a port
the source can judge (logs 56 and 139), and frames of a binding that go behind those of their pair (log 155). -/
def Obligations.TandemKeepsTimeKeysAndPorts : Prop :=
  (∀ s l f g me, Arrives s l f g me → (∀ y, f.arg1 = 0 → g.farEnd me l = some y → Runs (.calibrate l f) s fun t => Sends l s t fun x =>
   x.kind = 6 ∧ x.arg0 = f.arg0 ∧ x.arg1 = 1 ∧ x.payload = padTo 64 (leBytes 8 s.groupTime) ∧ Only [.links, .out] s t) ∧ (f.arg1 = 1 →
   Runs (.calibrate l f) s fun t => t.links[l].bin.delay = (s.localCycles - f.arg0) / 2 ∧ (∀ r, g.timeRoot me = some r → r ≠ me →
   (s.acked l f).linkFrom g me r = some l.val → t.tandem.offset = (leNat (f.payload.take 8) : Int) + (((s.localCycles - f.arg0) / 2 : Nat) :
   Int) - s.localCycles) ∧ Only [.links, .tandem, .out] s t) ∧ (f.dst = me → Runs (.digest l f) s fun t =>
   Table.get? t.tandem.reports f.src = some (readReport f.payload) ∧ (∀ j, j ≠ f.src →
   Table.get? t.tandem.reports j = Table.get? s.tandem.reports j) ∧ Only [.chans, .parts, .links, .tandem, .out] s t)) ∧
  (∀ (s : State) (g : GroupDesc) (me : Nat), s.boot.phase = .ready → s.member = some (g, me) → Runs .calibrationTimer s fun t =>
   At s.tandem.nextCalibrate s t ∧ t.tandem.nextCalibrate = t.clock + sec ∧ (∀ l : Fin 24, s.links[l].binOpen → g.farEnd me l ≠ none →
   Sends l s t fun x => x.kind = 6 ∧ x.arg1 = 0) ∧ Only [.clock, .links, .tandem, .out] s t) ∧
  (∀ (s : State) (l : Fin 24) (f : BFrame) (g : GroupDesc) (me : Nat), s.links[l].mode = 3 → s.links[l].signal → s.links[l].st = .training →
   s.links[l].bin.eph ≠ 0 → s.member = some (g, me) →
   let pub := f.payload.take 96;
   let body := (f.payload.drop 96).take 128; Runs (.handshake l f) s fun t => t.links[l].rxFrames = s.links[l].rxFrames + 1 ∧
   (ecdsaVerify pub body (f.payload.drop 224) → g.lists (sha384 pub) → t.links[l].st = .up ∧ t.links[l].bin.keyed ∧
   t.links[l].bin.peer = sha384 pub ∧ ∃ e d, t.keySlot (80 + 2 * l.val) = some e ∧ t.keySlot (81 + 2 * l.val) = some d ∧ e.kind = 12 ∧
   d.kind = 12 ∧ (e.key, d.key) = linkKeys s.links[l].bin.eph s.links[l].bin.nonce (body.take 96) (body.drop 96) (sha384 pub) ∧
   e.period = s.slotPeriod (80 + 2 * l.val) ∧ d.period = s.slotPeriod (81 + 2 * l.val)) ∧
   (ecdsaVerify pub body (f.payload.drop 224) = false ∨ g.lists (sha384 pub) = false → t.links[l].st = .training ∧
   t.links[l].bin = s.links[l].bin ∧ Only [.clock, .links] s t)) ∧
  (∀ (s : State) (bid p : Fin 16) (port : Fin 32) (g : GroupDesc) (me : Nat) (b : BindDesc) (x : PortDesc) (ctr : CtrRef), s.member = some
   (g, me) → s.bound g me bid.val = some (b, p) → b.ports[port.val]? = some x → x.src = me →
   s.parts[p].counterRef (x.trigger / 2048) (x.trigger % 2048) = some ctr →
   let n := (Table.get? s.tandem.sent (b.id * 32 + port.val)).getD 0;
   let u := (s.toTick p).syncDram p; n < (u.counter ctr).value → Runs (.portBlockSend bid port) s fun t =>
   Table.get? t.tandem.sent (b.id * 32 + port.val) = some (n + 1) ∧ (u.parts[p].portBad x → t.links = s.links ∧
   t.chans = (u.count (vf p) .syncBlocked 1).chans) ∧ (∀ m, u.parts[p].portBad x = false → u.linkFor g me me x.dst b.id = some m →
   ∃ fs, t.links[m].bin.replay = s.links[m].bin.replay ++ fs ∧ fs.length = x.pages ∧ ∀ i y, fs[i]? = some y → y.kind = 1 ∧
   y.arg1 = port.val ∧ y.binding = b.id ∧ y.dst = x.dst ∧ y.arg0 = x.dstAddr + n % x.blocks * x.pages * 4096 + i * 4096 ∧
   y.payload = u.parts[p].dram.readN (x.srcAddr + n % x.blocks * x.pages * 4096 + i * 4096) 4096) ∧ t.clock = (s.toTick p).clock ∧
   InTask p [.links, .tandem, .out] s t)

/-- Sensor samples start and end the emergency throttle and trip the part (R356, R357, R459 to R461, R465, R466, R491). Model's choices: the
throttle begins when one sensor reads at or above its limit twice running, and names the first (log 106); a trip cuts a write of the NVM of
its own moment short (log 144); rails are on from step 2 of R466 (log 130). -/
def Obligations.SensorsThrottleAndTrip : Prop :=
  (∀ (s : State) (logic stack : List Nat) (e : BootEvents), s.powered →
   let x := Nat.max s.clock s.power.nextSensor;
   let hot := (∃ i < 36, 400 ≤ s.power.logic.getD i 0 ∧ 400 ≤ logic.getD i 0) ∨ (∃ i < 36, 368 ≤ s.power.stack.getD i 0 ∧
       368 ≤ stack.getD i 0);
   let warm := (∃ i < 36, 380 < logic.getD i 0) ∨ (∃ i < 36, 348 < stack.getD i 0); Runs (.sensorSample logic stack e) s fun t =>
   x ≤ t.clock ∧ t.power.logic = logic ∧ t.power.stack = stack ∧ t.power.nextSensor = s.power.nextSensor + 10 * us ∧
   t.nvm.life.stackMax = (List.range 36).map (fun i => Nat.max (s.nvm.life.stackMax.getD i 0) (stack.getD i 0)) ∧ (s.power.throttle = none →
   ¬hot → t.clock = x ∧ t.power.throttle = none ∧ Only [.clock, .nvm, .power] s t) ∧ (s.power.throttle = none → hot →
   (∃ h, t.power.throttle = some h ∧ h.since = x ∧ h.coolSince = none ∧ h.lowest = s.power.lastMv ∧ h.site < 36 ∧
   h.reading = (if h.stack then stack else logic).getD h.site 0 ∧ (if h.stack then 368 else 400) ≤ h.reading ∧
   (if h.stack then 368 else 400) ≤ (if h.stack then s.power.stack else s.power.logic).getD h.site 0) ∧
   t.nvm.life.throttles = s.nvm.life.throttles + 1 ∧ t.logged 0x0201 ∧ PfPosts s t ∧ (s.power.resThrottle.lastBegin = none →
   ∀ p, Posts p s t) ∧ Only [.clock, .nvm, .power, .chans, .parts, .tandem, .out] s t) ∧ (∀ h, s.power.throttle = some h → warm →
   ∃ h', t.power.throttle = some h' ∧ h'.since = h.since ∧ h'.coolSince = none ∧ (if h'.stack then 348 else 380) < h'.reading ∧
   h'.reading = (if h'.stack then stack else logic).getD h'.site 0 ∧ t.clock = x ∧ Only [.clock, .nvm, .power] s t) ∧
   (∀ h, s.power.throttle = some h → ¬warm → (h.coolSince.getD x + 10 * ms ≤ x → t.power.throttle = none ∧ PfPosts s t) ∧
   (x < h.coolSince.getD x + 10 * ms → t.clock = x ∧ t.power.throttle = some { h with coolSince := some (h.coolSince.getD x) }))) ∧
  (∀ (s : State) (stack : Bool) (site : Fin 36) (reading : Nat), s.railsOn → 440 ≤ reading →
   Runs (.thermalTrip stack site reading) s fun t => t.boot.phase = .tripped ∧ t.boot.thermTrip ∧ t.nvm.life.trips = s.nvm.life.trips + 1 ∧
   t.parts = State.reset.parts ∧ t.pannier = [] ∧ t.links = State.reset.links ∧ t.clusters = State.reset.clusters ∧
   t.chans = State.reset.chans ∧ t.nvm.antiRollback = s.nvm.antiRollback ∧ t.nvm.revoked = s.nvm.revoked ∧ (s.nvm.writesAt ≠ s.clock →
   t.nvm.cfg = s.nvm.cfg ∧ t.nvm.fusesDue = s.nvm.fusesDue))

/-- Supply samples begin and end the hold, or reset the part (R357, R462 to R465). Model's choices: a deferred notice counts its second from the
last begin posted (log 106); dispatch resumes at the end of the next full cadence period (log 107); a boot that has stopped is not reset by
the supply (log 159). -/
def Obligations.SupplyHoldsAndBrownouts : Prop :=
  (∀ (s : State) (mv : Nat) (e : BootEvents), s.railsOn →
   let x := Nat.max s.clock s.power.nextSupply; Runs (.supplySample mv e) s fun t => (9600 < mv → s.power.hold = none → (10800 < mv →
   t.power.hold = none ∧ t.power.lowSince = none ∧ t.clock = x ∧ t.boot = { s.boot with pwrGood := s.boot.pwrGood || s.powered } ∧
   Only [.clock, .power, .boot] s t) ∧ (mv ≤ 10800 → x < s.power.lowSince.getD x + 2 * us → t.power.hold = none ∧
   t.power.lowSince = some (s.power.lowSince.getD x)) ∧ (mv ≤ 10800 → s.power.lowSince.getD x + 2 * us ≤ x →
   t.power.hold = some ⟨x, mv, none⟩ ∧ t.nvm.life.holds = s.nvm.life.holds + 1 ∧ t.nvm.stored = t.nvm.life ∧ PfPosts s t ∧
   (s.power.resHold.lastBegin = none → ∀ p, Posts p s t))) ∧ (∀ h, 9600 < mv → s.power.hold = some h → x < h.since + 20 * ms →
   let y := if mv > 11200 then some (h.highSince.getD x) else none; (y.any (fun u => u + 100 * us ≤ x) → t.power.hold = none ∧
   t.power.resumeAfter = some x ∧ (∀ p, t.mayDispatch p = false)) ∧ (y.any (fun u => u + 100 * us ≤ x) = false →
   t.power.hold = some { h with lowest := Nat.min h.lowest mv, highSince := y })) ∧ (mv ≤ 9600 → s.bootStopped = false →
   t.power.hold = none ∧ t.noPartition ∧ t.nvm.life.coldResets = s.nvm.life.coldResets + (if s.boot.resetLow then 0 else 1))) ∧
  (∀ (s : State) (h : SupplyHold) (e : BootEvents), s.power.hold = some h → s.bootStopped = false → Runs (.holdTimeout e) s fun t =>
   Nat.max s.clock (h.since + 20 * ms) ≤ t.clock ∧ t.power.hold = none ∧ t.nvm.life.brownouts = s.nvm.life.brownouts + 1 ∧ t.noPartition) ∧
  (∀ (s : State) (hold : Bool),
   let r := if hold then s.power.resHold else s.power.resThrottle;
   let on := if hold then s.power.hold.isSome else s.power.throttle.isSome;
   let u := s.advance (r.lastBegin.getD 0 + sec);
   let v := if on then u.postAll (if hold then 0x0562 else 0x0561) .ok [1] else u; r.deferred →
   Runs (.residualEventDelayEnd hold) s fun t => t.chans = v.chans ∧ t.clock = v.clock ∧
   (if hold then t.power.resHold else t.power.resThrottle).deferred = false ∧ Only [.clock, .power, .chans, .out] s t) ∧
  (∀ (s : State) (x : Nat), s.powered → s.power.resumeAfter = some x → s.power.hold = none → Runs .cadencePeriodEnd s fun t =>
   t.power.resumeAfter = (if s.power.nextPeriod < x + 100 * us then some x else none) ∧ t.power.nextPeriod = s.power.nextPeriod + 100 * us ∧
   (s.power.nextPeriod < x + 100 * us → ∀ p : Fin 16, t.parts[p].job.cassettes = s.parts[p].job.cassettes ∧ (s.parts[p].job.running = none →
   t.parts[p].job.running = none)))

/-- Blocks of entropy are tested, released, delivered and read; failing sources restart and retire (R293 to R306). Model's choices: every 64th
delivered word goes to the device pool, and a word that no reseed buffer has room for is let go (log 24); 64 bits spell a word with the
oldest bit least significant (log 23); what a failed creation leaves (log 156). -/
def Obligations.EntropyIsTestedAndDelivered : Prop :=
  (∀ (s : State) (b : Fin 18) (i : Bool) (raw : List Bool), s.noiseOn → (s.banks[b].src i).st ≠ .retired →
   (s.banks[b].src i).settleUntil = none →
   let x := s.banks[b].src i;
   let block := xorStage raw;
   let bad := (repTest x.lastBit x.run block).2.2 || propFails block;
   let fails := (x.fails.filter (fun n => n + 2 ^ 20 > x.blocks + 1)).length + 1; Runs (.rngBlockTested b i raw) s fun t => (∀ c, c ≠ b →
   fails < 4 → t.banks[c] = s.banks[c]) ∧ (bad = false → x.st = .running →
   t.banks[b].buf = (s.banks[b].buf ++ vonNeumann block).take 16384 ∧ (t.banks[b].src i).st = .running ∧
   (t.banks[b].src i).blocks = x.blocks + 1 ∧ Only [.banks] s t) ∧ (bad = false → x.st ≠ .running → x.passed + 1 < 1024 →
   t.banks[b].buf = s.banks[b].buf ∧ (t.banks[b].src i).passed = x.passed + 1 ∧ Only [.banks] s t) ∧ (bad = false → x.st ≠ .running →
   x.passed + 1 = 1024 → (t.banks[b].src i).st = .running ∧ t.banks[b].started ∧
   t.banks[b].buf = (s.banks[b].buf ++ (x.heldBits ++ vonNeumann block)).take 16384 ∧ Only [.banks] s t) ∧ (bad → fails < 4 →
   (t.banks[b].src i).st = .restarting ∧ (t.banks[b].src i).settleUntil = some (s.clock + 64 * us) ∧ t.banks[b].buf = s.banks[b].buf) ∧
   (bad → 4 ≤ fails → (b.val, b2n i) ∈ t.nvm.retiredSources ∧ (t.banks[b].src i).st = .retired)) ∧
  (∀ (s : State) (b : Fin 18) (i : Bool) (x : Nat), (s.banks[b].src i).settleUntil = some x → Runs (.rngSourceSettled b i) s fun t =>
   At x s t ∧ (t.banks[b].src i).settleUntil = none ∧ (t.banks[b].src i).st = (s.banks[b].src i).st ∧ Only [.clock, .banks] s t) ∧
  (∀ (s : State) (b : Fin 18), 0 < s.banks[b].level → s.banks[b].stateCode ≠ 4 → (∀ p, s.banks[b].role = .owned p →
   (s.banks[b].delivered + 1) % 64 ≠ 0 → ∀ c, s.needsWord s.parts[pid p].clusterList = some c → Runs (.rngWordDelivery b) s fun t =>
   t.banks[b].buf = s.banks[b].buf.drop 64 ∧ t.clusters[c].reseedBuf = s.clusters[c].reseedBuf ++ [s.banks[b].word] ∧
   t.banks[b].delivered = s.banks[b].delivered + 1 ∧ Only [.banks, .clusters] s t) ∧ (∀ p, s.banks[b].role = .owned p →
   (s.banks[b].delivered + 1) % 64 ≠ 0 → s.needsWord s.parts[pid p].clusterList = none → Runs (.rngWordDelivery b) s fun t =>
   t.banks[b].buf = s.banks[b].buf.drop 64 ∧ t.banks[b].delivered = s.banks[b].delivered + 1 ∧ Only [.banks] s t) ∧
   (s.banks[b].role = .unallocated ∨ s.banks[b].role = .spare ∨ (∃ p, s.banks[b].role = .owned p ∧ (s.banks[b].delivered + 1) % 64 = 0) →
   Runs (.rngWordDelivery b) s fun t => t.banks[b].buf = s.banks[b].buf.drop 64 ∧ t.pool = s.pool ++ [s.banks[b].word] ∧
   t.banks[b].delivered = s.banks[b].delivered + 1 ∧ Only [.banks, .pool] s t)) ∧
  (∀ (s : State) (b : Fin 18), (Runs (.rngDataRead b) s fun t => t.out.head? = some (.rtpRead (if s.banks[b].level = 0 then 0 else
   s.banks[b].word)) ∧ (s.banks[b].level = 0 → t.banks[b].empty ∧ t.banks[b].buf = s.banks[b].buf) ∧ (0 < s.banks[b].level →
   t.banks[b].buf = s.banks[b].buf.drop 64 ∧ t.banks[b].empty = s.banks[b].empty) ∧ Only [.banks, .out] s t) ∧
   (Runs (.rngStatusRead b) s fun t => t.out = .rtpRead (s.rngStatus b) :: s.out ∧ t.banks[b].empty = false ∧
   t.banks[b].buf = s.banks[b].buf ∧ Only [.banks, .out] s t)) ∧
  (∀ (s : State) (ch : Fin 17) (h : Held), s.chans[ch].held = some h → h.why = .entropy →
   let u := ((s.advance (h.req.since + 50 * ms)).inService ch).resume ch; (∀ y, u.chans[ch].held = some y → y.why = .entropy →
   Runs (.entropyWaitTimeout ch) s fun t => Finishes u t ch y.req .rngNotReady [] ∧ Only [.clock, .chans, .out] u t) ∧
   ((∀ y, u.chans[ch].held = some y → y.why ≠ .entropy) → exec (.entropyWaitTimeout ch) s = .next u)) ∧
  (∀ (s : State) (b : Fin 18) (i : Bool) (raw : List Bool) (p : Fin 16) (r : Req), s.noiseOn → (s.banks[b].src i).st ≠ .retired →
   (s.banks[b].src i).settleUntil = none →
   let x := s.banks[b].src i;
   let block := xorStage raw; ((repTest x.lastBit x.run block).2.2 ∨ propFails block) → 4 ≤ (x.fails.filter (fun n =>
   n + 2 ^ 20 > x.blocks + 1)).length + 1 → (s.banks[b].src (!i)).st = .retired → s.banks[b].role = .owned p.val → s.standbyBanks = [] →
   s.parts[p].st = .creating → s.pf.held = some ⟨r, .creation p.val⟩ → Runs (.rngBlockTested b i raw) s fun t =>
   t.parts[p] = Partition.absent ∧ t.banks[b].role = .unallocated ∧ t.rngAlarm ∧ Finishes s t 0 r .rngFailed [])

/-- Power-up, the pins and the boot events start and stop the part (R406, R414, R461, R466, R467, R471, R474, R495, R501, R507, R510). Model's
choices: what a boot meets, and its duration, come with the event (logs 92 and 93); RESET is its first record (log 94); a timeout repeats
the boot (log 95), also one at step 0 (log 159); what pins and readings live through (log 102); PERST# (log 104); how power cuts a write
(log 144). -/
def Obligations.PartStartsAndStops : Prop :=
  (∀ (s : State) (e : BootEvents), s.boot.phase = .off → s.boot.resetLow = false → Runs (.powerUp e) s fun t =>
   t.nvm.life.seconds = Nat.max s.nvm.stored.seconds ((s.nvm.log.getLast?.map LogRec.lifetime).getD 0) + 1 ∧
   t.nvm.life.coldResets = s.nvm.stored.coldResets + 1 ∧ t.noPartition ∧ (e.reaches = 0 → e.fails = false → t.boot.phase = .booting ∧
   t.boot.step = 0) ∧ (e.reaches = 0 → e.fails → t.boot.phase = .booting ∧ t.boot.failStep = 1) ∧ (6 ≤ e.reaches → e.defects = [] →
   e.worn = [] → s.nvm.pendingRetire = [] → s.nvm.fusesDue = none → s.nvm.acceptable s.nvm.committed → (s.nvm.applyLog.siteMap.all (fun x =>
   x < 36)) → (s.nvm.applyLog.repairs.any (fun r => r.retire && r.site == ledgerSite)) = false → s.nvm.bestConfig.isSome →
   t.boot.phase = .ready ∧ t.boot.step = 6 ∧ t.boot.fwSlot = s.nvm.committed ∧ t.boot.refclkCommon = e.refclk ∧
   t.nvm.siteMap = s.nvm.applyLog.siteMap ∧ some t.boot.cfgSlot = s.nvm.bestConfig ∧ t.boot.pcieUp ∧ t.i3c.up ∧
   t.clock = s.clock + Nat.min e.ms 1500 * ms)) ∧
  (∀ (s : State) (e : BootEvents), s.boot.phase = .inReset → s.boot.resetLow → Runs (.resetNRelease e) s fun t => t.boot.resetLow = false ∧
   t.nvm.life.coldResets = s.nvm.life.coldResets + 1 ∧ t.nvm.life.seconds = s.nvm.life.seconds ∧ t.boot.start = s.clock) ∧
  (∀ (s : State) (width : Nat), 1000 ≤ width → s.boot.resetLow = false → s.powered → Runs (.resetNAssert width) s fun t =>
   t.boot.phase = .inReset ∧ t.boot.resetLow ∧ t.nvm = { s.nvm with writes := [] } ∧ t.parts = State.reset.parts ∧
   t.chans = State.reset.chans ∧ t.pannier = [] ∧ t.clock = s.clock ∧ t.i3c = s.i3c) ∧
  (∀ (s : State) (e : BootEvents), s.boot.phase = .booting → s.boot.failStep = 0 → s.boot.step < 6 → s.boot.timeouts.length = 2 →
   s.boot.fwSlot < 2 → s.boot.bootSlot < 2 → e.reaches < 2 → e.fails = false →
   let slot := if s.boot.step ≥ 2 then s.boot.fwSlot else s.boot.bootSlot;
   let n := s.boot.timeouts.getD slot 0 + 1; Runs (.bootTimeout e) s fun t => At (s.boot.attemptAt + 1500 * ms) s t ∧
   t.boot.timeouts = setAt s.boot.timeouts slot n ∧ (((setAt s.boot.timeouts slot n).all (fun x => x ≥ 3)) → t.boot.failStep = s.boot.step ∧
   t.boot.phase = .booting) ∧ (((setAt s.boot.timeouts slot n).all (fun x => x ≥ 3)) = false → t.boot.failStep = 0 ∧ t.boot.step = 1 ∧
   t.boot.attemptAt = t.clock ∧ t.boot.bootSlot = (if n ≥ 3 ∧ s.nvm.acceptable (1 - slot) = true then 1 - slot else slot) ∧
   t.nvm.life.warmResets = s.nvm.life.warmResets + 1)) ∧
  (∀ s : State,
   let u := s.cutNvm; Runs .powerLoss s fun t => t = { State.reset with
     pending := s.pending, clock := s.clock, nvm := { u.nvm with writes := [] }, out := s.out, free := u.free, rngAlarm := s.rngAlarm,
     banks := t.banks,
     boot :=
         { Boot.reset with cfgBefore := t.boot.cfgBefore, perst := s.boot.perst, resetLow := s.boot.resetLow, refclkPin := s.boot.refclkPin }
         } ∧ (∀ b : Fin 18, t.banks[b] = Bank.reset (u.nvm.bankRole b.val)) ∧ (s.nvm.writesAt ≠ s.clock → u = s)) ∧
  (∀ s : State, 0 < s.boot.step → Runs .perstAssert s fun t => t.boot.perst ∧ t.boot.numVfs = 0 ∧ (∀ ch : Fin 17, t.chans[ch].replies = [] ∧
   t.chans[ch].waiting = [] ∧ t.chans[ch].irqCause = 0 ∧ t.chans[ch].seqExpect = s.chans[ch].seqExpect ∧
   t.boot.bme.getD ch.val false = false ∧ t.reachable ch = false) ∧ Only [.boot, .chans] s t) ∧
  (∀ s : State, exec .perstRelease s = .next { s with boot := { s.boot with perst := false } }) ∧
  (∀ s : State, exec .refclkLoss s = .next
   { s with boot := { s.boot with refclkPin := false, pcieUp := s.boot.pcieUp && !s.boot.refclkCommon } }) ∧
  (∀ s : State, exec .railOutOfRange s = .next { s with boot := { s.boot with pwrGood := false } }) ∧
  (∀ (s : State) (code : Nat), s.boot.phase = .ready ∨ s.boot.phase = .deviceFault → Runs (.firmwareFatalError code) s fun t =>
   t.boot.phase = .fatal ∧ t.nvm = (s.log 0x0006 0 [w64 code]).nvm ∧ (∀ ch, t.chState ch = 4) ∧ Only [.boot, .nvm, .chans, .out] s t)

/-- RESET_DEVICE resets the part, a link or a partition and is answered (R434, R472 to R477). Model's choices: COLD is served in FATAL, as R472
says (log 17); what a LINK reset waits for (log 49); what a warm reset keeps of the PF's channel (log 101); FORCE and LINK in a PARTITION
reset (log 105). -/
def Obligations.DeviceResets : Prop :=
  (∀ s c (w : W64) (e : BootEvents), takes s 0 0x0103 c → c.payload = [w] → nonZero w 63 28 = false → nonZero w 23 21 = false →
   nonZero w 15 9 = false → nonZero w 7 3 = false → (bits w 2 0 ≤ 1 → nonZero w 27 24 = false → nonZero w 20 16 = false →
   (bitAt w 8 ∨ s.noPartition) → s.pf.asyncs = [] → (bits w 2 0 = 0 → Runs (.resetDeviceWarm 0 c e) s fun t => t.noPartition ∧
   t.nvm.life.warmResets = s.nvm.life.warmResets + 1 ∧ Replied s t 0 0x0103 c .ok [] ∧ t.pf.seqExpect = (s.pf.seqExpect + 1) % 2 ^ 64) ∧
   (bits w 2 0 = 1 → s.boot.resetLow = false → Runs (.resetDeviceCold 0 c e) s fun t => t.noPartition ∧
   t.nvm.life.coldResets = s.nvm.life.coldResets + 1 ∧ t.boot.refclkPin = e.refclk ∧ t.pf.replies = [])) ∧ (∀ l : Fin 24, bits w 2 0 = 2 →
   nonZero w 27 24 = false → bits w 20 16 = l.val → (bitAt w 8 ∨ s.linkNamed l = false) → Runs (.resetDeviceLink 0 c) s fun t =>
   t.links[l].st = (if s.links[l].mode = 0 then .down else .training) ∧ t.links[l].secured = false ∧
   t.links[l].trainAt = (s.inTurn 0 0x0103).clock ∧ (s.links[l].mode = 0 → Replied s t 0 0x0103 c .ok []) ∧ (s.links[l].mode ≠ 0 →
   Holds s t 0 0x0103 c (.linkTraining l.val))) ∧ (∀ p : Fin 16, bits w 2 0 = 3 → nonZero w 20 16 = false → bitAt w 8 = false →
   bits w 27 24 = p.val → s.parts[p].st = .active → (s.parts[p].job.running = none → Runs (.resetDevicePartition 0 c) s fun t =>
   t.parts[p].job.queue = [] ∧ t.parts[p].st = .active ∧ Apart p s t ∧ Replied s t 0 0x0103 c .ok []) ∧
   (∀ r, s.parts[p].job.running = some r → Runs (.resetDevicePartition 0 c) s fun t => Holds s t 0 0x0103 c (.partitionReset p.val) ∧
   OnlyPart p s t ∧ (r.what.isRecovery = false → t.stopping p)))) ∧
  (∀ s c (w : W64) (e : BootEvents), s.boot.phase = .fatal → takes { s with boot := { s.boot with phase := .ready } } 0 0x0103 c →
   c.payload = [w] → bits w 2 0 = 1 → nonZero w 63 9 = false → nonZero w 7 3 = false → (bitAt w 8 ∨ s.noPartition) → s.pf.asyncs = [] →
   s.boot.resetLow = false → Runs (.resetDeviceCold 0 c e) s fun t => t.noPartition ∧ t.boot.phase ≠ .fatal ∧
   t.nvm.life.coldResets = s.nvm.life.coldResets + 1 ∧ t.pf.replies = [])

/-- Configuration records and firmware images are written, staged and committed (R338, R339, R430, R438, R480 to R485). Model's choices: a slot
fails its read-back where it is listed as worn (log 89); a stored SIGNATURE is known by its nonce (log 157); parts of chains (log 88);
BODY_LENGTH and acceptability of an image (log 90). -/
def Obligations.RecordsAndImagesAreWritten : Prop :=
  (∀ s c (body : List Byte) (ws : List W64), takes s 0 0x0801 c → c.payload = w64 body.length :: 0 :: ws → body.length ≤ 1048576 →
   ws.length = ceilDiv body.length 8 → (wordsToBytes ws).take body.length = body →
   ((wordsToBytes ws).drop body.length).any (· != 0) = false → (bodyOk tandemOk body → s.boot.cfgSlot < 2 → s.nvm.cfg.length = 2 →
   s.nvm.cfgWorn.contains (1 - s.boot.cfgSlot) = false →
   let seq := (s.activeRecord.map ConfigRec.seq).getD 0 + 1; seq < 2 ^ 64 → Runs (.configWrite 0 c) s fun t =>
   Answered s t 0 0x0801 c .ok (w64 seq :: bytesToWords 6 (sha384 body)) ∧
   t.nvm.cfg.getD (1 - s.boot.cfgSlot) none = some (.made seq body (Crypto.scalarOf (s.deviceDraw 56).1)) ∧
   t.nvm.cfg.getD s.boot.cfgSlot none = s.nvm.cfg.getD s.boot.cfgSlot none ∧ t.boot.cfgSlot = 1 - s.boot.cfgSlot ∧ t.nvm.fw = s.nvm.fw ∧
   t.nvm.antiRollback = s.nvm.antiRollback) ∧ (bodyOk tandemOk body → s.boot.cfgSlot < 2 → s.nvm.cfg.length = 2 →
   s.nvm.cfgWorn.contains (1 - s.boot.cfgSlot) → Runs (.configWrite 0 c) s fun t => Answered s t 0 0x0801 c .deviceFault [] ∧
   t.nvm.cfg.getD (1 - s.boot.cfgSlot) none = some { ConfigRec.blank with body := body } ∧
   t.nvm.cfg.getD s.boot.cfgSlot none = s.nvm.cfg.getD s.boot.cfgSlot none ∧ t.logged 0x0306 ∧
   Only [.clock, .nvm, .chans, .pool, .devDrbg, .out, .free] s t) ∧ (bodyOk tandemOk body = false →
   Answers (.configWrite 0 c) s 0 0x0801 c .badParam [])) ∧
  (∀ s c (b : List Byte) (ws : List W64), takes s 0 0x0803 c → c.payload = w64 b.length :: 0 :: ws → b.length ≤ 33554432 + 4096 →
   ws.length = ceilDiv b.length 8 → (wordsToBytes ws).take b.length = b → ((wordsToBytes ws).drop b.length).any (· != 0) = false →
   s.boot.fwSlot < 2 → s.nvm.fw.length = 2 →
   let slot := 1 - s.boot.fwSlot; (s.nvm.committed = slot → Answers (.fwStage 0 c) s 0 0x0803 c .badState []) ∧ (s.nvm.committed ≠ slot →
   Runs (.fwStage 0 c) s fun t => (s.nvm.checkImage b = none → t.nvm.fw.getD slot none = some (imageOf b) ∧
   Answered s t 0 0x0803 c .ok [w64 slot, (imageOf b).version, w64 (imageOf b).svn]) ∧ (∀ st, s.nvm.checkImage b = some st →
   t.nvm.fw.getD slot none = none ∧ Answered s t 0 0x0803 c st []) ∧ t.nvm.fw.getD s.boot.fwSlot none = s.nvm.fw.getD s.boot.fwSlot none ∧
   t.nvm.bootCtl = s.nvm.bootCtl ∧ t.nvm.antiRollback = s.nvm.antiRollback ∧ t.nvm.revoked = s.nvm.revoked ∧
   Only [.nvm, .chans, .out] (s.inTurn 0 0x0803) t)) ∧
  (∀ s c (slot : Nat), takes s 0 0x0804 c → slot < 2 → c.payload = [w64 slot] → (∀ i, s.nvm.acceptable slot →
   s.nvm.fw.getD slot none = some i → Runs (.fwCommit 0 c) s fun t => Answered s t 0 0x0804 c .ok [] ∧ t.nvm.committed = slot ∧
   (s.nvm.fusesDue = none → t.nvm.fusesDue = none) ∧ t.nvm.antiRollback = Nat.max s.nvm.antiRollback i.svn ∧
   t.nvm.revoked = s.nvm.revoked ||| i.revoke ∧ t.nvm.fw = s.nvm.fw ∧ t.nvm.cfg = s.nvm.cfg ∧
   Only [.nvm, .chans, .out] (s.inTurn 0 0x0804) t) ∧ (s.nvm.acceptable slot = false → Answers (.fwCommit 0 c) s 0 0x0804 c .badState []))

/-- The SPDM responder answers each request of a connection in its order (R319 to R321). Model's choices: the message formats are those of
DSP0274 1.3 (PRESUMED, log 109); CTExponent (log 110). -/
def Obligations.SpdmAnswers : Prop :=
  ∀ (s : State) (ep : Fin 18) (req : List Byte), s.spdmReachable ep → (s.keyAt 0).isSome → 4 ≤ req.length → req.length ≤ 4096 →
   let k := s.spdm[ep];
  let m (code : Nat) : List Byte := [req.headD 0, byte code] ++ req.drop 2;
  (req.headD 0 = 0x10 → Runs (.spdmGetVersion ep req) s fun t => t.out = s.shows ep (.spdm ep.val [0x10, 0x04, 0, 0, 0, 1, 0x00, 0x13]) ∧
   t.spdm[ep].version ∧ t.spdm[ep].caps = false ∧ t.spdm[ep].algos = false ∧ (∀ o, o ≠ ep → t.spdm[o] = s.spdm[o]) ∧
   Only [.spdm, .out] s t) ∧
  (req.headD 0 = 0x13 → (k.version → k.caps = false → Runs (.spdmGetCapabilities ep req) s fun t =>
   t.out = s.shows ep (.spdm ep.val spdmCapsLayout) ∧ t.spdm[ep].caps ∧ Only [.spdm, .out] s t) ∧ (k.version = false ∨ k.caps →
   exec (.spdmGetCapabilities ep req) s = .next { s with out := s.shows ep (.spdm ep.val (spdmError 0x04 0)) }) ∧ (k.caps →
   k.algos = false → spdmOffers (m 0xE3) → Runs (.spdmNegotiateAlgorithms ep req) s fun t =>
   t.out = s.shows ep (.spdm ep.val spdmAlgosLayout) ∧ t.spdm[ep].algos ∧ Only [.spdm, .out] s t) ∧ (k.algos →
   (Runs (.spdmGetDigests ep req) s fun t => t.out = s.shows ep (.spdm ep.val (spdmHead 0x01 1 1 ++ sha384 spdmChain)) ∧
   Only [.spdm, .out] s t) ∧ ((req.getD 2 0).toNat % 16 = 0 → leNat ((req.drop 4).take 2) < spdmChain.length →
   Runs (.spdmGetCertificate ep req) s fun t => t.out = s.shows ep (.spdm ep.val (spdmCertLayout req)) ∧ Only [.spdm, .out] s t) ∧
   (∀ h, 44 ≤ req.length → req.getD 2 0 = 0 → s.summary ep (req.getD 3 0).toNat = some h →
   let n := s.deviceDraw 32;
   let r := spdmChallengeLayout (m 0x83) n.1 h; Runs (.spdmChallenge ep req) s fun t =>
   t.out = s.shows ep (.spdm ep.val (r ++ (n.2.signIdentity (spdmSigned "responder-challenge_auth signing" 4 (k.vca ++ k.certs ++ m 0x83 ++
   r))).1)) ∧ t.spdm[ep].certs = [] ∧ Only [.spdm, .out, .pool, .devDrbg, .free] s t) ∧
   (((req.getD 3 0).toNat = 0 ∨ s.measBlocks ep (if (req.getD 3 0).toNat = 0xFF then allMeasurements else [(req.getD 3 0).toNat]) ≠ []) →
   let n := s.deviceDraw 32;
   let r := s.spdmMeasLayout ep (m 0xE0) n.1; ((req.getD 2 0).toNat % 2 = 0 → Runs (.spdmGetMeasurements ep req) s fun t =>
   t.out = s.shows ep (.spdm ep.val r) ∧ t.spdm[ep].meas = k.meas ++ m 0xE0 ++ r ∧ Only [.spdm, .out, .pool, .devDrbg, .free] s t) ∧
   ((req.getD 2 0).toNat % 2 = 1 → 45 ≤ req.length → (req.getD 36 0).toNat % 16 = 0 → Runs (.spdmGetMeasurements ep req) s fun t =>
   t.out = s.shows ep (.spdm ep.val (r ++ (n.2.signIdentity (spdmSigned "responder-measurements signing" 6 (k.vca ++ k.meas ++ m 0xE0 ++
   r))).1)) ∧ t.spdm[ep].meas = [] ∧ Only [.spdm, .out, .pool, .devDrbg, .free] s t)))) ∧
  (req.headD 0 ≠ 0x13 → exec (.spdmGetDigests ep req) s = .next { s with out := s.shows ep (.spdm ep.val (spdmError 0x41 0)) }) ∧
  (∀ code, exec (.spdmUnsupportedRequest ep code) s = .next { s with out := s.shows ep (.spdm ep.val (spdmError 0x07 (code % 256))) })

/-- The management port answers MCTP, PLDM and I3C requests (R498, R508). Model's choices: PLDM responses, GETSTATUS, BCR, DCR and the
manufacturer ID are free values or opaque (log 110); what the target starts with (log 6); a request of the wrong length is BAD_LENGTH (log
109); bit 0 of ENEC and DISEC stands for in-band interrupts (log 159). -/
def Obligations.ManagementPortAnswers : Prop :=
  ∀ s : State, s.i3c.up → (∀ (a : Nat) (ws : List W64), s.i3c.dynAddr = some a → exec (.mctpLogRead ws) s = .next { s with
     out := s.shows i3cEndpoint (.mctp (if ws.length = 2 then w64 (s.readLog 509 ws).1.code :: (s.readLog 509 ws).2 else [w64
         Status.badLength.code])) }) ∧
  (∀ (a : Nat) (ws : List W64), s.i3c.dynAddr = some a → exec (.mctpLifetimeRead ws) s = .next { s with
     out := s.shows i3cEndpoint (.mctp (if ws.length = 1 then w64 (s.readLifetime ws).1.code :: (s.readLifetime ws).2 else [w64
         Status.badLength.code])) }) ∧
  (∀ (a : Nat) req, s.i3c.dynAddr = some a → Runs (.pldmRequest req) s fun t => ∃ b, t.out = s.shows i3cEndpoint (.pldm b) ∧
   Only [.out, .free] s t) ∧
  (s.i3c.dynAddr = none → (∀ ws, exec (.mctpLogRead ws) s = .next s ∧ exec (.mctpLifetimeRead ws) s = .next s) ∧
   ∀ req, exec (.pldmRequest req) s = .next s) ∧
  (∀ a : Nat, s.i3c.dynAddr = none → a < 128 → (Runs (.entdaa a) s fun t => t.i3c = { s.i3c with dynAddr := some a } ∧
   t.out = .i3c (provisionedId ++ [Config.i3cBcr, Config.i3cDcr]) :: s.out ∧ Only [.i3c, .out] s t) ∧
   exec (.setdasa 0x2C a) s = .next { s with i3c := { s.i3c with dynAddr := some a } } ∧ (∀ static, static ≠ 0x2C →
   exec (.setdasa static a) s = .next s)) ∧
  (∀ b a : Nat, s.i3c.dynAddr = some b → exec (.entdaa a) s = .next s ∧ exec (.setdasa 0x2C a) s = .next s) ∧
  exec .rstdaa s = .next { s with i3c := { s.i3c with dynAddr := none } } ∧
  (∀ a : Nat, s.i3c.dynAddr = some a → exec (.getpid a) s = .next (s.emit (.i3c provisionedId)) ∧
   exec (.getbcr a) s = .next (s.emit (.i3c [Config.i3cBcr])) ∧ exec (.getdcr a) s = .next (s.emit (.i3c [Config.i3cDcr])) ∧
   exec (.getmwl a) s = .next (s.emit (.i3c (beBytes 2 s.i3c.mwl))) ∧ exec (.getmrl a) s = .next (s.emit (.i3c (beBytes 2 s.i3c.mrl))) ∧
   (Runs (.getstatus a) s fun t => ∃ b, t.out = .i3c b :: s.out ∧ b.length = 2 ∧ Only [.out, .free] s t) ∧ (∀ x, x ≠ a →
   exec (.getpid x) s = .next s)) ∧
  (∀ a mask : Nat, (a = 0x7E ∨ s.i3c.dynAddr = some a) → mask < 256 → (Runs (.enec a mask) s fun t => (∀ i, i < 8 →
   t.i3c.events.testBit i = (s.i3c.events.testBit i || mask.testBit i)) ∧ t.i3c.dynAddr = s.i3c.dynAddr ∧ Only [.i3c] s t) ∧
   (Runs (.disec a mask) s fun t => (∀ i, i < 8 → t.i3c.events.testBit i = (s.i3c.events.testBit i && !mask.testBit i)) ∧
   t.i3c.dynAddr = s.i3c.dynAddr ∧ Only [.i3c] s t))

/-- JTAG shifts BYPASS, IDCODE and the boundary scan (R341, R512). Model's choices: a locked boundary-scan instruction selects BYPASS, and the
pins come as operands (log 111); the length of the chain is left to the sender (log 112). -/
def Obligations.JtagShifts : Prop :=
  ∀ (s : State) (pins tdi : List Bool), s.boot.phase ≠ .off → s.boot.phase ≠ .tripped →
   exec (.bypass tdi) s = .next ({ s with debugAccess := { s.debugAccess with jtag := .bypass } }.emit (.jtag ((false :: tdi).take
   tdi.length))) ∧
  exec (.idcode tdi) s = .next ({ s with debugAccess := { s.debugAccess with jtag := .idcode } }.emit (.jtag (((List.range 32).map (fun i =>
   Nat.testBit 0x1903286B i) ++ tdi).take tdi.length))) ∧
  (∀ (e : List Bool → List Bool → Instr) (j : JtagInstr), (e, j) ∈ [(Instr.extest, JtagInstr.extest), (.samplePreload, .samplePreload),
   (.extestPulse, .extestPulse), (.extestTrain, .extestTrain)] → (s.debugAccess.unlocked →
   exec (e pins tdi) s = .next ({ s with debugAccess := { s.debugAccess with jtag := j, boundary := tdi } }.emit (.jtag ((pins ++ tdi).take
   tdi.length)))) ∧ (s.debugAccess.unlocked = false → exec (e pins tdi) s = exec (.bypass tdi) s))

/-- Service turns and RTP turns come in their rotation and serve their channel alone (R313, R317, R344, R427, R518). Model's choices: the turn a
row takes is the one under way or the next, counted from the moment the mailbox became ready (log 14). -/
def Obligations.TurnsServeTheirChannels : Prop :=
  (∀ (s : State) (ch : Fin 17), s.mailboxReady → s.boot.readyAt ≤ s.clock → ∀ h, s.chans[ch].held = some h → h.why.retried = false →
   (∀ e, h.why ≠ .resetAsync e ∧ h.why ≠ .resetReply e) →
   let per := (if ch.val % 4 = 0 then 40000 else 32000) * 24; Runs (.serviceTurn ch) s fun t => t = { s with clock := t.clock } ∧
   s.clock ≤ t.clock ∧ t.clock ≤ s.clock + per ∧ s.boot.readyAt + ch.val / 4 * (8000 * 24) ≤ t.clock ∧
   (t.clock - (s.boot.readyAt + ch.val / 4 * (8000 * 24))) % per < 8000 * 24) ∧
  (∀ (s : State) (ch : Fin 17) (c : Cmd), onlyWaits s ch 0x0102 c → passes s ch 0x0102 c → Runs (.serviceTurn ch) s fun t =>
   OnlyChannel { s with clock := t.clock } t ch ∧ ∃ w2, t.chans[ch].replies = s.chans[ch].replies ++ [replyPacket ch.val (mkReq s ch 0x0102
   c) .ok [w64 ((if ch = 0 then s.activeMask * 2 ^ 48 + b2n s.rngAlarm * 2 ^ 10 else 0) + b2n s.power.throttle.isSome * 2 ^ 9 + b2n
   s.power.hold.isSome * 2 ^ 8 + s.chState ch), w64 s.nvm.life.seconds, intW s.nvm.life.utc, w2]] ∧ (ch ≠ 0 → w2 = 0) ∧
   t.chans[ch].waiting = [] ∧ t.chans[ch].seqExpect = (s.chans[ch].seqExpect + 1) % 2 ^ 64) ∧
  (∀ (s : State) (ch : Fin 17) (op : Nat), s.mailboxReady → s.boot.readyAt ≤ s.clock →
   let per := (if ch.val % 4 = 0 then 40000 else 32000) * 24;
   let first := s.boot.readyAt + ch.val / 4 * (8000 * 24);
   let t := (s.inTurn ch op).clock; s.clock ≤ t ∧ first ≤ t ∧ (t - first) % per < 8000 * 24 ∧ (op < 0x0204 → t ≤ s.clock + per)) ∧
  (∀ s : State, s.mailboxReady → (s.pannier.map Prod.fst).Nodup → Runs (.rtpTurn 17) s fun t => s.clock ≤ t.clock ∧
   (∀ e ∈ State.overdue { s with clock := t.clock } 5, ∃ m, m.length = e.2.1.shareA.length ∧
   t.keySlot e.1 = some { e.2.1.reshare m with remaskAt := e.2.1.remaskAt + e.2.2 }) ∧
   (∀ slot, slot ∉ (State.overdue { s with clock := t.clock } 5).map (·.1) → t.keySlot slot = s.keySlot slot) ∧
   Only [.clock, .pannier, .pool, .devDrbg, .free] s t) ∧
  (∀ (s : State) (n : Fin 16) (r : Req) (loc : Nat) (k : KeySlot), s.mailboxReady → ∀ ch, ch = vf n → ∀ p, p = chanPart ch →
   s.chans[ch].held = some ⟨r, .slotUse loc⟩ → s.parts[p].st = .active → r.op = 0x0404 → r.payload = [w64 loc] → r.discard = false →
   s.chans[ch].unplaced = [] → s.chans[ch].rplLevel ≤ 8192 → 16 ≤ loc → loc ≤ 239 → s.keySlot (partSlot p loc) = some k →
   s.slotInUse p loc = false → Runs (.rtpTurn (Fin.ofNat 18 ch.val)) s fun t => t.pannier = Table.del s.pannier (partSlot p loc) ∧
   t.parts[p].log.count = s.parts[p].log.count + 1 ∧ t.chans[ch].held = none ∧
   t.chans[ch].replies = s.chans[ch].replies ++ [replyPacket ch.val r .ok []] ∧ InPart p [.clock, .chans, .out, .pannier] s t)

/-- Waiting replies are appended once they fit, ASYNC commands finish, and a function-level reset clears its channel (R409, R420, R428, R431,
R434). Model's choices: ASYNC_COMMAND_FINISH runs the oldest unfinished command that can finish (log 15). -/
def Obligations.RepliesAndFunctionResets : Prop :=
  (∀ (s : State) (ch : Fin 17) (pkt : List W64) (rest : List (List W64)), s.chans[ch].unplaced = pkt :: rest →
   ((∀ h, s.chans[ch].held = some h → ∀ e, h.why ≠ .resetAsync e ∧ h.why ≠ .resetReply e) →
   ((s.chans[ch].replies.map List.length).sum + pkt.length ≤ 16384 → Runs (.pendingReplyAppended ch) s fun t => OnlyChannel s t ch ∧
   t.chans[ch].unplaced = rest ∧ t.chans[ch].replies = s.chans[ch].replies ++ [pkt] ∧ t.chans[ch].irqCause.testBit irqReply ∧
   t.chans[ch].held = s.chans[ch].held ∧ t.chans[ch].waiting = s.chans[ch].waiting) ∧
   (16384 < (s.chans[ch].replies.map List.length).sum + pkt.length → exec (.pendingReplyAppended ch) s = .next s)) ∧ (∀ r e, ch = 0 →
   s.pf.held = some ⟨r, .resetReply e⟩ → rest = [] → bits (word r.payload 0) 2 0 = 0 →
   (s.pf.replies.map List.length).sum + pkt.length ≤ 16384 → Runs (.pendingReplyAppended 0) s fun t => t.noPartition ∧
   t.nvm.life.warmResets = s.nvm.life.warmResets + 1 ∧ t.pf.replies = s.pf.replies ++ [pkt])) ∧
  (∀ (s : State) (r : Req) (rest : List Held) (body : List Byte) (ws : List W64), s.pf.asyncs = ⟨r, .retry⟩ :: rest → s.pf.held = none →
   s.pf.unplaced = [] → s.pf.rplLevel ≤ 8192 → r.op = 0x0801 → r.async → r.last → r.chain = none → r.discard = false →
   r.payload = w64 body.length :: 0 :: ws → body.length ≤ 1048576 → ws.length = ceilDiv body.length 8 →
   (wordsToBytes ws).take body.length = body → ((wordsToBytes ws).drop body.length).any (· != 0) = false → (bodyOk tandemOk body →
   s.boot.cfgSlot < 2 → s.nvm.cfg.length = 2 → s.nvm.cfgWorn.contains (1 - s.boot.cfgSlot) = false →
   let seq := (s.activeRecord.map ConfigRec.seq).getD 0 + 1; seq < 2 ^ 64 → Runs (.asyncCommandFinish 0) s fun t => t.pf.asyncs = rest ∧
   t.pf.replies = s.pf.replies ++ [replyPacket 0 r .ok (w64 seq :: bytesToWords 6 (sha384 body))] ∧
   t.nvm.cfg.getD (1 - s.boot.cfgSlot) none = some (.made seq body (Crypto.scalarOf (s.deviceDraw 56).1)) ∧
   t.boot.cfgSlot = 1 - s.boot.cfgSlot ∧ t.pf.seqExpect = s.pf.seqExpect) ∧ (bodyOk tandemOk body = false →
   Runs (.asyncCommandFinish 0) s fun t => t.pf.asyncs = rest ∧ t.pf.replies = s.pf.replies ++ [replyPacket 0 r .badParam []] ∧
   t = { s with clock := t.clock, chans := t.chans, out := t.out } ∧ ∀ j, j ≠ (0 : Fin 17) → t.chans[j] = s.chans[j])) ∧
  (∀ s ch, State.reachable s ch → Runs (.functionLevelReset ch) s fun t => t = { s with chans := t.chans } ∧ (∀ j, j ≠ ch →
   t.chans[j] = s.chans[j]) ∧ t.chans[ch].partialCmd = [] ∧ t.chans[ch].waiting = [] ∧ t.chans[ch].replies = [] ∧
   t.chans[ch].unplaced = [] ∧ t.chans[ch].events = [] ∧ t.chans[ch].cmdLost = false ∧ t.chans[ch].irqCause = 0 ∧ t.chans[ch].irqMask = 31 ∧
   t.chans[ch].chain = none ∧ t.chans[ch].seqExpect = s.chans[ch].seqExpect ∧ t.chans[ch].eseq = s.chans[ch].eseq ∧ (s.boot.phase = .ready →
   (ch = 0 ∨ (s.own ch).st ≠ .absent) → t.credits ch = 16384) ∧ (∀ h, s.chans[ch].held = some h → ∃ g, t.chans[ch].held = some g ∧
   g.why = h.why ∧ g.req = { h.req with discard := true }) ∧ (∀ g ∈ t.chans[ch].asyncs, g.req.discard) ∧
   t.chans[ch].asyncs.length = s.chans[ch].asyncs.length ∧ t.chans[ch].counts = setAt s.chans[ch].counts 30 (satAdd (2 ^ 64 - 1)
   (s.chans[ch].counts.getD 30 0) s.chans[ch].events.length))

/-- Barriers of a tandem group are entered, released and failed (R280, R401, R402, R405). Model's choices: BAR_FAIL names the first position
whose digest differs, and every member posts and logs it (log 55); entries of two generations stand side by side, and one that comes after
the decision is held (log 58). -/
def Obligations.TandemBarriersRun : Prop :=
  (∀ s l f g me b (p : Fin 16), Arrives s l f g me → f.dst = me → s.ofBinding g me f.binding = some (b, p) → b.id = f.binding →
   (∀ r, me = b.root → b.members.contains f.src → s.barRound b.id f.arg0 = r →
   let es := Table.put r.entered (f.arg0 * 16 + f.src) (f.payload.take 48); Runs (.barEnter l f) s fun t => (r.release = none →
   (∃ m, m ∈ b.members ∧ m ≠ f.src ∧ r.has f.arg0 m = false) → Table.get? t.tandem.rounds b.id = some
   { r with entered := es, gen := f.arg0 } ∧ Only [.links, .tandem, .out] s t) ∧ (r.release = none →
   (∀ m ∈ b.members, Table.get? es (f.arg0 * 16 + m) = some s.configDigest) → Table.get? t.tandem.rounds b.id = some { r with
     entered := es, gen := f.arg0,
     release := some ((s.acked l f).groupTime + ((b.members.filter (fun m => m != me)).map (fun m =>
         (s.acked l f).routeDelay g me m)).foldl Nat.max 0 + 64) } ∧ Only [.links, .tandem, .out] s t) ∧ (r.release.isSome →
   Table.get? t.tandem.rounds b.id = some { r with entered := es } ∧ t.chans = (s.count (vf p) .barHeld 1).chans ∧
   Only [.chans, .links, .tandem, .out] s t)) ∧ (∀ r, s.bindState f.binding ≠ .down → f.src = b.root →
   Table.get? s.tandem.rounds b.id = some r → r.has r.gen me → Runs (.barRelease l f) s fun t =>
   Table.get? t.tandem.rounds b.id = some { r with release := some f.arg0 } ∧ Only [.links, .tandem, .out] s t) ∧
   (s.bindState f.binding ≠ .down → f.src = b.root → Runs (.barFail l f) s fun t => t.bindState b.id = .skewed ∧
   t.nvm = (s.log 0x0503 5 [w64 (f.arg0 * 2 ^ 8 + b.id)]).nvm ∧ PfPosts s t ∧ (∀ q : Fin 16, b.local? me ≠ some q →
   t.parts[q] = s.parts[q]) ∧ Only [.nvm, .chans, .parts, .links, .tandem, .out] s t)) ∧
  (∀ (s : State) (bid p : Fin 16) (g : GroupDesc) (me x : Nat) (b : BindDesc) (r : BarRound), s.member = some (g, me) →
   s.bound g me bid.val = some (b, p) → b.id = bid.val → Table.get? s.tandem.rounds bid.val = some r → (∀ n y, r.release = some x →
   (s.advance (s.clockOfGroup x)).taskCycle p = some n → s.lastEntry p = some y → Runs (.tandemReleaseTime bid) s fun t =>
   At (s.clockOfGroup x) s t ∧ t.parts[p].job.bar = ⟨!s.parts[p].job.bar.gen, []⟩ ∧ (∃ w, t.parts[p].job.running = some w ∧
   w.tickBase = n) ∧ (r.next t.clock = none → Table.get? t.tandem.rounds bid.val = none) ∧ InTask p [.tandem] s t) ∧ (me = b.root →
   r.release = none → r.heldReported = false → Runs (.barrierHeldLong bid) s fun t => At (r.since + ms) s t ∧
   Table.get? t.tandem.rounds bid.val = some { r with heldReported := true } ∧
   t.nvm = ((s.advance (r.since + ms)).log 0x0504 5 [w64 (listMask (b.members.filter (fun m => !r.has r.gen m)) * 2 ^ 16 + b.id)]).nvm ∧
   Only [.clock, .nvm, .chans, .links, .tandem, .out] s t)) ∧
  (∀ (s : State) (p : Fin 16) (r : Running) (x : Nat) (g : GroupDesc) (me : Nat) (b : BindDesc), s.parts[p].job.running = some r →
   s.lastEntry p = some x → s.bindsOf p = [b] → s.member = some (g, me) → r.stopped x = false → s.bindState b.id = .active → me ≠ b.root →
   Table.get? s.tandem.rounds b.id = none → Runs (.barrierComplete p) s fun t => ∃ y, At (r.clockOf x) s t ∧
   Table.get? t.tandem.rounds b.id = some y ∧ y.gen = b2n s.parts[p].job.bar.gen ∧
   Table.get? y.entered (b2n s.parts[p].job.bar.gen * 16 + me) = some s.configDigest ∧ y.release = none ∧ t.parts = s.parts ∧
   Only [.clock, .links, .tandem, .out] s t)

/-- Tandem frames act at the member they are for and are relayed by any other (R269, R283, R397, R399, R405). Model's choices: a withheld block
is refused at its first page with a mark of the model's own (logs 56 and 139); a frame of a binding goes behind those of its pair that a
link still holds (log 155). -/
def Obligations.TandemFramesAct : Prop :=
  ∀ s l f g me, Arrives s l f g me → (f.dst = me → ∀ b p, s.bound g me f.binding = some (b, p) →
   (∀ ctr, s.parts[p].counterRef (f.arg0 / 2 ^ 43 % 32) (f.arg0 / 2 ^ 32 % 2048) = some ctr → (1 ≤ f.arg1 → f.arg1 ≤ 65536 →
   Runs (.signal l f) s fun t => t.parts[p].onItsWay ctr = s.parts[p].onItsWay ctr + f.arg1 ∧ InPart p [.links, .out] s t) ∧
   (∀ m, (s.acked l f).linkFor g me me f.src f.binding = some m → Runs (.counterRead l f) s fun t => Sends m s t fun x => x.kind = 11 ∧
   x.dst = f.src ∧ x.arg0 = f.arg0 ∧ x.payload = padTo 64 (leBytes 8 (((s.acked l f).toTick p).counter ctr).value) ∧
   t.clock = (s.toTick p).clock ∧ InTask p [.links, .out] s t)) ∧ (∀ x ctr, b.ports[f.arg1]? = some x →
   s.parts[p].counterRef (x.arrive / 2048) (x.arrive % 2048) = some ctr → x.dst = me → x.src = f.src → x.dstAddr ≤ f.arg0 →
   f.arg0 + 4096 ≤ x.dstAddr + x.blocks * x.pages * 4096 → f.arg0 % 4096 = 0 → f.arg0 + 4096 ≤ s.parts[p].dramSize →
   let u := (s.acked l f).syncDram p;
   let i := x.pageOf f.arg0;
   let n := if i = 0 then 1 else (Table.get? s.tandem.received (b.id * 32 + f.arg1)).getD 0 + 1; Runs (.data l f) s fun t =>
   (s.parts[p].portOwned x = false → t.parts[p].dram = u.parts[p].dram.writeN f.arg0 (padTo 4096 f.payload) ∧
   (i + 1 < x.pages ∨ n < x.pages → Table.get? t.tandem.received (b.id * 32 + f.arg1) = some n ∧
   t.parts[p].onItsWay ctr = u.parts[p].onItsWay ctr) ∧ (x.pages ≤ i + 1 → x.pages ≤ n →
   Table.get? t.tandem.received (b.id * 32 + f.arg1) = none ∧ t.parts[p].onItsWay ctr = u.parts[p].onItsWay ctr + 1)) ∧
   (s.parts[p].portOwned x → t.parts = s.parts ∧ Table.get? t.tandem.received (b.id * 32 + f.arg1) = none ∧ (∀ m, i = 0 →
   (s.acked l f).linkFor g me me f.src f.binding = some m → Sends m s t fun y => y.kind = 9 ∧ y.dst = f.src ∧ y.arg1 = withheldMark)) ∧
   t.clock = s.clock ∧ InTask p [.links, .tandem, .out] s t)) ∧
  (∀ m, f.dst = me → s.bound g me f.binding = none → (s.acked l f).linkFor g me me f.src f.binding = some m → Runs (.signal l f) s fun t =>
   Sends m s t fun x => x.kind = 9 ∧ x.dst = f.src ∧ x.binding = f.binding ∧ x.arg0 = f.arg0 ∧ x.arg1 = 2 ∧ Only [.links, .out] s t) ∧
  (∀ p, f.dst = me → (g.binds.find? (fun b => b.id == f.binding)).bind (fun b => b.local? me) = some p → Runs (.refuse l f) s fun t =>
   (f.arg1 = withheldMark → t.chans = (s.count (vf p) .syncBlocked 1).chans) ∧ (f.arg1 ≠ withheldMark →
   t.chans = ((s.count (vf p) .syncBlocked 1).postPart p 0x0530 .wrongPartition [w64 (counterWord (f.arg0 / 2 ^ 43 % 32) (f.arg0 / 2 ^ 32 %
   2048) + l.val)]).chans) ∧ Only [.chans, .links, .out] s t) ∧
  (f.dst = me → Runs (.counterValue l f) s fun t => t.links[l].bin.seqRx = (s.links[l].bin.seqRx + 1) % 2 ^ 32 ∧ Only [.links, .out] s t) ∧
  (∀ m, f.dst ≠ me → f.hops < 15 → (s.acked l f).linkFor g me f.src f.dst f.binding = some m → Runs (.signal l f) s fun t =>
   Sends m s t fun x => x = { f with kind := 2, hops := f.hops + 1, seq := s.links[m].bin.seqTx } ∧ Only [.links, .out] s t)

/-- Forms that a rule treats apart: other widths, refusals, faults and commands that find nothing to do (R29, R67, R120, R134, R135, R160, R166,
R172, R408, R410, R416, R419, R507). -/
def Obligations.FormsThatStandApart : Prop :=
  (∀ s ch c (tag : Nat) (e : EndedRound), takes s ch 0x0307 c → tag < 2 ^ 11 → c.payload = [w64 tag, 0] →
   s.round? (chanPart ch) tag = none → (s.own ch).rnd.ended.find? (fun e => e.tag == tag) = some e → e.summary.length ≤ 9 →
   Answers (.roundStatusSummary ch c) s ch 0x0307 c .ok e.summary) ∧
  (∀ s ch (width : Nat) (w : W64), State.reachable s ch → (width ≠ 8 ∨ s.chans[ch].cmdLost ∨ s.credits ch = 0) →
   Runs (.mbxCmdDataWrite ch width w) s fun t => OnlyChannel s t ch ∧ t.chans[ch].cmdLost ∧
   t.chans[ch].partialCmd = s.chans[ch].partialCmd ∧ t.chans[ch].waiting = s.chans[ch].waiting ∧ t.chans[ch].irqCause.testBit irqError ∧
   t.chans[ch].counts = setAt s.chans[ch].counts (Count.pos .cmdWordsLost) (satAdd (2 ^ 64 - 1) (s.chans[ch].counts.getD (Count.pos
   .cmdWordsLost) 0) 1)) ∧
  (∀ s ch, State.reachable s ch → (∀ width, width ≠ 8 → exec (.mbxRplDataRead ch width) s = .next (s.emit (.readData 0)) ∧
   exec (.mbxEvtDataRead ch width) s = .next (s.emit (.readData 0)) ∧ exec (.mbxRplStatusRead ch width) s = .next (s.emit (.readData 0)) ∧
   exec (.mbxEvtStatusRead ch width) s = .next (s.emit (.readData 0)))) ∧
  (∀ s ch (i : Nat) (w : W64), State.reachable s ch → i < 5 → s.chans[ch].msix.length = 5 →
   Runs (.registerWrite ch .bar0 (0x8000 + 16 * i) 8 w) s fun t => ∃ e, t.chans[ch].msix[i]? = some e ∧ e.addr = w ∧
   t = { s with chans := t.chans, out := t.out } ∧ t.chans[ch].irqCause = s.chans[ch].irqCause) ∧
  (∀ (s : State) (p : Fin 16) (tag i due : Nat) (r : Round) (x : ClosedRange), s.round? p tag = some r → r.range? i = some x →
   x.deadline = some due → r.ending = none → s.supplyPending p tag due →
   exec (.recoveryDeadline p tag i) s = .next ((s.advance due).modRound p tag (fun r => r.modRange i (fun x =>
   { x with overdue := true })))) ∧
  (∀ (s : State) (p : Fin 16), s.mayDispatch p = false → exec (.taskDispatch p) s = .next s) ∧
  (∀ s i, (Issues s 2 1 3 i → (i.core s).eng.tensor → Runs (.ringAdd i.c i.k) s fun t => Faults s t i 2 .badParam 4 0) ∧ (Issues s 2 2 5 i →
   (i.core s).eng.tensor = false → Runs (.tnZero i.c i.k) s fun t => Faults s t i 2 .badParam 4 0) ∧ (∀ kind a, Issues s 2 1 3 i →
   (i.core s).eng.tensor = false → badOperands (rangesDAB i s) = some (kind, a) → Runs (.ringAdd i.c i.k) s fun t =>
   Faults s t i 2 .badParam kind a)) ∧
  (∀ (w : List W64) (q psi l mu pi : Nat) (ns : List Nat), entrySlot w = .valid q psi l mu pi ns → q = bits (word w 0) 60 0 ∧
   psi = bits (word w 1) 60 0 ∧ l = bits (word w 2) 4 0 ∧ mu = 2 ^ (2 * (Nat.log2 q + 1)) / q ∧ psi * pi % q = 1 ∧ ∀ n, 11 ≤ n → n ≤ l →
   2 ^ n * ns.getD (n - 11) 0 % q = 1) ∧
  (∀ (s : State) (width : Nat), width < 1000 → exec (.resetNAssert width) s = .next s) ∧
  (∀ (s : State) (site : Fin 36), (leastBelow 32 (fun c => s.nvm.siteMap.getD c 36 == site.val) = none →
   exec (.siteDefectDetected site) s = .next s) ∧ (∀ c, leastBelow 32 (fun c => s.nvm.siteMap.getD c 36 == site.val) = some c →
   s.ownerOf c = none → exec (.siteDefectDetected site) s = .next s))

/-- The first row of R426 that holds decides a command, and refuses it with no effect (R347, R425, R426). -/
def Obligations.EnvelopeDecidesInOrder : Prop :=
  (∀ (s : State) (ch : Fin 17) (op : Nat) (c : Cmd) (i : Nat) (st : Status), onlyWaits s ch op c →
   (envelope s ch op c)[i]? = some (true, st) → (∀ j < i, ((envelope s ch op c)[j]?.map Prod.fst) = some false) → ¬ (i = 7 ∧ op = 0x0204 ∧
   (s.own ch).st = .creating) → Runs (.serviceTurn ch) s fun t => OnlyChannel { s with clock := t.clock } t ch ∧ s.clock ≤ t.clock ∧
   t.chans[ch].replies = s.chans[ch].replies ++ [[w64 (c.seq * 2 ^ 48 + op * 2 ^ 16 + st.code), w64 c.partition]] ∧
   t.chans[ch].seqExpect = (if i = 0 then s.chans[ch].seqExpect else (s.chans[ch].seqExpect + 1) % 2 ^ 64) ∧ t.chans[ch].waiting = [] ∧
   t.chans[ch].held = none ∧ t.chans[ch].irqCause.testBit irqReply) ∧
  (∀ (s : State) (ch : Fin 17) (c : Cmd), onlyWaits s ch 0x0204 c → ch ≠ 0 → (s.own ch).st = .creating →
   (∀ j < 7, ((envelope s ch 0x0204 c)[j]?.map Prod.fst) = some false) → Runs (.serviceTurn ch) s fun t =>
   OnlyChannel { s with clock := t.clock } t ch ∧ t.chans[ch].replies = s.chans[ch].replies ∧ t.chans[ch].waiting = [] ∧
   t.chans[ch].held = some ⟨mkReq { s with clock := t.clock } ch 0x0204 c, .retry⟩ ∧
   t.chans[ch].seqExpect = (s.chans[ch].seqExpect + 1) % 2 ^ 64) ∧
  (∀ (s : State) (ch : Fin 17) (r : Req), s.mailboxReady → ch ≠ 0 → s.chans[ch].held = some ⟨r, .retry⟩ → s.chans[ch].asyncs = [] →
   r.op = 0x0204 → (s.own ch).st = .creating → Runs (.serviceTurn ch) s fun t => t = { s with clock := t.clock }) ∧
  (∀ (s : State) (ch : Fin 17) (r : Req), s.mailboxReady → ch ≠ 0 → s.chans[ch].held = some ⟨r, .retry⟩ → s.chans[ch].waiting = [] →
   s.chans[ch].unplaced = [] → s.chans[ch].rplLevel ≤ 8192 → r.op = 0x0204 → (s.own ch).st = .active → r.payload.length ≠ 29 →
   r.discard = false → Runs (.serviceTurn ch) s fun t => OnlyChannel { s with clock := t.clock } t ch ∧ t.chans[ch].held = none ∧
   t.chans[ch].replies = s.chans[ch].replies ++ [replyPacket ch.val r .badLength []])

/-- What reset leaves, and what a step does with an empty queue (the model's choices 2 and 3 among it) (R9, R23, R299, R312, R416, R417, R450).
-/
def Obligations.IdleAndReset : Prop :=
  (∀ s : State, s.pending = [] → step s = .next { s with clock := s.clock + 960 }) ∧
  (State.reset.pending = [] ∧ State.reset.pannier = [] ∧ State.reset.rngAlarm = false ∧ State.reset.debugAccess.unlocked = false ∧
   State.reset.boot.phase = .off ∧ State.reset.boot.numVfs = 0 ∧ State.reset.boot.bme = List.replicate 17 false ∧
   State.reset.power.budget = 1500 ∧ State.reset.power.throttle = none ∧ State.reset.power.hold = none ∧ State.reset.nvm.antiRollback = 0 ∧
   State.reset.nvm.revoked = 0 ∧ State.reset.tandem.binds = [] ∧ (∀ ch : Fin 17, (State.reset.chans[ch]).irqMask = 31 ∧
   (State.reset.chans[ch]).irqCause = 0 ∧ (State.reset.chans[ch]).seqExpect = 0 ∧ (State.reset.chans[ch]).replies = [] ∧
   (State.reset.chans[ch]).events = [] ∧ (State.reset.chans[ch]).partialCmd = [] ∧ (State.reset.chans[ch]).waiting = [] ∧
   (State.reset.chans[ch]).cmdLost = false ∧ (State.reset.chans[ch]).held = none ∧ (∀ e ∈ (State.reset.chans[ch]).msix, e.masked)) ∧
   (∀ p : Fin 16, (State.reset.parts[p]).st = .absent ∧ (State.reset.parts[p]).dram = []) ∧
   (∀ b : Fin 18, (State.reset.banks[b]).src0.st = .startup ∧ (State.reset.banks[b]).src1.st = .startup) ∧
   (∀ l : Fin 24, (State.reset.links[l]).st = .down ∧ (State.reset.links[l]).mode = 0) ∧
   (∀ c : Fin 32, ((State.reset.clusters[c]).cores.toList.all (fun k => k.loc.isEmpty))))

/-- An instruction that issues sees the results that are due and no others (R128, R142, R225, R271). Model's choices: instructions of different
cores come in the sender's order, each at its own task cycle (log 60). -/
def Obligations.IssueLandsOnlyDueResults : Prop :=
  ∀ (s : State) (slot cls op : Nat) (i : Issue), Issues s slot cls op i → (s.atIssue i slot).clock = Nat.max s.clock (i.r.clockOf i.t) ∧
  (∀ (c : Fin 32) (k : Fin 8),
   let x := s.core c k;
   let y := (s.atIssue i slot).core c k; y.a = x.a ∧ y.l = x.l ∧ y.active = x.active ∧ y.ended = x.ended ∧ y.wait = x.wait ∧
   y.code = x.code ∧ y.ksPrg = x.ksPrg ∧ y.ksKey = x.ksKey ∧ y.fence = x.fence ∧ y.external = x.external ∧ y.eng.slots = x.eng.slots ∧
   y.eng.block = x.eng.block ∧ y.eng.tensor = x.eng.tensor ∧ y.moves.length = x.moves.length ∧ (¬(c = i.c ∧ k = i.k) → y.ptr = x.ptr ∧
   ((∀ m ∈ x.moves, m.store = false) → (∀ j ∈ s.clusters[c].der.jobs, j.load.isSome) → y.loc = x.loc ∧ y.eng = x.eng))) ∧
  (∀ c : Fin 32, c ≠ i.c → (∀ k : Fin 8, ∀ m ∈ (s.core c k).moves, m.store = false) → (∀ j ∈ s.clusters[c].der.jobs, j.load.isSome) →
   ((s.atIssue i slot).clusters[c]).shared = s.clusters[c].shared) ∧
  (∀ c : Fin 32, ((s.atIssue i slot).clusters[c]).der.tickets = s.clusters[c].der.tickets ∧
   ((s.atIssue i slot).clusters[c]).der.jobs.map (fun j => { j with spoiled := false, load := none }) = s.clusters[c].der.jobs.map (fun j =>
   { j with spoiled := false, load := none }) ∧ ((∀ j ∈ s.clusters[c].der.jobs, j.load.isSome) →
   ((s.atIssue i slot).clusters[c]).drbg = s.clusters[c].drbg ∧ ((s.atIssue i slot).clusters[c]).reseedBuf = s.clusters[c].reseedBuf)) ∧
  InTask i.p [] s (s.atIssue i slot)

/-- No step lowers the anti-rollback counter or returns a revoked signer (R339, R485). Model's choices: how power cuts a write of the fuses
short (log 144). -/
def Obligations.FusesNeverReturn : Prop :=
  ∀ s t : State, step s = .next t → s.nvm.antiRollback ≤ t.nvm.antiRollback ∧ ∀ k, s.nvm.revoked.testBit k → t.nvm.revoked.testBit k

/-- Every step keeps every reply and event buffer within its size (R410, R420). -/
def Obligations.BuffersNeverOverflow : Prop :=
  ∀ s t : State, (∀ ch : Fin 17, (s.chans[ch].replies.map List.length).sum ≤ 16384 ∧ (s.chans[ch].events.map List.length).sum ≤ 4096) →
   step s = .next t → ∀ ch : Fin 17, (t.chans[ch].replies.map List.length).sum ≤ 16384 ∧
  (t.chans[ch].events.map List.length).sum ≤ 4096
end

