-- ==== Sys2Proof/Laws/Memory.lean ====
section
/-! SUPPORT. The laws of memory (the lists of address and byte that hold DRAM, the core and shared stores and the program stores): every
operation keeps the canonical form, a read after a write to the same address gives the value written, and a write leaves every other
address alone. The same laws hold of the tables the memory is built on. -/

namespace Sys2Proof.Machine

namespace Table

variable {β : Type}

/-- Addresses rise strictly, said without the Bool. -/
theorem sorted_iff (t : Assoc β) : sorted t = true ↔ t.Pairwise (fun x y => x.1 < y.1) := by
  induction t with
  | nil => simp [sorted]
  | cons x t ih =>
    cases t with
    | nil => simp [sorted]
    | cons y t =>
      have e : sorted (x :: y :: t) = (decide (x.1 < y.1) && sorted (y :: t)) := rfl
      rw [e, Bool.and_eq_true, decide_eq_true_eq, ih]
      simp only [List.pairwise_cons]
      constructor
      · rintro ⟨h, hy, ht⟩
        refine ⟨?_, hy, ht⟩
        intro z hz
        rcases List.mem_cons.mp hz with rfl | hz
        · exact h
        · exact Nat.lt_trans h (hy z hz)
      · rintro ⟨hx, hy, ht⟩
        exact ⟨hx y List.mem_cons_self, hy, ht⟩

/-- What an insertion can have put in a table. -/
theorem mem_put (t : Assoc β) (i : Nat) (v : β) (e : Nat × β) (h : e ∈ put t i v) : e = (i, v) ∨ e ∈ t := by
  induction t with
  | nil => simpa [put] using h
  | cons x t ih =>
    simp only [put] at h
    split at h
    · simpa using h
    · split at h
      · rcases List.mem_cons.mp h with h | h
        · exact .inl h
        · exact .inr (List.mem_cons_of_mem _ h)
      · rcases List.mem_cons.mp h with h | h
        · exact .inr (by rw [h]; exact List.mem_cons_self)
        · exact (ih h).imp id (List.mem_cons_of_mem _)

/-- An insertion keeps a table sorted. -/
theorem sorted_put (t : Assoc β) (i : Nat) (v : β) (h : sorted t = true) : sorted (put t i v) = true := by
  rw [sorted_iff] at *
  induction t with
  | nil => simp [put]
  | cons x t ih =>
    rw [List.pairwise_cons] at h
    simp only [put]
    split
    · rename_i hi
      rw [List.pairwise_cons]
      refine ⟨?_, List.pairwise_cons.mpr h⟩
      intro z hz
      rcases List.mem_cons.mp hz with rfl | hz
      · exact hi
      · exact Nat.lt_trans hi (h.1 z hz)
    · split
      · rename_i hi
        rw [List.pairwise_cons]
        exact ⟨fun z hz => by rw [hi]; exact h.1 z hz, h.2⟩
      · rw [List.pairwise_cons]
        refine ⟨?_, ih h.2⟩
        intro z hz
        rcases mem_put t i v z hz with rfl | hz
        · show x.1 < i
          omega
        · exact h.1 z hz

/-- Leaving entries out keeps a table sorted. -/
theorem sorted_filter (t : Assoc β) (f : Nat × β → Bool) (h : sorted t = true) : sorted (t.filter f) = true := by
  rw [sorted_iff] at *
  exact h.filter f

/-- Reading back what was put. -/
@[simp] theorem get?_put_same (t : Assoc β) (i : Nat) (v : β) : get? (put t i v) i = some v := by
  induction t with
  | nil => simp [put, get?]
  | cons x t ih =>
    simp only [put]
    split
    · simp [get?]
    · split
      · simp [get?]
      · rename_i h1 h2
        simp [get?, h2, ih]

/-- A put leaves every other entry alone. -/
theorem get?_put_other (t : Assoc β) (i j : Nat) (v : β) (h : j ≠ i) : get? (put t i v) j = get? t j := by
  induction t with
  | nil => simp [put, get?, h]
  | cons x t ih =>
    simp only [put]
    split
    · simp [get?, h]
    · split
      · rename_i h1 h2
        simp [get?, ← h2, h]
      · simp only [get?, ih]

/-- Leaving out one address. -/
theorem get?_del (t : Assoc β) (i j : Nat) : get? (del t i) j = if j = i then none else get? t j := by
  induction t with
  | nil => simp [del, get?]
  | cons x t ih =>
    by_cases hx : x.1 = i
    · have e : del (x :: t) i = del t i := by simp [del, hx]
      rw [e, ih]
      by_cases hj : j = i
      · simp [hj]
      · simp [get?, hj, hx]
    · have e : del (x :: t) i = x :: del t i := by simp [del, hx]
      rw [e]
      by_cases hj : j = x.1
      · have : j ≠ i := fun h => hx (by omega)
        simp [get?, hj, hx]
      · simp [get?, hj, ih]

end Table

/-- The canonical form, part by part. -/
theorem Mem.wf_iff (m : Mem) : m.wf = true ↔ Table.sorted m = true ∧ ∀ e ∈ m, e.2 ≠ Mem.absent := by
  simp [Mem.wf]

/-- A write of one byte keeps the canonical form. -/
theorem Mem.wf_write (m : Mem) (a : Nat) (v : Byte) (h : m.wf = true) : (m.write a v).wf = true := by
  rw [Mem.wf_iff] at *
  unfold Mem.write
  split
  · exact ⟨Table.sorted_filter m _ h.1, fun e he => h.2 e (List.mem_filter.mp he).1⟩
  · refine ⟨Table.sorted_put m a v h.1, fun e he => ?_⟩
    rcases Table.mem_put m a v e he with rfl | he
    · assumption
    · exact h.2 e he

/-- A write of several bytes keeps the canonical form. -/
theorem Mem.wf_writeN (bs : List Byte) : ∀ (m : Mem) (a : Nat), m.wf = true → (m.writeN a bs).wf = true := by
  induction bs with
  | nil => exact fun m a h => h
  | cons b bs ih => exact fun m a h => ih _ _ (Mem.wf_write m a b h)

/-- Zeroing a range keeps the canonical form. -/
theorem Mem.wf_zero (m : Mem) (a n : Nat) (h : m.wf = true) : (m.zero a n).wf = true := by
  rw [Mem.wf_iff] at *
  exact ⟨Table.sorted_filter m _ h.1, fun e he => h.2 e (List.mem_filter.mp he).1⟩

/-- A number written byte by byte keeps the canonical form. -/
theorem Mem.wf_writeLE (m : Mem) (a n v : Nat) (h : m.wf = true) : (m.writeLE a n v).wf = true := Mem.wf_writeN _ m a h

/-- A read after a write to the same address. -/
@[simp] theorem Mem.read_write_same (m : Mem) (a : Nat) (v : Byte) : (m.write a v).read a = v := by
  unfold Mem.read Mem.write
  split
  · rename_i h; simp [Table.get?_del, h]
  · simp

/-- A write leaves every other address alone. -/
theorem Mem.read_write_other (m : Mem) (a b : Nat) (v : Byte) (h : b ≠ a) : (m.write a v).read b = m.read b := by
  unfold Mem.read Mem.write
  split
  · simp [Table.get?_del, h]
  · rw [Table.get?_put_other m a b v h]

/-- A write of several bytes leaves every address outside them alone. -/
theorem Mem.read_writeN_other (bs : List Byte) :
    ∀ (m : Mem) (a b : Nat), b < a ∨ a + bs.length ≤ b → (m.writeN a bs).read b = m.read b := by
  induction bs with
  | nil => exact fun m a b _ => rfl
  | cons x bs ih =>
    intro m a b h
    have h' : b < a ∨ a + (bs.length + 1) ≤ b := h
    show ((m.write a x).writeN (a + 1) bs).read b = _
    rw [ih _ _ _ (by omega), Mem.read_write_other m a b x (by omega)]

/-- Every memory of the part after reset has the canonical form: DRAM of the partitions, the shared stores, and each core's two stores. -/
theorem Mem.wf_reset (p : Fin 16) (c : Fin 32) (k : Fin 8) :
    (State.reset.parts[p]).dram.wf = true ∧ (State.reset.clusters[c]).shared.wf = true ∧
    ((State.reset.clusters[c]).cores[k]).loc.wf = true ∧ ((State.reset.clusters[c]).cores[k]).code.wf = true := by
  refine ⟨?_, ?_, ?_, ?_⟩ <;> simp [State.reset, Partition.absent, Cluster.reset, Core.clear, Mem.wf, Table.sorted]

end Sys2Proof.Machine
end

