-- ==== Sys2Proof/Laws/State.lean ====
section
/-! SUPPORT. One lemma per field of the state for each of the named updates of Machine/Ops.lean, and what reading one element of a
vector gives after one was changed. -/

namespace Sys2Proof.Machine

variable (s : State)

/-! ## modPart -/

@[simp] theorem State.modPart_pending (p : Fin 16) (f : Partition → Partition) : (s.modPart p f).pending = s.pending := rfl
@[simp] theorem State.modPart_clock (p : Fin 16) (f : Partition → Partition) : (s.modPart p f).clock = s.clock := rfl
@[simp] theorem State.modPart_boot (p : Fin 16) (f : Partition → Partition) : (s.modPart p f).boot = s.boot := rfl
@[simp] theorem State.modPart_nvm (p : Fin 16) (f : Partition → Partition) : (s.modPart p f).nvm = s.nvm := rfl
@[simp] theorem State.modPart_power (p : Fin 16) (f : Partition → Partition) : (s.modPart p f).power = s.power := rfl
@[simp] theorem State.modPart_chans (p : Fin 16) (f : Partition → Partition) : (s.modPart p f).chans = s.chans := rfl
@[simp] theorem State.modPart_pannier (p : Fin 16) (f : Partition → Partition) : (s.modPart p f).pannier = s.pannier := rfl
@[simp] theorem State.modPart_banks (p : Fin 16) (f : Partition → Partition) : (s.modPart p f).banks = s.banks := rfl
@[simp] theorem State.modPart_pool (p : Fin 16) (f : Partition → Partition) : (s.modPart p f).pool = s.pool := rfl
@[simp] theorem State.modPart_devDrbg (p : Fin 16) (f : Partition → Partition) : (s.modPart p f).devDrbg = s.devDrbg := rfl
@[simp] theorem State.modPart_rngAlarm (p : Fin 16) (f : Partition → Partition) : (s.modPart p f).rngAlarm = s.rngAlarm := rfl
@[simp] theorem State.modPart_debugAccess (p : Fin 16) (f : Partition → Partition) : (s.modPart p f).debugAccess = s.debugAccess := rfl
@[simp] theorem State.modPart_spdm (p : Fin 16) (f : Partition → Partition) : (s.modPart p f).spdm = s.spdm := rfl
@[simp] theorem State.modPart_i3c (p : Fin 16) (f : Partition → Partition) : (s.modPart p f).i3c = s.i3c := rfl
@[simp] theorem State.modPart_links (p : Fin 16) (f : Partition → Partition) : (s.modPart p f).links = s.links := rfl
@[simp] theorem State.modPart_clusters (p : Fin 16) (f : Partition → Partition) : (s.modPart p f).clusters = s.clusters := rfl
@[simp] theorem State.modPart_tandem (p : Fin 16) (f : Partition → Partition) : (s.modPart p f).tandem = s.tandem := rfl
@[simp] theorem State.modPart_out (p : Fin 16) (f : Partition → Partition) : (s.modPart p f).out = s.out := rfl
@[simp] theorem State.modPart_free (p : Fin 16) (f : Partition → Partition) : (s.modPart p f).free = s.free := rfl

/-! ## modChan -/

@[simp] theorem State.modChan_pending (ch : Fin 17) (f : Channel → Channel) : (s.modChan ch f).pending = s.pending := rfl
@[simp] theorem State.modChan_clock (ch : Fin 17) (f : Channel → Channel) : (s.modChan ch f).clock = s.clock := rfl
@[simp] theorem State.modChan_boot (ch : Fin 17) (f : Channel → Channel) : (s.modChan ch f).boot = s.boot := rfl
@[simp] theorem State.modChan_nvm (ch : Fin 17) (f : Channel → Channel) : (s.modChan ch f).nvm = s.nvm := rfl
@[simp] theorem State.modChan_power (ch : Fin 17) (f : Channel → Channel) : (s.modChan ch f).power = s.power := rfl
@[simp] theorem State.modChan_pannier (ch : Fin 17) (f : Channel → Channel) : (s.modChan ch f).pannier = s.pannier := rfl
@[simp] theorem State.modChan_parts (ch : Fin 17) (f : Channel → Channel) : (s.modChan ch f).parts = s.parts := rfl
@[simp] theorem State.modChan_banks (ch : Fin 17) (f : Channel → Channel) : (s.modChan ch f).banks = s.banks := rfl
@[simp] theorem State.modChan_pool (ch : Fin 17) (f : Channel → Channel) : (s.modChan ch f).pool = s.pool := rfl
@[simp] theorem State.modChan_devDrbg (ch : Fin 17) (f : Channel → Channel) : (s.modChan ch f).devDrbg = s.devDrbg := rfl
@[simp] theorem State.modChan_rngAlarm (ch : Fin 17) (f : Channel → Channel) : (s.modChan ch f).rngAlarm = s.rngAlarm := rfl
@[simp] theorem State.modChan_debugAccess (ch : Fin 17) (f : Channel → Channel) : (s.modChan ch f).debugAccess = s.debugAccess := rfl
@[simp] theorem State.modChan_spdm (ch : Fin 17) (f : Channel → Channel) : (s.modChan ch f).spdm = s.spdm := rfl
@[simp] theorem State.modChan_i3c (ch : Fin 17) (f : Channel → Channel) : (s.modChan ch f).i3c = s.i3c := rfl
@[simp] theorem State.modChan_links (ch : Fin 17) (f : Channel → Channel) : (s.modChan ch f).links = s.links := rfl
@[simp] theorem State.modChan_clusters (ch : Fin 17) (f : Channel → Channel) : (s.modChan ch f).clusters = s.clusters := rfl
@[simp] theorem State.modChan_tandem (ch : Fin 17) (f : Channel → Channel) : (s.modChan ch f).tandem = s.tandem := rfl
@[simp] theorem State.modChan_out (ch : Fin 17) (f : Channel → Channel) : (s.modChan ch f).out = s.out := rfl
@[simp] theorem State.modChan_free (ch : Fin 17) (f : Channel → Channel) : (s.modChan ch f).free = s.free := rfl

/-! ## modLink -/

@[simp] theorem State.modLink_pending (l : Fin 24) (f : Link → Link) : (s.modLink l f).pending = s.pending := rfl
@[simp] theorem State.modLink_clock (l : Fin 24) (f : Link → Link) : (s.modLink l f).clock = s.clock := rfl
@[simp] theorem State.modLink_boot (l : Fin 24) (f : Link → Link) : (s.modLink l f).boot = s.boot := rfl
@[simp] theorem State.modLink_nvm (l : Fin 24) (f : Link → Link) : (s.modLink l f).nvm = s.nvm := rfl
@[simp] theorem State.modLink_power (l : Fin 24) (f : Link → Link) : (s.modLink l f).power = s.power := rfl
@[simp] theorem State.modLink_chans (l : Fin 24) (f : Link → Link) : (s.modLink l f).chans = s.chans := rfl
@[simp] theorem State.modLink_pannier (l : Fin 24) (f : Link → Link) : (s.modLink l f).pannier = s.pannier := rfl
@[simp] theorem State.modLink_parts (l : Fin 24) (f : Link → Link) : (s.modLink l f).parts = s.parts := rfl
@[simp] theorem State.modLink_banks (l : Fin 24) (f : Link → Link) : (s.modLink l f).banks = s.banks := rfl
@[simp] theorem State.modLink_pool (l : Fin 24) (f : Link → Link) : (s.modLink l f).pool = s.pool := rfl
@[simp] theorem State.modLink_devDrbg (l : Fin 24) (f : Link → Link) : (s.modLink l f).devDrbg = s.devDrbg := rfl
@[simp] theorem State.modLink_rngAlarm (l : Fin 24) (f : Link → Link) : (s.modLink l f).rngAlarm = s.rngAlarm := rfl
@[simp] theorem State.modLink_debugAccess (l : Fin 24) (f : Link → Link) : (s.modLink l f).debugAccess = s.debugAccess := rfl
@[simp] theorem State.modLink_spdm (l : Fin 24) (f : Link → Link) : (s.modLink l f).spdm = s.spdm := rfl
@[simp] theorem State.modLink_i3c (l : Fin 24) (f : Link → Link) : (s.modLink l f).i3c = s.i3c := rfl
@[simp] theorem State.modLink_clusters (l : Fin 24) (f : Link → Link) : (s.modLink l f).clusters = s.clusters := rfl
@[simp] theorem State.modLink_tandem (l : Fin 24) (f : Link → Link) : (s.modLink l f).tandem = s.tandem := rfl
@[simp] theorem State.modLink_out (l : Fin 24) (f : Link → Link) : (s.modLink l f).out = s.out := rfl
@[simp] theorem State.modLink_free (l : Fin 24) (f : Link → Link) : (s.modLink l f).free = s.free := rfl

/-! ## modCluster -/

@[simp] theorem State.modCluster_pending (c : Fin 32) (f : Cluster → Cluster) : (s.modCluster c f).pending = s.pending := rfl
@[simp] theorem State.modCluster_clock (c : Fin 32) (f : Cluster → Cluster) : (s.modCluster c f).clock = s.clock := rfl
@[simp] theorem State.modCluster_boot (c : Fin 32) (f : Cluster → Cluster) : (s.modCluster c f).boot = s.boot := rfl
@[simp] theorem State.modCluster_nvm (c : Fin 32) (f : Cluster → Cluster) : (s.modCluster c f).nvm = s.nvm := rfl
@[simp] theorem State.modCluster_power (c : Fin 32) (f : Cluster → Cluster) : (s.modCluster c f).power = s.power := rfl
@[simp] theorem State.modCluster_chans (c : Fin 32) (f : Cluster → Cluster) : (s.modCluster c f).chans = s.chans := rfl
@[simp] theorem State.modCluster_pannier (c : Fin 32) (f : Cluster → Cluster) : (s.modCluster c f).pannier = s.pannier := rfl
@[simp] theorem State.modCluster_parts (c : Fin 32) (f : Cluster → Cluster) : (s.modCluster c f).parts = s.parts := rfl
@[simp] theorem State.modCluster_banks (c : Fin 32) (f : Cluster → Cluster) : (s.modCluster c f).banks = s.banks := rfl
@[simp] theorem State.modCluster_pool (c : Fin 32) (f : Cluster → Cluster) : (s.modCluster c f).pool = s.pool := rfl
@[simp] theorem State.modCluster_devDrbg (c : Fin 32) (f : Cluster → Cluster) : (s.modCluster c f).devDrbg = s.devDrbg := rfl
@[simp] theorem State.modCluster_rngAlarm (c : Fin 32) (f : Cluster → Cluster) : (s.modCluster c f).rngAlarm = s.rngAlarm := rfl
@[simp] theorem State.modCluster_debugAccess (c : Fin 32) (f : Cluster → Cluster) : (s.modCluster c f).debugAccess = s.debugAccess := rfl
@[simp] theorem State.modCluster_spdm (c : Fin 32) (f : Cluster → Cluster) : (s.modCluster c f).spdm = s.spdm := rfl
@[simp] theorem State.modCluster_i3c (c : Fin 32) (f : Cluster → Cluster) : (s.modCluster c f).i3c = s.i3c := rfl
@[simp] theorem State.modCluster_links (c : Fin 32) (f : Cluster → Cluster) : (s.modCluster c f).links = s.links := rfl
@[simp] theorem State.modCluster_tandem (c : Fin 32) (f : Cluster → Cluster) : (s.modCluster c f).tandem = s.tandem := rfl
@[simp] theorem State.modCluster_out (c : Fin 32) (f : Cluster → Cluster) : (s.modCluster c f).out = s.out := rfl
@[simp] theorem State.modCluster_free (c : Fin 32) (f : Cluster → Cluster) : (s.modCluster c f).free = s.free := rfl

/-! ## modBank -/

@[simp] theorem State.modBank_pending (b : Fin 18) (f : Bank → Bank) : (s.modBank b f).pending = s.pending := rfl
@[simp] theorem State.modBank_clock (b : Fin 18) (f : Bank → Bank) : (s.modBank b f).clock = s.clock := rfl
@[simp] theorem State.modBank_boot (b : Fin 18) (f : Bank → Bank) : (s.modBank b f).boot = s.boot := rfl
@[simp] theorem State.modBank_nvm (b : Fin 18) (f : Bank → Bank) : (s.modBank b f).nvm = s.nvm := rfl
@[simp] theorem State.modBank_power (b : Fin 18) (f : Bank → Bank) : (s.modBank b f).power = s.power := rfl
@[simp] theorem State.modBank_chans (b : Fin 18) (f : Bank → Bank) : (s.modBank b f).chans = s.chans := rfl
@[simp] theorem State.modBank_pannier (b : Fin 18) (f : Bank → Bank) : (s.modBank b f).pannier = s.pannier := rfl
@[simp] theorem State.modBank_parts (b : Fin 18) (f : Bank → Bank) : (s.modBank b f).parts = s.parts := rfl
@[simp] theorem State.modBank_pool (b : Fin 18) (f : Bank → Bank) : (s.modBank b f).pool = s.pool := rfl
@[simp] theorem State.modBank_devDrbg (b : Fin 18) (f : Bank → Bank) : (s.modBank b f).devDrbg = s.devDrbg := rfl
@[simp] theorem State.modBank_rngAlarm (b : Fin 18) (f : Bank → Bank) : (s.modBank b f).rngAlarm = s.rngAlarm := rfl
@[simp] theorem State.modBank_debugAccess (b : Fin 18) (f : Bank → Bank) : (s.modBank b f).debugAccess = s.debugAccess := rfl
@[simp] theorem State.modBank_spdm (b : Fin 18) (f : Bank → Bank) : (s.modBank b f).spdm = s.spdm := rfl
@[simp] theorem State.modBank_i3c (b : Fin 18) (f : Bank → Bank) : (s.modBank b f).i3c = s.i3c := rfl
@[simp] theorem State.modBank_links (b : Fin 18) (f : Bank → Bank) : (s.modBank b f).links = s.links := rfl
@[simp] theorem State.modBank_clusters (b : Fin 18) (f : Bank → Bank) : (s.modBank b f).clusters = s.clusters := rfl
@[simp] theorem State.modBank_tandem (b : Fin 18) (f : Bank → Bank) : (s.modBank b f).tandem = s.tandem := rfl
@[simp] theorem State.modBank_out (b : Fin 18) (f : Bank → Bank) : (s.modBank b f).out = s.out := rfl
@[simp] theorem State.modBank_free (b : Fin 18) (f : Bank → Bank) : (s.modBank b f).free = s.free := rfl

/-! ## emit -/

@[simp] theorem State.emit_pending (o : Output) : (s.emit o).pending = s.pending := rfl
@[simp] theorem State.emit_clock (o : Output) : (s.emit o).clock = s.clock := rfl
@[simp] theorem State.emit_boot (o : Output) : (s.emit o).boot = s.boot := rfl
@[simp] theorem State.emit_nvm (o : Output) : (s.emit o).nvm = s.nvm := rfl
@[simp] theorem State.emit_power (o : Output) : (s.emit o).power = s.power := rfl
@[simp] theorem State.emit_chans (o : Output) : (s.emit o).chans = s.chans := rfl
@[simp] theorem State.emit_pannier (o : Output) : (s.emit o).pannier = s.pannier := rfl
@[simp] theorem State.emit_parts (o : Output) : (s.emit o).parts = s.parts := rfl
@[simp] theorem State.emit_banks (o : Output) : (s.emit o).banks = s.banks := rfl
@[simp] theorem State.emit_pool (o : Output) : (s.emit o).pool = s.pool := rfl
@[simp] theorem State.emit_devDrbg (o : Output) : (s.emit o).devDrbg = s.devDrbg := rfl
@[simp] theorem State.emit_rngAlarm (o : Output) : (s.emit o).rngAlarm = s.rngAlarm := rfl
@[simp] theorem State.emit_debugAccess (o : Output) : (s.emit o).debugAccess = s.debugAccess := rfl
@[simp] theorem State.emit_spdm (o : Output) : (s.emit o).spdm = s.spdm := rfl
@[simp] theorem State.emit_i3c (o : Output) : (s.emit o).i3c = s.i3c := rfl
@[simp] theorem State.emit_links (o : Output) : (s.emit o).links = s.links := rfl
@[simp] theorem State.emit_clusters (o : Output) : (s.emit o).clusters = s.clusters := rfl
@[simp] theorem State.emit_tandem (o : Output) : (s.emit o).tandem = s.tandem := rfl
@[simp] theorem State.emit_out (o : Output) : (s.emit o).out = o :: s.out := rfl
@[simp] theorem State.emit_free (o : Output) : (s.emit o).free = s.free := rfl

/-! ## advance -/

@[simp] theorem State.advance_pending (t : Nat) : (s.advance t).pending = s.pending := rfl
@[simp] theorem State.advance_clock (t : Nat) : (s.advance t).clock = Nat.max s.clock t := rfl
@[simp] theorem State.advance_boot (t : Nat) : (s.advance t).boot = s.boot := rfl
@[simp] theorem State.advance_nvm (t : Nat) : (s.advance t).nvm = s.nvm := rfl
@[simp] theorem State.advance_power (t : Nat) : (s.advance t).power = s.power := rfl
@[simp] theorem State.advance_chans (t : Nat) : (s.advance t).chans = s.chans := rfl
@[simp] theorem State.advance_pannier (t : Nat) : (s.advance t).pannier = s.pannier := rfl
@[simp] theorem State.advance_parts (t : Nat) : (s.advance t).parts = s.parts := rfl
@[simp] theorem State.advance_banks (t : Nat) : (s.advance t).banks = s.banks := rfl
@[simp] theorem State.advance_pool (t : Nat) : (s.advance t).pool = s.pool := rfl
@[simp] theorem State.advance_devDrbg (t : Nat) : (s.advance t).devDrbg = s.devDrbg := rfl
@[simp] theorem State.advance_rngAlarm (t : Nat) : (s.advance t).rngAlarm = s.rngAlarm := rfl
@[simp] theorem State.advance_debugAccess (t : Nat) : (s.advance t).debugAccess = s.debugAccess := rfl
@[simp] theorem State.advance_spdm (t : Nat) : (s.advance t).spdm = s.spdm := rfl
@[simp] theorem State.advance_i3c (t : Nat) : (s.advance t).i3c = s.i3c := rfl
@[simp] theorem State.advance_links (t : Nat) : (s.advance t).links = s.links := rfl
@[simp] theorem State.advance_clusters (t : Nat) : (s.advance t).clusters = s.clusters := rfl
@[simp] theorem State.advance_tandem (t : Nat) : (s.advance t).tandem = s.tandem := rfl
@[simp] theorem State.advance_out (t : Nat) : (s.advance t).out = s.out := rfl
@[simp] theorem State.advance_free (t : Nat) : (s.advance t).free = s.free := rfl

/-! ## One element after a change -/

@[simp] theorem State.modPart_same (p : Fin 16) (f : Partition → Partition) :
    (s.modPart p f).parts[p.val] = f s.parts[p.val] := by simp [State.modPart]

theorem State.modPart_other (p j : Fin 16) (f : Partition → Partition) (h : j ≠ p) :
    (s.modPart p f).parts[j.val] = s.parts[j.val] := by
  have h' : p.val ≠ j.val := fun e => h (Fin.ext e.symm)
  simp [State.modPart, h']

@[simp] theorem State.modChan_same (ch : Fin 17) (f : Channel → Channel) :
    (s.modChan ch f).chans[ch.val] = f s.chans[ch.val] := by simp [State.modChan]

theorem State.modChan_other (ch j : Fin 17) (f : Channel → Channel) (h : j ≠ ch) :
    (s.modChan ch f).chans[j.val] = s.chans[j.val] := by
  have h' : ch.val ≠ j.val := fun e => h (Fin.ext e.symm)
  simp [State.modChan, h']

@[simp] theorem State.modLink_same (l : Fin 24) (f : Link → Link) :
    (s.modLink l f).links[l.val] = f s.links[l.val] := by simp [State.modLink]

theorem State.modLink_other (l j : Fin 24) (f : Link → Link) (h : j ≠ l) :
    (s.modLink l f).links[j.val] = s.links[j.val] := by
  have h' : l.val ≠ j.val := fun e => h (Fin.ext e.symm)
  simp [State.modLink, h']

@[simp] theorem State.modCluster_same (c : Fin 32) (f : Cluster → Cluster) :
    (s.modCluster c f).clusters[c.val] = f s.clusters[c.val] := by simp [State.modCluster]

theorem State.modCluster_other (c j : Fin 32) (f : Cluster → Cluster) (h : j ≠ c) :
    (s.modCluster c f).clusters[j.val] = s.clusters[j.val] := by
  have h' : c.val ≠ j.val := fun e => h (Fin.ext e.symm)
  simp [State.modCluster, h']

@[simp] theorem State.modBank_same (b : Fin 18) (f : Bank → Bank) :
    (s.modBank b f).banks[b.val] = f s.banks[b.val] := by simp [State.modBank]

theorem State.modBank_other (b j : Fin 18) (f : Bank → Bank) (h : j ≠ b) :
    (s.modBank b f).banks[j.val] = s.banks[j.val] := by
  have h' : b.val ≠ j.val := fun e => h (Fin.ext e.symm)
  simp [State.modBank, h']

end Sys2Proof.Machine
end

