-- ==== Sys2Proof/Laws/Keys.lean ====
section
/-! SUPPORT. The pannier (R311 to R313): what a draw of a deterministic random bit generator and a placed key are, and that a key outlives its
re-masking. -/

namespace Sys2Proof.Machine

open Sys2Proof.Machine.Crypto

/-! ## Shares -/

@[simp] theorem padTo_length (n : Nat) (l : List Byte) : (padTo n l).length = n := by
  simp only [padTo, List.length_append, List.length_take, List.length_replicate]; omega

@[simp] theorem xorBytes_length (a b : List Byte) : (xorBytes a b).length = Nat.min a.length b.length := by simp [xorBytes]

/-- A mask as long as the text comes off again. -/
theorem xorBytes_cancel : ∀ a m : List Byte, a.length ≤ m.length → xorBytes (xorBytes a m) m = a
  | [], _, _ => by simp [xorBytes]
  | x :: a, [], h => by simp at h
  | x :: a, y :: m, h => by
    have ih := xorBytes_cancel a m (by simpa using h)
    simp only [xorBytes, List.zipWith_cons_cons] at ih ⊢
    rw [ih, BitVec.xor_assoc, BitVec.xor_self, BitVec.xor_zero]

/-- Two texts under one mask combine to what they combine to without it. -/
theorem xorBytes_mask : ∀ a b m : List Byte, a.length = b.length → a.length ≤ m.length →
    xorBytes (xorBytes a m) (xorBytes b m) = xorBytes a b
  | [], b, m, h, _ => by simp [xorBytes]
  | x :: a, [], m, h, _ => by simp at h
  | x :: a, y :: b, [], _, h => by simp at h
  | x :: a, y :: b, z :: m, h, k => by
    have ih := xorBytes_mask a b m (by simpa using h) (by simpa using k)
    simp only [xorBytes, List.zipWith_cons_cons] at ih ⊢
    rw [ih]
    congr 1
    rw [BitVec.xor_assoc, BitVec.xor_comm z, BitVec.xor_assoc, BitVec.xor_self, BitVec.xor_zero]

/-- Re-masking keeps the key (R313). -/
theorem KeySlot.reshare_key (k : KeySlot) (m : List Byte) (h : k.shareA.length = k.shareB.length) (h' : k.shareA.length ≤ m.length) :
    (k.reshare m).key = k.key := xorBytes_mask _ _ _ h h'

/-! ## Draws -/

@[simp] theorem Drbg.generate1_length (d : Drbg) (n : Nat) : (d.generate1 n).1.length = n := padTo_length _ _

theorem Drbg.generateN_length : ∀ (k : Nat) (d : Drbg) (n : Nat), n ≤ 65536 * k → (Drbg.generateN k d n).1.length = n
  | 0, d, n, h => by simp only [Nat.mul_zero, Nat.le_zero] at h; simp [Drbg.generateN, h]
  | k + 1, d, n, h => by
    unfold Drbg.generateN
    split
    · simp [*]
    · have h₂ := Drbg.generateN_length k (d.generate1 (Nat.min n 65536)).2 (n - Nat.min n 65536)
        (by show n - min n 65536 ≤ _; omega)
      show ((d.generate1 (Nat.min n 65536)).1 ++ (Drbg.generateN k (d.generate1 (Nat.min n 65536)).2 (n - Nat.min n 65536)).1).length = n
      rw [List.length_append, Drbg.generate1_length, h₂]
      show min n 65536 + (n - min n 65536) = n
      omega

/-- A draw has as many bytes as were asked for. -/
@[simp] theorem Drbg.draw_length (d : Drbg) (n : Nat) : (d.draw n).1.length = n :=
  Drbg.generateN_length _ _ _ (by unfold ceilDiv; omega)

@[simp] theorem State.deviceDraw_length (s : State) (n : Nat) : (s.deviceDraw n).1.length = n := Drbg.draw_length _ _

@[simp] theorem State.partDraw_length (s : State) (p : Fin 16) (n : Nat) : (s.partDraw p n).1.length = n := Drbg.draw_length _ _

/-- A draw from the device DRBG changes it, the device pool and the count of free values. -/
theorem State.deviceDraw_frame (s : State) (n : Nat) :
    (s.deviceDraw n).2 = { s with pool := (s.deviceDraw n).2.pool, devDrbg := (s.deviceDraw n).2.devDrbg, free := (s.deviceDraw n).2.free } := rfl

/-! ## Placing a key -/

@[simp] theorem State.placeKey_slot (s : State) (slot kind : Nat) (key : List Byte) (policy serial period : Nat) :
    Table.get? (s.placeKey slot kind key policy serial period).pannier slot =
      some ⟨kind, xorBytes key (s.deviceDraw key.length).1, (s.deviceDraw key.length).1,
        (s.enginesOf slot).map (fun e => (e, xorBytes key (s.deviceDraw key.length).1, (s.deviceDraw key.length).1)) ++ s.jobCopies slot,
        policy, serial, s.nvm.life.seconds, period, s.clock + (remaskUnits period).getD 0⟩ := by
  unfold State.placeKey; exact Table.get?_put_same _ _ _

/-- The key that was placed stands in its slot. -/
@[simp] theorem State.placeKey_key (s : State) (slot kind : Nat) (key : List Byte) (policy serial period : Nat) :
    (s.placeKey slot kind key policy serial period).keyAt slot = some key := by
  simp only [State.keyAt, State.placeKey_slot, Option.map_some, KeySlot.key]
  rw [xorBytes_cancel _ _ (by simp)]

/-- Every other slot stands as it did. -/
theorem State.placeKey_other (s : State) (slot kind : Nat) (key : List Byte) (policy serial period n : Nat) (h : n ≠ slot) :
    Table.get? (s.placeKey slot kind key policy serial period).pannier n = Table.get? s.pannier n := by
  unfold State.placeKey; exact Table.get?_put_other _ _ _ _ h

/-- Placing a key changes the pannier and what the draw of its mask changes. -/
theorem State.placeKey_frame (s : State) (slot kind : Nat) (key : List Byte) (policy serial period : Nat) :
    (s.placeKey slot kind key policy serial period) =
      { s with
        pannier := (s.placeKey slot kind key policy serial period).pannier, pool := (s.placeKey slot kind key policy serial period).pool
        devDrbg := (s.placeKey slot kind key policy serial period).devDrbg, free := (s.placeKey slot kind key policy serial period).free } := rfl

end Sys2Proof.Machine
end

