-- ==== Sys2Proof/Laws/Log.lean ====
section
/-! SUPPORT. What appending to the kickstand log changes (R488 to R494): the log, its sequence, its rate table and the words written; and that
a record that is not limited is present afterwards. -/

namespace Sys2Proof.Machine

variable (s : State)

theorem State.logSnapshot_eq : s.logSnapshot =
    { s.logWrite 0x0104 1 1 0 (s.sparesWords ++ s.siteMapWords) with
      nvm := { (s.logWrite 0x0104 1 1 0 (s.sparesWords ++ s.siteMapWords)).nvm with
        snap := (s.logWrite 0x0104 1 1 0 (s.sparesWords ++ s.siteMapWords)).nvm.spares } } := rfl

/-- The shape of an append: withheld where its kind is limited and the second is full, else written, a SNAPSHOT after it or not. -/
theorem State.logFrom_eq (source kind cls : Nat) (data : List W64) :
    ∃ (b : Bool) (n : Nat) (rt rt' : Assoc LogRate) (g : Bool), s.logFrom source kind cls data =
      if (cls == 0 || cls == 2 || cls == 5 || cls == 6) && b then
        { s with nvm := { s.nvm with rates := rt, life := { s.nvm.life with withheld := s.nvm.life.withheld + 1 } } }
      else if g then State.logSnapshot { (s.logWrite kind cls source n data) with
          nvm := { (s.logWrite kind cls source n data).nvm with rates := rt' } }
        else { (s.logWrite kind cls source n data) with
          nvm := { (s.logWrite kind cls source n data).nvm with rates := rt' } } :=
  ⟨_, _, _, _, _, rfl⟩

/-- Every way an append can end: withheld, written, or written and followed by a SNAPSHOT. -/
theorem State.logFrom_cases (source kind cls : Nat) (data : List W64) :
    (∃ rt, s.logFrom source kind cls data =
      { s with nvm := { s.nvm with rates := rt, life := { s.nvm.life with withheld := s.nvm.life.withheld + 1 } } }) ∨
    (∃ n rt, s.logFrom source kind cls data = { (s.logWrite kind cls source n data) with
      nvm := { (s.logWrite kind cls source n data).nvm with rates := rt } }) ∨
    (∃ n rt, s.logFrom source kind cls data = State.logSnapshot { (s.logWrite kind cls source n data) with
      nvm := { (s.logWrite kind cls source n data).nvm with rates := rt } }) := by
  obtain ⟨b, r, rt, rt', g, h⟩ := State.logFrom_eq s source kind cls data
  rw [h]
  split
  · exact .inl ⟨_, rfl⟩
  · split
    · exact .inr (.inr ⟨_, _, rfl⟩)
    · exact .inr (.inl ⟨_, _, rfl⟩)

@[simp] theorem State.logFrom_pending (a k c : Nat) (d : List W64) : (s.logFrom a k c d).pending = s.pending := by
  rcases State.logFrom_cases s a k c d with ⟨_, h⟩ | ⟨_, _, h⟩ | ⟨_, _, h⟩ <;> rw [h] <;> rfl
@[simp] theorem State.log_pending (k c : Nat) (d : List W64) : (s.log k c d).pending = s.pending := State.logFrom_pending s 1 k c d
@[simp] theorem State.logFrom_clock (a k c : Nat) (d : List W64) : (s.logFrom a k c d).clock = s.clock := by
  rcases State.logFrom_cases s a k c d with ⟨_, h⟩ | ⟨_, _, h⟩ | ⟨_, _, h⟩ <;> rw [h] <;> rfl
@[simp] theorem State.log_clock (k c : Nat) (d : List W64) : (s.log k c d).clock = s.clock := State.logFrom_clock s 1 k c d
@[simp] theorem State.logFrom_boot (a k c : Nat) (d : List W64) : (s.logFrom a k c d).boot = s.boot := by
  rcases State.logFrom_cases s a k c d with ⟨_, h⟩ | ⟨_, _, h⟩ | ⟨_, _, h⟩ <;> rw [h] <;> rfl
@[simp] theorem State.log_boot (k c : Nat) (d : List W64) : (s.log k c d).boot = s.boot := State.logFrom_boot s 1 k c d
@[simp] theorem State.logFrom_power (a k c : Nat) (d : List W64) : (s.logFrom a k c d).power = s.power := by
  rcases State.logFrom_cases s a k c d with ⟨_, h⟩ | ⟨_, _, h⟩ | ⟨_, _, h⟩ <;> rw [h] <;> rfl
@[simp] theorem State.log_power (k c : Nat) (d : List W64) : (s.log k c d).power = s.power := State.logFrom_power s 1 k c d
@[simp] theorem State.logFrom_chans (a k c : Nat) (d : List W64) : (s.logFrom a k c d).chans = s.chans := by
  rcases State.logFrom_cases s a k c d with ⟨_, h⟩ | ⟨_, _, h⟩ | ⟨_, _, h⟩ <;> rw [h] <;> rfl
@[simp] theorem State.log_chans (k c : Nat) (d : List W64) : (s.log k c d).chans = s.chans := State.logFrom_chans s 1 k c d
@[simp] theorem State.logFrom_pannier (a k c : Nat) (d : List W64) : (s.logFrom a k c d).pannier = s.pannier := by
  rcases State.logFrom_cases s a k c d with ⟨_, h⟩ | ⟨_, _, h⟩ | ⟨_, _, h⟩ <;> rw [h] <;> rfl
@[simp] theorem State.log_pannier (k c : Nat) (d : List W64) : (s.log k c d).pannier = s.pannier := State.logFrom_pannier s 1 k c d
@[simp] theorem State.logFrom_parts (a k c : Nat) (d : List W64) : (s.logFrom a k c d).parts = s.parts := by
  rcases State.logFrom_cases s a k c d with ⟨_, h⟩ | ⟨_, _, h⟩ | ⟨_, _, h⟩ <;> rw [h] <;> rfl
@[simp] theorem State.log_parts (k c : Nat) (d : List W64) : (s.log k c d).parts = s.parts := State.logFrom_parts s 1 k c d
@[simp] theorem State.logFrom_banks (a k c : Nat) (d : List W64) : (s.logFrom a k c d).banks = s.banks := by
  rcases State.logFrom_cases s a k c d with ⟨_, h⟩ | ⟨_, _, h⟩ | ⟨_, _, h⟩ <;> rw [h] <;> rfl
@[simp] theorem State.log_banks (k c : Nat) (d : List W64) : (s.log k c d).banks = s.banks := State.logFrom_banks s 1 k c d
@[simp] theorem State.logFrom_pool (a k c : Nat) (d : List W64) : (s.logFrom a k c d).pool = s.pool := by
  rcases State.logFrom_cases s a k c d with ⟨_, h⟩ | ⟨_, _, h⟩ | ⟨_, _, h⟩ <;> rw [h] <;> rfl
@[simp] theorem State.log_pool (k c : Nat) (d : List W64) : (s.log k c d).pool = s.pool := State.logFrom_pool s 1 k c d
@[simp] theorem State.logFrom_devDrbg (a k c : Nat) (d : List W64) : (s.logFrom a k c d).devDrbg = s.devDrbg := by
  rcases State.logFrom_cases s a k c d with ⟨_, h⟩ | ⟨_, _, h⟩ | ⟨_, _, h⟩ <;> rw [h] <;> rfl
@[simp] theorem State.log_devDrbg (k c : Nat) (d : List W64) : (s.log k c d).devDrbg = s.devDrbg := State.logFrom_devDrbg s 1 k c d
@[simp] theorem State.logFrom_rngAlarm (a k c : Nat) (d : List W64) : (s.logFrom a k c d).rngAlarm = s.rngAlarm := by
  rcases State.logFrom_cases s a k c d with ⟨_, h⟩ | ⟨_, _, h⟩ | ⟨_, _, h⟩ <;> rw [h] <;> rfl
@[simp] theorem State.log_rngAlarm (k c : Nat) (d : List W64) : (s.log k c d).rngAlarm = s.rngAlarm := State.logFrom_rngAlarm s 1 k c d
@[simp] theorem State.logFrom_debugAccess (a k c : Nat) (d : List W64) : (s.logFrom a k c d).debugAccess = s.debugAccess := by
  rcases State.logFrom_cases s a k c d with ⟨_, h⟩ | ⟨_, _, h⟩ | ⟨_, _, h⟩ <;> rw [h] <;> rfl
@[simp] theorem State.log_debugAccess (k c : Nat) (d : List W64) : (s.log k c d).debugAccess = s.debugAccess := State.logFrom_debugAccess s 1 k c d
@[simp] theorem State.logFrom_spdm (a k c : Nat) (d : List W64) : (s.logFrom a k c d).spdm = s.spdm := by
  rcases State.logFrom_cases s a k c d with ⟨_, h⟩ | ⟨_, _, h⟩ | ⟨_, _, h⟩ <;> rw [h] <;> rfl
@[simp] theorem State.log_spdm (k c : Nat) (d : List W64) : (s.log k c d).spdm = s.spdm := State.logFrom_spdm s 1 k c d
@[simp] theorem State.logFrom_i3c (a k c : Nat) (d : List W64) : (s.logFrom a k c d).i3c = s.i3c := by
  rcases State.logFrom_cases s a k c d with ⟨_, h⟩ | ⟨_, _, h⟩ | ⟨_, _, h⟩ <;> rw [h] <;> rfl
@[simp] theorem State.log_i3c (k c : Nat) (d : List W64) : (s.log k c d).i3c = s.i3c := State.logFrom_i3c s 1 k c d
@[simp] theorem State.logFrom_links (a k c : Nat) (d : List W64) : (s.logFrom a k c d).links = s.links := by
  rcases State.logFrom_cases s a k c d with ⟨_, h⟩ | ⟨_, _, h⟩ | ⟨_, _, h⟩ <;> rw [h] <;> rfl
@[simp] theorem State.log_links (k c : Nat) (d : List W64) : (s.log k c d).links = s.links := State.logFrom_links s 1 k c d
@[simp] theorem State.logFrom_clusters (a k c : Nat) (d : List W64) : (s.logFrom a k c d).clusters = s.clusters := by
  rcases State.logFrom_cases s a k c d with ⟨_, h⟩ | ⟨_, _, h⟩ | ⟨_, _, h⟩ <;> rw [h] <;> rfl
@[simp] theorem State.log_clusters (k c : Nat) (d : List W64) : (s.log k c d).clusters = s.clusters := State.logFrom_clusters s 1 k c d
@[simp] theorem State.logFrom_tandem (a k c : Nat) (d : List W64) : (s.logFrom a k c d).tandem = s.tandem := by
  rcases State.logFrom_cases s a k c d with ⟨_, h⟩ | ⟨_, _, h⟩ | ⟨_, _, h⟩ <;> rw [h] <;> rfl
@[simp] theorem State.log_tandem (k c : Nat) (d : List W64) : (s.log k c d).tandem = s.tandem := State.logFrom_tandem s 1 k c d
@[simp] theorem State.logFrom_out (a k c : Nat) (d : List W64) : (s.logFrom a k c d).out = s.out := by
  rcases State.logFrom_cases s a k c d with ⟨_, h⟩ | ⟨_, _, h⟩ | ⟨_, _, h⟩ <;> rw [h] <;> rfl
@[simp] theorem State.log_out (k c : Nat) (d : List W64) : (s.log k c d).out = s.out := State.logFrom_out s 1 k c d
@[simp] theorem State.logFrom_free (a k c : Nat) (d : List W64) : (s.logFrom a k c d).free = s.free := by
  rcases State.logFrom_cases s a k c d with ⟨_, h⟩ | ⟨_, _, h⟩ | ⟨_, _, h⟩ <;> rw [h] <;> rfl
@[simp] theorem State.log_free (k c : Nat) (d : List W64) : (s.log k c d).free = s.free := State.logFrom_free s 1 k c d
/-- What a write of a doubled store leaves standing is what it wrote. -/
@[simp] theorem Copies.standing_write {α : Type} (c : Copies α) (x : α) : (c.write x).standing = some x := by
  unfold Copies.write
  cases h : c.second
  · simp [Copies.standing, Copies.second]
  · simp only [Copies.second, Bool.and_eq_true] at h
    simp [Copies.standing, Copies.second, h.1] <;> omega

/-- A write that is cut short leaves standing what stood. -/
theorem Copies.standing_torn {α : Type} (c : Copies α) : c.torn.standing = c.standing := by
  unfold Copies.torn
  cases h : c.second
  · cases ha : c.a.intact <;> cases hb : c.b.intact <;> simp_all [Copies.standing, Copies.second] <;> omega
  · simp only [Copies.second, Bool.and_eq_true] at h
    cases ha : c.a.intact <;> simp_all [Copies.standing, Copies.second]

@[simp] theorem State.logFrom_nvm_store (a k c : Nat) (d : List W64) : (s.logFrom a k c d).nvm.store = s.nvm.store := by
  rcases State.logFrom_cases s a k c d with ⟨_, h⟩ | ⟨_, _, h⟩ | ⟨_, _, h⟩ <;> rw [h] <;> rfl
@[simp] theorem State.log_nvm_store (k c : Nat) (d : List W64) : (s.log k c d).nvm.store = s.nvm.store :=
  State.logFrom_nvm_store s 1 k c d
@[simp] theorem State.logFrom_nvm_nextStore (a k c : Nat) (d : List W64) : (s.logFrom a k c d).nvm.nextStore = s.nvm.nextStore := by
  rcases State.logFrom_cases s a k c d with ⟨_, h⟩ | ⟨_, _, h⟩ | ⟨_, _, h⟩ <;> rw [h] <;> rfl
@[simp] theorem State.log_nvm_nextStore (k c : Nat) (d : List W64) : (s.log k c d).nvm.nextStore = s.nvm.nextStore :=
  State.logFrom_nvm_nextStore s 1 k c d
@[simp] theorem State.logFrom_nvm_nextSecond (a k c : Nat) (d : List W64) : (s.logFrom a k c d).nvm.nextSecond = s.nvm.nextSecond := by
  rcases State.logFrom_cases s a k c d with ⟨_, h⟩ | ⟨_, _, h⟩ | ⟨_, _, h⟩ <;> rw [h] <;> rfl
@[simp] theorem State.log_nvm_nextSecond (k c : Nat) (d : List W64) : (s.log k c d).nvm.nextSecond = s.nvm.nextSecond :=
  State.logFrom_nvm_nextSecond s 1 k c d
@[simp] theorem State.logFrom_nvm_cfg (a k c : Nat) (d : List W64) : (s.logFrom a k c d).nvm.cfg = s.nvm.cfg := by
  rcases State.logFrom_cases s a k c d with ⟨_, h⟩ | ⟨_, _, h⟩ | ⟨_, _, h⟩ <;> rw [h] <;> rfl
@[simp] theorem State.log_nvm_cfg (k c : Nat) (d : List W64) : (s.log k c d).nvm.cfg = s.nvm.cfg :=
  State.logFrom_nvm_cfg s 1 k c d
@[simp] theorem State.logFrom_nvm_cfgWorn (a k c : Nat) (d : List W64) : (s.logFrom a k c d).nvm.cfgWorn = s.nvm.cfgWorn := by
  rcases State.logFrom_cases s a k c d with ⟨_, h⟩ | ⟨_, _, h⟩ | ⟨_, _, h⟩ <;> rw [h] <;> rfl
@[simp] theorem State.log_nvm_cfgWorn (k c : Nat) (d : List W64) : (s.log k c d).nvm.cfgWorn = s.nvm.cfgWorn :=
  State.logFrom_nvm_cfgWorn s 1 k c d
@[simp] theorem State.logFrom_nvm_fw (a k c : Nat) (d : List W64) : (s.logFrom a k c d).nvm.fw = s.nvm.fw := by
  rcases State.logFrom_cases s a k c d with ⟨_, h⟩ | ⟨_, _, h⟩ | ⟨_, _, h⟩ <;> rw [h] <;> rfl
@[simp] theorem State.log_nvm_fw (k c : Nat) (d : List W64) : (s.log k c d).nvm.fw = s.nvm.fw :=
  State.logFrom_nvm_fw s 1 k c d
@[simp] theorem State.logFrom_nvm_bootCtl (a k c : Nat) (d : List W64) : (s.logFrom a k c d).nvm.bootCtl = s.nvm.bootCtl := by
  rcases State.logFrom_cases s a k c d with ⟨_, h⟩ | ⟨_, _, h⟩ | ⟨_, _, h⟩ <;> rw [h] <;> rfl
@[simp] theorem State.log_nvm_bootCtl (k c : Nat) (d : List W64) : (s.log k c d).nvm.bootCtl = s.nvm.bootCtl :=
  State.logFrom_nvm_bootCtl s 1 k c d
@[simp] theorem State.logFrom_nvm_repairs (a k c : Nat) (d : List W64) : (s.logFrom a k c d).nvm.repairs = s.nvm.repairs := by
  rcases State.logFrom_cases s a k c d with ⟨_, h⟩ | ⟨_, _, h⟩ | ⟨_, _, h⟩ <;> rw [h] <;> rfl
@[simp] theorem State.log_nvm_repairs (k c : Nat) (d : List W64) : (s.log k c d).nvm.repairs = s.nvm.repairs :=
  State.logFrom_nvm_repairs s 1 k c d
@[simp] theorem State.logFrom_nvm_retiredSites (a k c : Nat) (d : List W64) : (s.logFrom a k c d).nvm.retiredSites = s.nvm.retiredSites := by
  rcases State.logFrom_cases s a k c d with ⟨_, h⟩ | ⟨_, _, h⟩ | ⟨_, _, h⟩ <;> rw [h] <;> rfl
@[simp] theorem State.log_nvm_retiredSites (k c : Nat) (d : List W64) : (s.log k c d).nvm.retiredSites = s.nvm.retiredSites :=
  State.logFrom_nvm_retiredSites s 1 k c d
@[simp] theorem State.logFrom_nvm_pendingRetire (a k c : Nat) (d : List W64) : (s.logFrom a k c d).nvm.pendingRetire = s.nvm.pendingRetire := by
  rcases State.logFrom_cases s a k c d with ⟨_, h⟩ | ⟨_, _, h⟩ | ⟨_, _, h⟩ <;> rw [h] <;> rfl
@[simp] theorem State.log_nvm_pendingRetire (k c : Nat) (d : List W64) : (s.log k c d).nvm.pendingRetire = s.nvm.pendingRetire :=
  State.logFrom_nvm_pendingRetire s 1 k c d
@[simp] theorem State.logFrom_nvm_siteMap (a k c : Nat) (d : List W64) : (s.logFrom a k c d).nvm.siteMap = s.nvm.siteMap := by
  rcases State.logFrom_cases s a k c d with ⟨_, h⟩ | ⟨_, _, h⟩ | ⟨_, _, h⟩ <;> rw [h] <;> rfl
@[simp] theorem State.log_nvm_siteMap (k c : Nat) (d : List W64) : (s.log k c d).nvm.siteMap = s.nvm.siteMap :=
  State.logFrom_nvm_siteMap s 1 k c d
@[simp] theorem State.logFrom_nvm_retiredSources (a k c : Nat) (d : List W64) : (s.logFrom a k c d).nvm.retiredSources = s.nvm.retiredSources := by
  rcases State.logFrom_cases s a k c d with ⟨_, h⟩ | ⟨_, _, h⟩ | ⟨_, _, h⟩ <;> rw [h] <;> rfl
@[simp] theorem State.log_nvm_retiredSources (k c : Nat) (d : List W64) : (s.log k c d).nvm.retiredSources = s.nvm.retiredSources :=
  State.logFrom_nvm_retiredSources s 1 k c d
@[simp] theorem State.logFrom_nvm_creations (a k c : Nat) (d : List W64) : (s.logFrom a k c d).nvm.creations = s.nvm.creations := by
  rcases State.logFrom_cases s a k c d with ⟨_, h⟩ | ⟨_, _, h⟩ | ⟨_, _, h⟩ <;> rw [h] <;> rfl
@[simp] theorem State.log_nvm_creations (k c : Nat) (d : List W64) : (s.log k c d).nvm.creations = s.nvm.creations :=
  State.logFrom_nvm_creations s 1 k c d
@[simp] theorem State.logFrom_nvm_serials (a k c : Nat) (d : List W64) : (s.logFrom a k c d).nvm.serials = s.nvm.serials := by
  rcases State.logFrom_cases s a k c d with ⟨_, h⟩ | ⟨_, _, h⟩ | ⟨_, _, h⟩ <;> rw [h] <;> rfl
@[simp] theorem State.log_nvm_serials (k c : Nat) (d : List W64) : (s.log k c d).nvm.serials = s.nvm.serials :=
  State.logFrom_nvm_serials s 1 k c d
@[simp] theorem State.logFrom_nvm_pfSessions (a k c : Nat) (d : List W64) : (s.logFrom a k c d).nvm.pfSessions = s.nvm.pfSessions := by
  rcases State.logFrom_cases s a k c d with ⟨_, h⟩ | ⟨_, _, h⟩ | ⟨_, _, h⟩ <;> rw [h] <;> rfl
@[simp] theorem State.log_nvm_pfSessions (k c : Nat) (d : List W64) : (s.log k c d).nvm.pfSessions = s.nvm.pfSessions :=
  State.logFrom_nvm_pfSessions s 1 k c d
@[simp] theorem State.logFrom_nvm_antiRollback (a k c : Nat) (d : List W64) : (s.logFrom a k c d).nvm.antiRollback = s.nvm.antiRollback := by
  rcases State.logFrom_cases s a k c d with ⟨_, h⟩ | ⟨_, _, h⟩ | ⟨_, _, h⟩ <;> rw [h] <;> rfl
@[simp] theorem State.log_nvm_antiRollback (k c : Nat) (d : List W64) : (s.log k c d).nvm.antiRollback = s.nvm.antiRollback :=
  State.logFrom_nvm_antiRollback s 1 k c d
@[simp] theorem State.logFrom_nvm_revoked (a k c : Nat) (d : List W64) : (s.logFrom a k c d).nvm.revoked = s.nvm.revoked := by
  rcases State.logFrom_cases s a k c d with ⟨_, h⟩ | ⟨_, _, h⟩ | ⟨_, _, h⟩ <;> rw [h] <;> rfl
@[simp] theorem State.log_nvm_revoked (k c : Nat) (d : List W64) : (s.log k c d).nvm.revoked = s.nvm.revoked :=
  State.logFrom_nvm_revoked s 1 k c d
@[simp] theorem State.logFrom_nvm_fusesDue (a k c : Nat) (d : List W64) : (s.logFrom a k c d).nvm.fusesDue = s.nvm.fusesDue := by
  rcases State.logFrom_cases s a k c d with ⟨_, h⟩ | ⟨_, _, h⟩ | ⟨_, _, h⟩ <;> rw [h] <;> rfl
@[simp] theorem State.log_nvm_fusesDue (k c : Nat) (d : List W64) : (s.log k c d).nvm.fusesDue = s.nvm.fusesDue :=
  State.logFrom_nvm_fusesDue s 1 k c d
@[simp] theorem State.logFrom_life_seconds (a k c : Nat) (d : List W64) :
    (s.logFrom a k c d).nvm.life.seconds = s.nvm.life.seconds := by
  rcases State.logFrom_cases s a k c d with ⟨_, h⟩ | ⟨_, _, h⟩ | ⟨_, _, h⟩ <;> rw [h] <;> rfl
@[simp] theorem State.log_life_seconds (k c : Nat) (d : List W64) : (s.log k c d).nvm.life.seconds = s.nvm.life.seconds :=
  State.logFrom_life_seconds s 1 k c d
@[simp] theorem State.logFrom_life_energyMj (a k c : Nat) (d : List W64) :
    (s.logFrom a k c d).nvm.life.energyMj = s.nvm.life.energyMj := by
  rcases State.logFrom_cases s a k c d with ⟨_, h⟩ | ⟨_, _, h⟩ | ⟨_, _, h⟩ <;> rw [h] <;> rfl
@[simp] theorem State.log_life_energyMj (k c : Nat) (d : List W64) : (s.log k c d).nvm.life.energyMj = s.nvm.life.energyMj :=
  State.logFrom_life_energyMj s 1 k c d
@[simp] theorem State.logFrom_life_coldResets (a k c : Nat) (d : List W64) :
    (s.logFrom a k c d).nvm.life.coldResets = s.nvm.life.coldResets := by
  rcases State.logFrom_cases s a k c d with ⟨_, h⟩ | ⟨_, _, h⟩ | ⟨_, _, h⟩ <;> rw [h] <;> rfl
@[simp] theorem State.log_life_coldResets (k c : Nat) (d : List W64) : (s.log k c d).nvm.life.coldResets = s.nvm.life.coldResets :=
  State.logFrom_life_coldResets s 1 k c d
@[simp] theorem State.logFrom_life_warmResets (a k c : Nat) (d : List W64) :
    (s.logFrom a k c d).nvm.life.warmResets = s.nvm.life.warmResets := by
  rcases State.logFrom_cases s a k c d with ⟨_, h⟩ | ⟨_, _, h⟩ | ⟨_, _, h⟩ <;> rw [h] <;> rfl
@[simp] theorem State.log_life_warmResets (k c : Nat) (d : List W64) : (s.log k c d).nvm.life.warmResets = s.nvm.life.warmResets :=
  State.logFrom_life_warmResets s 1 k c d
@[simp] theorem State.logFrom_life_trips (a k c : Nat) (d : List W64) :
    (s.logFrom a k c d).nvm.life.trips = s.nvm.life.trips := by
  rcases State.logFrom_cases s a k c d with ⟨_, h⟩ | ⟨_, _, h⟩ | ⟨_, _, h⟩ <;> rw [h] <;> rfl
@[simp] theorem State.log_life_trips (k c : Nat) (d : List W64) : (s.log k c d).nvm.life.trips = s.nvm.life.trips :=
  State.logFrom_life_trips s 1 k c d
@[simp] theorem State.logFrom_life_brownouts (a k c : Nat) (d : List W64) :
    (s.logFrom a k c d).nvm.life.brownouts = s.nvm.life.brownouts := by
  rcases State.logFrom_cases s a k c d with ⟨_, h⟩ | ⟨_, _, h⟩ | ⟨_, _, h⟩ <;> rw [h] <;> rfl
@[simp] theorem State.log_life_brownouts (k c : Nat) (d : List W64) : (s.log k c d).nvm.life.brownouts = s.nvm.life.brownouts :=
  State.logFrom_life_brownouts s 1 k c d
@[simp] theorem State.logFrom_life_throttles (a k c : Nat) (d : List W64) :
    (s.logFrom a k c d).nvm.life.throttles = s.nvm.life.throttles := by
  rcases State.logFrom_cases s a k c d with ⟨_, h⟩ | ⟨_, _, h⟩ | ⟨_, _, h⟩ <;> rw [h] <;> rfl
@[simp] theorem State.log_life_throttles (k c : Nat) (d : List W64) : (s.log k c d).nvm.life.throttles = s.nvm.life.throttles :=
  State.logFrom_life_throttles s 1 k c d
@[simp] theorem State.logFrom_life_holds (a k c : Nat) (d : List W64) :
    (s.logFrom a k c d).nvm.life.holds = s.nvm.life.holds := by
  rcases State.logFrom_cases s a k c d with ⟨_, h⟩ | ⟨_, _, h⟩ | ⟨_, _, h⟩ <;> rw [h] <;> rfl
@[simp] theorem State.log_life_holds (k c : Nat) (d : List W64) : (s.log k c d).nvm.life.holds = s.nvm.life.holds :=
  State.logFrom_life_holds s 1 k c d
@[simp] theorem State.logFrom_life_utc (a k c : Nat) (d : List W64) :
    (s.logFrom a k c d).nvm.life.utc = s.nvm.life.utc := by
  rcases State.logFrom_cases s a k c d with ⟨_, h⟩ | ⟨_, _, h⟩ | ⟨_, _, h⟩ <;> rw [h] <;> rfl
@[simp] theorem State.log_life_utc (k c : Nat) (d : List W64) : (s.log k c d).nvm.life.utc = s.nvm.life.utc :=
  State.logFrom_life_utc s 1 k c d
@[simp] theorem State.logFrom_life_hotSamples (a k c : Nat) (d : List W64) :
    (s.logFrom a k c d).nvm.life.hotSamples = s.nvm.life.hotSamples := by
  rcases State.logFrom_cases s a k c d with ⟨_, h⟩ | ⟨_, _, h⟩ | ⟨_, _, h⟩ <;> rw [h] <;> rfl
@[simp] theorem State.log_life_hotSamples (k c : Nat) (d : List W64) : (s.log k c d).nvm.life.hotSamples = s.nvm.life.hotSamples :=
  State.logFrom_life_hotSamples s 1 k c d
@[simp] theorem State.logFrom_life_stackMax (a k c : Nat) (d : List W64) :
    (s.logFrom a k c d).nvm.life.stackMax = s.nvm.life.stackMax := by
  rcases State.logFrom_cases s a k c d with ⟨_, h⟩ | ⟨_, _, h⟩ | ⟨_, _, h⟩ <;> rw [h] <;> rfl
@[simp] theorem State.log_life_stackMax (k c : Nat) (d : List W64) : (s.log k c d).nvm.life.stackMax = s.nvm.life.stackMax :=
  State.logFrom_life_stackMax s 1 k c d
@[simp] theorem State.logFrom_life_logicMax (a k c : Nat) (d : List W64) :
    (s.logFrom a k c d).nvm.life.logicMax = s.nvm.life.logicMax := by
  rcases State.logFrom_cases s a k c d with ⟨_, h⟩ | ⟨_, _, h⟩ | ⟨_, _, h⟩ <;> rw [h] <;> rfl
@[simp] theorem State.log_life_logicMax (k c : Nat) (d : List W64) : (s.log k c d).nvm.life.logicMax = s.nvm.life.logicMax :=
  State.logFrom_life_logicMax s 1 k c d
@[simp] theorem State.logFrom_life_fecCorrected (a k c : Nat) (d : List W64) :
    (s.logFrom a k c d).nvm.life.fecCorrected = s.nvm.life.fecCorrected := by
  rcases State.logFrom_cases s a k c d with ⟨_, h⟩ | ⟨_, _, h⟩ | ⟨_, _, h⟩ <;> rw [h] <;> rfl
@[simp] theorem State.log_life_fecCorrected (k c : Nat) (d : List W64) : (s.log k c d).nvm.life.fecCorrected = s.nvm.life.fecCorrected :=
  State.logFrom_life_fecCorrected s 1 k c d
@[simp] theorem State.logFrom_life_fecUncorrected (a k c : Nat) (d : List W64) :
    (s.logFrom a k c d).nvm.life.fecUncorrected = s.nvm.life.fecUncorrected := by
  rcases State.logFrom_cases s a k c d with ⟨_, h⟩ | ⟨_, _, h⟩ | ⟨_, _, h⟩ <;> rw [h] <;> rfl
@[simp] theorem State.log_life_fecUncorrected (k c : Nat) (d : List W64) : (s.log k c d).nvm.life.fecUncorrected = s.nvm.life.fecUncorrected :=
  State.logFrom_life_fecUncorrected s 1 k c d
@[simp] theorem State.logFrom_life_linkDowns (a k c : Nat) (d : List W64) :
    (s.logFrom a k c d).nvm.life.linkDowns = s.nvm.life.linkDowns := by
  rcases State.logFrom_cases s a k c d with ⟨_, h⟩ | ⟨_, _, h⟩ | ⟨_, _, h⟩ <;> rw [h] <;> rfl
@[simp] theorem State.log_life_linkDowns (k c : Nat) (d : List W64) : (s.log k c d).nvm.life.linkDowns = s.nvm.life.linkDowns :=
  State.logFrom_life_linkDowns s 1 k c d

/-! ## The record is present -/

theorem foldl_words (l : List LogRec) : ∀ a, l.foldl (fun n r => n + r.words) a = a + logWords l := by
  induction l with
  | nil => intro a; simp [logWords]
  | cons r l ih => intro a; simp only [List.foldl_cons, logWords]; rw [ih, ih (0 + r.words)]; omega

theorem logWords_cons (r : LogRec) (l : List LogRec) : logWords (r :: l) = r.words + logWords l := by
  show List.foldl _ _ _ = _
  rw [List.foldl_cons, foldl_words]; omega

/-- Dropping the oldest records keeps a tail that the ring holds. -/
theorem trimRing_keeps (l tail : List LogRec) (h : logWords tail ≤ 8388608) :
    ∃ pre, trimRing (logWords (l ++ tail)) (l ++ tail) = pre ++ tail := by
  induction l with
  | nil =>
    cases tail with
    | nil => exact ⟨[], rfl⟩
    | cons r t => exact ⟨[], by simp only [List.nil_append, trimRing, if_pos h]⟩
  | cons r l ih =>
    simp only [List.cons_append, trimRing]
    split
    · exact ⟨r :: l, rfl⟩
    · rw [logWords_cons, Nat.add_sub_cancel_left]; exact ih

/-- A write appends its record. -/
theorem State.logWrite_log (kind cls source sup : Nat) (data : List W64) (h : data.length ≤ 8388603) :
    ∃ pre, (s.logWrite kind cls source sup data).nvm.log = pre ++ [⟨s.nvm.logSeq + 1, kind, cls, source,
      Nat.min 65535 sup, s.nvm.life.seconds, s.nvm.life.utc, data⟩] := by
  refine trimRing_keeps _ _ ?_
  simp only [logWords, List.foldl_cons, List.foldl_nil, LogRec.words]
  omega

/-- A second write keeps the record before it. -/
theorem State.logWrite_after (kind cls source sup : Nat) (data : List W64) (pre : List LogRec) (r : LogRec)
    (hu : s.nvm.log = pre ++ [r]) (h : r.words + data.length + 5 ≤ 8388608) :
    ∃ q r', (s.logWrite kind cls source sup data).nvm.log = q ++ [r, r'] := by
  have e : s.nvm.log ++ [(⟨s.nvm.logSeq + 1, kind, cls, source, Nat.min 65535 sup, s.nvm.life.seconds, s.nvm.life.utc,
      data⟩ : LogRec)] = pre ++ [r, ⟨s.nvm.logSeq + 1, kind, cls, source, Nat.min 65535 sup, s.nvm.life.seconds,
      s.nvm.life.utc, data⟩] := by rw [hu]; simp
  simp only [State.logWrite]
  rw [e]
  obtain ⟨q, hq⟩ := trimRing_keeps pre [r, ⟨s.nvm.logSeq + 1, kind, cls, source, Nat.min 65535 sup, s.nvm.life.seconds,
      s.nvm.life.utc, data⟩] (by
    simp only [logWords, List.foldl_cons, List.foldl_nil, LogRec.words] at h ⊢
    omega)
  exact ⟨q, _, hq⟩

/-- A SNAPSHOT keeps the record before it. -/
theorem State.logSnapshot_after (pre : List LogRec) (r : LogRec) (hu : s.nvm.log = pre ++ [r]) (h : r.words ≤ 8388000) :
    ∃ q r', s.logSnapshot.nvm.log = q ++ [r, r'] := by
  refine State.logWrite_after s 0x0104 1 1 0 _ pre r hu ?_
  have w0 : ∀ m b, (bytesToWords m b).length = m := by
    intro m
    induction m with
    | zero => intro b; rfl
    | succ m ih => intro b; simp [bytesToWords, ih]
  simp only [List.length_append, State.sparesWords, State.siteMapWords, List.length_cons, List.length_nil, w0]
  omega

/-- A record of a class that R494 does not limit is present after its append. -/
theorem State.logFrom_mem (source kind cls : Nat) (data : List W64) (hc : cls ≠ 0 ∧ cls ≠ 2 ∧ cls ≠ 5 ∧ cls ≠ 6)
    (h : data.length ≤ 1000) :
    ∃ r ∈ (s.logFrom source kind cls data).nvm.log, r.seq = s.nvm.logSeq + 1 ∧ r.kind = kind ∧ r.cls = cls ∧
      r.source = source ∧ r.lifetime = s.nvm.life.seconds ∧ r.utc = s.nvm.life.utc ∧ r.data = data := by
  have key : ∃ n rt, s.logFrom source kind cls data = (State.logSnapshot { (s.logWrite kind cls source n data) with
      nvm := { (s.logWrite kind cls source n data).nvm with rates := rt } }) ∨
      s.logFrom source kind cls data = { (s.logWrite kind cls source n data) with
      nvm := { (s.logWrite kind cls source n data).nvm with rates := rt } } := by
    have e : (cls == 0 || cls == 2 || cls == 5 || cls == 6) = false := by simp; omega
    obtain ⟨b, n, rt, rt', g, h⟩ := State.logFrom_eq s source kind cls data
    rw [h, if_neg (by rw [e]; simp)]
    split
    · exact ⟨_, _, .inl rfl⟩
    · exact ⟨_, _, .inr rfl⟩
  obtain ⟨n, rt, hk | hk⟩ := key
  · obtain ⟨pre, hp⟩ := s.logWrite_log kind cls source n data (by omega)
    rw [hk]
    obtain ⟨q, r', hq⟩ := State.logSnapshot_after { (s.logWrite kind cls source n data) with
      nvm := { (s.logWrite kind cls source n data).nvm with rates := rt } } pre _ hp (by simp only [LogRec.words]; omega)
    rw [hq]
    exact ⟨_, List.mem_append_right _ (List.mem_cons_self ..), rfl, rfl, rfl, rfl, rfl, rfl, rfl⟩
  · obtain ⟨pre, hp⟩ := s.logWrite_log kind cls source n data (by omega)
    rw [hk]
    simp only [hp]
    exact ⟨_, List.mem_append_right _ (List.mem_singleton.mpr rfl), rfl, rfl, rfl, rfl, rfl, rfl, rfl⟩

end Sys2Proof.Machine
end

