-- ==== Sys2Proof/Laws/Records.lean ====
section
/-! SUPPORT. Configuration records (R478 to R481): a record that the part makes of a well-formed body is valid, and what a write that was cut
short leaves. -/

namespace Sys2Proof.Machine

/-- A record made of a body that meets R479 is valid. -/
theorem ConfigRec.made_valid (seq : Nat) (body : List Byte) (k : Nat) (h : 1 ≤ seq) (h' : seq < 2 ^ 64) (hb : bodyOk tandemOk body = true) :
    (ConfigRec.made seq body k).valid = true := by
  simp only [ConfigRec.valid, ConfigRec.made, Nat.mod_eq_of_lt h', hb]
  simp [h] <;> omega

@[simp] theorem ConfigRec.made_seq (seq : Nat) (body : List Byte) (k : Nat) : (ConfigRec.made seq body k).seq = seq % 2 ^ 64 := rfl
@[simp] theorem ConfigRec.made_body (seq : Nat) (body : List Byte) (k : Nat) : (ConfigRec.made seq body k).body = body := rfl

/-- A slot whose header is zero holds no valid record. -/
theorem ConfigRec.blank_invalid (body : List Byte) : ({ ConfigRec.blank with body := body } : ConfigRec).valid = false := by
  simp [ConfigRec.valid, ConfigRec.blank]

/-- A write of which nothing landed leaves the slot as it was. -/
@[simp] theorem ConfigRec.torn_zero (new : ConfigRec) (old : Option ConfigRec) : ConfigRec.torn 0 new old = old := by
  simp [ConfigRec.torn]

end Sys2Proof.Machine
end

