-- ==== Sys2Proof/Laws/Mailbox.lean ====
section
/-! SUPPORT. What raising a cause, counting, and placing a reply can change (R416, R420, R444): the channel named, and what the part shows
to the outside. One lemma per field of the state, and one per field of a channel. -/

namespace Sys2Proof.Machine

variable (s : State)

/-- A field of one channel after a change of another or of the same channel, where the change keeps that field. -/
theorem State.modChan_keeps {α : Type} (g : Channel → α) (ch : Fin 17) (f : Channel → Channel) (j : Fin 17)
    (h : ∀ c, g (f c) = g c) : g (s.modChan ch f).chans[j.val] = g s.chans[j.val] := by
  by_cases e : j = ch
  · subst e; simp [h]
  · rw [State.modChan_other s ch j f e]

/-- Sending messages: the whole effect is on the unsent bits of the channel and on what is shown outside. -/
theorem State.sendVectors_frame (ch : Fin 17) (l : List Nat) : ∀ s : State, ∃ v o,
    s.sendVectors ch l = { s with chans := v, out := o } ∧
    (∀ j, j ≠ ch → v[j.val] = s.chans[j.val]) ∧ ∃ u, v[ch.val] = { s.chans[ch.val] with irqUnsent := u } := by
  induction l with
  | nil => intro s; exact ⟨s.chans, s.out, rfl, fun _ _ => rfl, _, rfl⟩
  | cons i is ih =>
    intro s
    simp only [State.sendVectors]
    split
    · obtain ⟨v, o, h, hj, u, hu⟩ := ih ((s.modChan ch (fun c => { c with irqUnsent := c.irqUnsent - 2 ^ i })).emit
        (.msix ch.val i ((s.chans[ch.val]).msix.getD i ⟨0, 0, true⟩).addr ((s.chans[ch.val]).msix.getD i ⟨0, 0, true⟩).data))
      refine ⟨v, o, h, fun j e => ?_, u, ?_⟩
      · rw [hj j e, State.emit_chans]; exact State.modChan_other s ch j _ e
      · rw [hu]; simp
    · exact ih s

/-! ## Fields of the state -/

@[simp] theorem State.sendVectors_pending (ch : Fin 17) (l : List Nat) : (s.sendVectors ch l).pending = s.pending := by
  obtain ⟨v, o, h, -⟩ := State.sendVectors_frame ch l s
  rw [h]
@[simp] theorem State.sendVectors_clock (ch : Fin 17) (l : List Nat) : (s.sendVectors ch l).clock = s.clock := by
  obtain ⟨v, o, h, -⟩ := State.sendVectors_frame ch l s
  rw [h]
@[simp] theorem State.sendVectors_boot (ch : Fin 17) (l : List Nat) : (s.sendVectors ch l).boot = s.boot := by
  obtain ⟨v, o, h, -⟩ := State.sendVectors_frame ch l s
  rw [h]
@[simp] theorem State.sendVectors_nvm (ch : Fin 17) (l : List Nat) : (s.sendVectors ch l).nvm = s.nvm := by
  obtain ⟨v, o, h, -⟩ := State.sendVectors_frame ch l s
  rw [h]
@[simp] theorem State.sendVectors_power (ch : Fin 17) (l : List Nat) : (s.sendVectors ch l).power = s.power := by
  obtain ⟨v, o, h, -⟩ := State.sendVectors_frame ch l s
  rw [h]
@[simp] theorem State.sendVectors_pannier (ch : Fin 17) (l : List Nat) : (s.sendVectors ch l).pannier = s.pannier := by
  obtain ⟨v, o, h, -⟩ := State.sendVectors_frame ch l s
  rw [h]
@[simp] theorem State.sendVectors_parts (ch : Fin 17) (l : List Nat) : (s.sendVectors ch l).parts = s.parts := by
  obtain ⟨v, o, h, -⟩ := State.sendVectors_frame ch l s
  rw [h]
@[simp] theorem State.sendVectors_banks (ch : Fin 17) (l : List Nat) : (s.sendVectors ch l).banks = s.banks := by
  obtain ⟨v, o, h, -⟩ := State.sendVectors_frame ch l s
  rw [h]
@[simp] theorem State.sendVectors_pool (ch : Fin 17) (l : List Nat) : (s.sendVectors ch l).pool = s.pool := by
  obtain ⟨v, o, h, -⟩ := State.sendVectors_frame ch l s
  rw [h]
@[simp] theorem State.sendVectors_devDrbg (ch : Fin 17) (l : List Nat) : (s.sendVectors ch l).devDrbg = s.devDrbg := by
  obtain ⟨v, o, h, -⟩ := State.sendVectors_frame ch l s
  rw [h]
@[simp] theorem State.sendVectors_rngAlarm (ch : Fin 17) (l : List Nat) : (s.sendVectors ch l).rngAlarm = s.rngAlarm := by
  obtain ⟨v, o, h, -⟩ := State.sendVectors_frame ch l s
  rw [h]
@[simp] theorem State.sendVectors_debugAccess (ch : Fin 17) (l : List Nat) : (s.sendVectors ch l).debugAccess = s.debugAccess := by
  obtain ⟨v, o, h, -⟩ := State.sendVectors_frame ch l s
  rw [h]
@[simp] theorem State.sendVectors_spdm (ch : Fin 17) (l : List Nat) : (s.sendVectors ch l).spdm = s.spdm := by
  obtain ⟨v, o, h, -⟩ := State.sendVectors_frame ch l s
  rw [h]
@[simp] theorem State.sendVectors_i3c (ch : Fin 17) (l : List Nat) : (s.sendVectors ch l).i3c = s.i3c := by
  obtain ⟨v, o, h, -⟩ := State.sendVectors_frame ch l s
  rw [h]
@[simp] theorem State.sendVectors_links (ch : Fin 17) (l : List Nat) : (s.sendVectors ch l).links = s.links := by
  obtain ⟨v, o, h, -⟩ := State.sendVectors_frame ch l s
  rw [h]
@[simp] theorem State.sendVectors_clusters (ch : Fin 17) (l : List Nat) : (s.sendVectors ch l).clusters = s.clusters := by
  obtain ⟨v, o, h, -⟩ := State.sendVectors_frame ch l s
  rw [h]
@[simp] theorem State.sendVectors_tandem (ch : Fin 17) (l : List Nat) : (s.sendVectors ch l).tandem = s.tandem := by
  obtain ⟨v, o, h, -⟩ := State.sendVectors_frame ch l s
  rw [h]
@[simp] theorem State.sendVectors_free (ch : Fin 17) (l : List Nat) : (s.sendVectors ch l).free = s.free := by
  obtain ⟨v, o, h, -⟩ := State.sendVectors_frame ch l s
  rw [h]

@[simp] theorem State.sendVectors_partialCmd (ch j : Fin 17) (l : List Nat) :
    ((s.sendVectors ch l).chans[j.val]).partialCmd = (s.chans[j.val]).partialCmd := by
  obtain ⟨v, o, h, hj, u, hu⟩ := State.sendVectors_frame ch l s
  rw [h]
  by_cases e : j = ch
  · subst e; simp [hu]
  · simp [hj j e]
@[simp] theorem State.sendVectors_waiting (ch j : Fin 17) (l : List Nat) :
    ((s.sendVectors ch l).chans[j.val]).waiting = (s.chans[j.val]).waiting := by
  obtain ⟨v, o, h, hj, u, hu⟩ := State.sendVectors_frame ch l s
  rw [h]
  by_cases e : j = ch
  · subst e; simp [hu]
  · simp [hj j e]
@[simp] theorem State.sendVectors_cmdLost (ch j : Fin 17) (l : List Nat) :
    ((s.sendVectors ch l).chans[j.val]).cmdLost = (s.chans[j.val]).cmdLost := by
  obtain ⟨v, o, h, hj, u, hu⟩ := State.sendVectors_frame ch l s
  rw [h]
  by_cases e : j = ch
  · subst e; simp [hu]
  · simp [hj j e]
@[simp] theorem State.sendVectors_held (ch j : Fin 17) (l : List Nat) :
    ((s.sendVectors ch l).chans[j.val]).held = (s.chans[j.val]).held := by
  obtain ⟨v, o, h, hj, u, hu⟩ := State.sendVectors_frame ch l s
  rw [h]
  by_cases e : j = ch
  · subst e; simp [hu]
  · simp [hj j e]
@[simp] theorem State.sendVectors_asyncs (ch j : Fin 17) (l : List Nat) :
    ((s.sendVectors ch l).chans[j.val]).asyncs = (s.chans[j.val]).asyncs := by
  obtain ⟨v, o, h, hj, u, hu⟩ := State.sendVectors_frame ch l s
  rw [h]
  by_cases e : j = ch
  · subst e; simp [hu]
  · simp [hj j e]
@[simp] theorem State.sendVectors_unplaced (ch j : Fin 17) (l : List Nat) :
    ((s.sendVectors ch l).chans[j.val]).unplaced = (s.chans[j.val]).unplaced := by
  obtain ⟨v, o, h, hj, u, hu⟩ := State.sendVectors_frame ch l s
  rw [h]
  by_cases e : j = ch
  · subst e; simp [hu]
  · simp [hj j e]
@[simp] theorem State.sendVectors_replies (ch j : Fin 17) (l : List Nat) :
    ((s.sendVectors ch l).chans[j.val]).replies = (s.chans[j.val]).replies := by
  obtain ⟨v, o, h, hj, u, hu⟩ := State.sendVectors_frame ch l s
  rw [h]
  by_cases e : j = ch
  · subst e; simp [hu]
  · simp [hj j e]
@[simp] theorem State.sendVectors_rplEmpty (ch j : Fin 17) (l : List Nat) :
    ((s.sendVectors ch l).chans[j.val]).rplEmpty = (s.chans[j.val]).rplEmpty := by
  obtain ⟨v, o, h, hj, u, hu⟩ := State.sendVectors_frame ch l s
  rw [h]
  by_cases e : j = ch
  · subst e; simp [hu]
  · simp [hj j e]
@[simp] theorem State.sendVectors_events (ch j : Fin 17) (l : List Nat) :
    ((s.sendVectors ch l).chans[j.val]).events = (s.chans[j.val]).events := by
  obtain ⟨v, o, h, hj, u, hu⟩ := State.sendVectors_frame ch l s
  rw [h]
  by_cases e : j = ch
  · subst e; simp [hu]
  · simp [hj j e]
@[simp] theorem State.sendVectors_evtEmpty (ch j : Fin 17) (l : List Nat) :
    ((s.sendVectors ch l).chans[j.val]).evtEmpty = (s.chans[j.val]).evtEmpty := by
  obtain ⟨v, o, h, hj, u, hu⟩ := State.sendVectors_frame ch l s
  rw [h]
  by_cases e : j = ch
  · subst e; simp [hu]
  · simp [hj j e]
@[simp] theorem State.sendVectors_evtDropped (ch j : Fin 17) (l : List Nat) :
    ((s.sendVectors ch l).chans[j.val]).evtDropped = (s.chans[j.val]).evtDropped := by
  obtain ⟨v, o, h, hj, u, hu⟩ := State.sendVectors_frame ch l s
  rw [h]
  by_cases e : j = ch
  · subst e; simp [hu]
  · simp [hj j e]
@[simp] theorem State.sendVectors_eseq (ch j : Fin 17) (l : List Nat) :
    ((s.sendVectors ch l).chans[j.val]).eseq = (s.chans[j.val]).eseq := by
  obtain ⟨v, o, h, hj, u, hu⟩ := State.sendVectors_frame ch l s
  rw [h]
  by_cases e : j = ch
  · subst e; simp [hu]
  · simp [hj j e]
@[simp] theorem State.sendVectors_irqMask (ch j : Fin 17) (l : List Nat) :
    ((s.sendVectors ch l).chans[j.val]).irqMask = (s.chans[j.val]).irqMask := by
  obtain ⟨v, o, h, hj, u, hu⟩ := State.sendVectors_frame ch l s
  rw [h]
  by_cases e : j = ch
  · subst e; simp [hu]
  · simp [hj j e]
@[simp] theorem State.sendVectors_irqCause (ch j : Fin 17) (l : List Nat) :
    ((s.sendVectors ch l).chans[j.val]).irqCause = (s.chans[j.val]).irqCause := by
  obtain ⟨v, o, h, hj, u, hu⟩ := State.sendVectors_frame ch l s
  rw [h]
  by_cases e : j = ch
  · subst e; simp [hu]
  · simp [hj j e]
@[simp] theorem State.sendVectors_seqExpect (ch j : Fin 17) (l : List Nat) :
    ((s.sendVectors ch l).chans[j.val]).seqExpect = (s.chans[j.val]).seqExpect := by
  obtain ⟨v, o, h, hj, u, hu⟩ := State.sendVectors_frame ch l s
  rw [h]
  by_cases e : j = ch
  · subst e; simp [hu]
  · simp [hj j e]
@[simp] theorem State.sendVectors_chain (ch j : Fin 17) (l : List Nat) :
    ((s.sendVectors ch l).chans[j.val]).chain = (s.chans[j.val]).chain := by
  obtain ⟨v, o, h, hj, u, hu⟩ := State.sendVectors_frame ch l s
  rw [h]
  by_cases e : j = ch
  · subst e; simp [hu]
  · simp [hj j e]
@[simp] theorem State.sendVectors_counts (ch j : Fin 17) (l : List Nat) :
    ((s.sendVectors ch l).chans[j.val]).counts = (s.chans[j.val]).counts := by
  obtain ⟨v, o, h, hj, u, hu⟩ := State.sendVectors_frame ch l s
  rw [h]
  by_cases e : j = ch
  · subst e; simp [hu]
  · simp [hj j e]
@[simp] theorem State.sendVectors_msix (ch j : Fin 17) (l : List Nat) :
    ((s.sendVectors ch l).chans[j.val]).msix = (s.chans[j.val]).msix := by
  obtain ⟨v, o, h, hj, u, hu⟩ := State.sendVectors_frame ch l s
  rw [h]
  by_cases e : j = ch
  · subst e; simp [hu]
  · simp [hj j e]
@[simp] theorem State.sendVectors_d3hot (ch j : Fin 17) (l : List Nat) :
    ((s.sendVectors ch l).chans[j.val]).d3hot = (s.chans[j.val]).d3hot := by
  obtain ⟨v, o, h, hj, u, hu⟩ := State.sendVectors_frame ch l s
  rw [h]
  by_cases e : j = ch
  · subst e; simp [hu]
  · simp [hj j e]

theorem State.sendVectors_other (ch j : Fin 17) (l : List Nat) (e : j ≠ ch) :
    (s.sendVectors ch l).chans[j.val] = s.chans[j.val] := by
  obtain ⟨v, o, h, hj, -⟩ := State.sendVectors_frame ch l s
  rw [h]; exact hj j e

@[simp] theorem State.flushIrq_pending (ch : Fin 17) : (s.flushIrq ch).pending = s.pending := by simp [State.flushIrq]
@[simp] theorem State.raise_pending (ch : Fin 17) (i : Nat) : (s.raise ch i).pending = s.pending := by
  unfold State.raise; split <;> simp
@[simp] theorem State.count_pending (ch : Fin 17) (k : Count) (n : Nat) : (s.count ch k n).pending = s.pending := rfl
@[simp] theorem State.appendPacket_pending (ch : Fin 17) (pkt : List W64) : (s.appendPacket ch pkt).pending = s.pending := by
  unfold State.appendPacket; simp only []; split <;> simp
@[simp] theorem State.reply_pending (ch : Fin 17) (r : Req) (st : Status) (ws : List W64) : (s.reply ch r st ws).pending = s.pending := by
  unfold State.reply; split <;> simp
@[simp] theorem State.flushIrq_clock (ch : Fin 17) : (s.flushIrq ch).clock = s.clock := by simp [State.flushIrq]
@[simp] theorem State.raise_clock (ch : Fin 17) (i : Nat) : (s.raise ch i).clock = s.clock := by
  unfold State.raise; split <;> simp
@[simp] theorem State.count_clock (ch : Fin 17) (k : Count) (n : Nat) : (s.count ch k n).clock = s.clock := rfl
@[simp] theorem State.appendPacket_clock (ch : Fin 17) (pkt : List W64) : (s.appendPacket ch pkt).clock = s.clock := by
  unfold State.appendPacket; simp only []; split <;> simp
@[simp] theorem State.reply_clock (ch : Fin 17) (r : Req) (st : Status) (ws : List W64) : (s.reply ch r st ws).clock = s.clock := by
  unfold State.reply; split <;> simp
@[simp] theorem State.flushIrq_boot (ch : Fin 17) : (s.flushIrq ch).boot = s.boot := by simp [State.flushIrq]
@[simp] theorem State.raise_boot (ch : Fin 17) (i : Nat) : (s.raise ch i).boot = s.boot := by
  unfold State.raise; split <;> simp
@[simp] theorem State.count_boot (ch : Fin 17) (k : Count) (n : Nat) : (s.count ch k n).boot = s.boot := rfl
@[simp] theorem State.appendPacket_boot (ch : Fin 17) (pkt : List W64) : (s.appendPacket ch pkt).boot = s.boot := by
  unfold State.appendPacket; simp only []; split <;> simp
@[simp] theorem State.reply_boot (ch : Fin 17) (r : Req) (st : Status) (ws : List W64) : (s.reply ch r st ws).boot = s.boot := by
  unfold State.reply; split <;> simp
@[simp] theorem State.flushIrq_nvm (ch : Fin 17) : (s.flushIrq ch).nvm = s.nvm := by simp [State.flushIrq]
@[simp] theorem State.raise_nvm (ch : Fin 17) (i : Nat) : (s.raise ch i).nvm = s.nvm := by
  unfold State.raise; split <;> simp
@[simp] theorem State.count_nvm (ch : Fin 17) (k : Count) (n : Nat) : (s.count ch k n).nvm = s.nvm := rfl
@[simp] theorem State.appendPacket_nvm (ch : Fin 17) (pkt : List W64) : (s.appendPacket ch pkt).nvm = s.nvm := by
  unfold State.appendPacket; simp only []; split <;> simp
@[simp] theorem State.reply_nvm (ch : Fin 17) (r : Req) (st : Status) (ws : List W64) : (s.reply ch r st ws).nvm = s.nvm := by
  unfold State.reply; split <;> simp
@[simp] theorem State.flushIrq_power (ch : Fin 17) : (s.flushIrq ch).power = s.power := by simp [State.flushIrq]
@[simp] theorem State.raise_power (ch : Fin 17) (i : Nat) : (s.raise ch i).power = s.power := by
  unfold State.raise; split <;> simp
@[simp] theorem State.count_power (ch : Fin 17) (k : Count) (n : Nat) : (s.count ch k n).power = s.power := rfl
@[simp] theorem State.appendPacket_power (ch : Fin 17) (pkt : List W64) : (s.appendPacket ch pkt).power = s.power := by
  unfold State.appendPacket; simp only []; split <;> simp
@[simp] theorem State.reply_power (ch : Fin 17) (r : Req) (st : Status) (ws : List W64) : (s.reply ch r st ws).power = s.power := by
  unfold State.reply; split <;> simp
@[simp] theorem State.flushIrq_pannier (ch : Fin 17) : (s.flushIrq ch).pannier = s.pannier := by simp [State.flushIrq]
@[simp] theorem State.raise_pannier (ch : Fin 17) (i : Nat) : (s.raise ch i).pannier = s.pannier := by
  unfold State.raise; split <;> simp
@[simp] theorem State.count_pannier (ch : Fin 17) (k : Count) (n : Nat) : (s.count ch k n).pannier = s.pannier := rfl
@[simp] theorem State.appendPacket_pannier (ch : Fin 17) (pkt : List W64) : (s.appendPacket ch pkt).pannier = s.pannier := by
  unfold State.appendPacket; simp only []; split <;> simp
@[simp] theorem State.reply_pannier (ch : Fin 17) (r : Req) (st : Status) (ws : List W64) : (s.reply ch r st ws).pannier = s.pannier := by
  unfold State.reply; split <;> simp
@[simp] theorem State.flushIrq_parts (ch : Fin 17) : (s.flushIrq ch).parts = s.parts := by simp [State.flushIrq]
@[simp] theorem State.raise_parts (ch : Fin 17) (i : Nat) : (s.raise ch i).parts = s.parts := by
  unfold State.raise; split <;> simp
@[simp] theorem State.count_parts (ch : Fin 17) (k : Count) (n : Nat) : (s.count ch k n).parts = s.parts := rfl
@[simp] theorem State.appendPacket_parts (ch : Fin 17) (pkt : List W64) : (s.appendPacket ch pkt).parts = s.parts := by
  unfold State.appendPacket; simp only []; split <;> simp
@[simp] theorem State.reply_parts (ch : Fin 17) (r : Req) (st : Status) (ws : List W64) : (s.reply ch r st ws).parts = s.parts := by
  unfold State.reply; split <;> simp
@[simp] theorem State.flushIrq_banks (ch : Fin 17) : (s.flushIrq ch).banks = s.banks := by simp [State.flushIrq]
@[simp] theorem State.raise_banks (ch : Fin 17) (i : Nat) : (s.raise ch i).banks = s.banks := by
  unfold State.raise; split <;> simp
@[simp] theorem State.count_banks (ch : Fin 17) (k : Count) (n : Nat) : (s.count ch k n).banks = s.banks := rfl
@[simp] theorem State.appendPacket_banks (ch : Fin 17) (pkt : List W64) : (s.appendPacket ch pkt).banks = s.banks := by
  unfold State.appendPacket; simp only []; split <;> simp
@[simp] theorem State.reply_banks (ch : Fin 17) (r : Req) (st : Status) (ws : List W64) : (s.reply ch r st ws).banks = s.banks := by
  unfold State.reply; split <;> simp
@[simp] theorem State.flushIrq_pool (ch : Fin 17) : (s.flushIrq ch).pool = s.pool := by simp [State.flushIrq]
@[simp] theorem State.raise_pool (ch : Fin 17) (i : Nat) : (s.raise ch i).pool = s.pool := by
  unfold State.raise; split <;> simp
@[simp] theorem State.count_pool (ch : Fin 17) (k : Count) (n : Nat) : (s.count ch k n).pool = s.pool := rfl
@[simp] theorem State.appendPacket_pool (ch : Fin 17) (pkt : List W64) : (s.appendPacket ch pkt).pool = s.pool := by
  unfold State.appendPacket; simp only []; split <;> simp
@[simp] theorem State.reply_pool (ch : Fin 17) (r : Req) (st : Status) (ws : List W64) : (s.reply ch r st ws).pool = s.pool := by
  unfold State.reply; split <;> simp
@[simp] theorem State.flushIrq_devDrbg (ch : Fin 17) : (s.flushIrq ch).devDrbg = s.devDrbg := by simp [State.flushIrq]
@[simp] theorem State.raise_devDrbg (ch : Fin 17) (i : Nat) : (s.raise ch i).devDrbg = s.devDrbg := by
  unfold State.raise; split <;> simp
@[simp] theorem State.count_devDrbg (ch : Fin 17) (k : Count) (n : Nat) : (s.count ch k n).devDrbg = s.devDrbg := rfl
@[simp] theorem State.appendPacket_devDrbg (ch : Fin 17) (pkt : List W64) : (s.appendPacket ch pkt).devDrbg = s.devDrbg := by
  unfold State.appendPacket; simp only []; split <;> simp
@[simp] theorem State.reply_devDrbg (ch : Fin 17) (r : Req) (st : Status) (ws : List W64) : (s.reply ch r st ws).devDrbg = s.devDrbg := by
  unfold State.reply; split <;> simp
@[simp] theorem State.flushIrq_rngAlarm (ch : Fin 17) : (s.flushIrq ch).rngAlarm = s.rngAlarm := by simp [State.flushIrq]
@[simp] theorem State.raise_rngAlarm (ch : Fin 17) (i : Nat) : (s.raise ch i).rngAlarm = s.rngAlarm := by
  unfold State.raise; split <;> simp
@[simp] theorem State.count_rngAlarm (ch : Fin 17) (k : Count) (n : Nat) : (s.count ch k n).rngAlarm = s.rngAlarm := rfl
@[simp] theorem State.appendPacket_rngAlarm (ch : Fin 17) (pkt : List W64) : (s.appendPacket ch pkt).rngAlarm = s.rngAlarm := by
  unfold State.appendPacket; simp only []; split <;> simp
@[simp] theorem State.reply_rngAlarm (ch : Fin 17) (r : Req) (st : Status) (ws : List W64) : (s.reply ch r st ws).rngAlarm = s.rngAlarm := by
  unfold State.reply; split <;> simp
@[simp] theorem State.flushIrq_debugAccess (ch : Fin 17) : (s.flushIrq ch).debugAccess = s.debugAccess := by simp [State.flushIrq]
@[simp] theorem State.raise_debugAccess (ch : Fin 17) (i : Nat) : (s.raise ch i).debugAccess = s.debugAccess := by
  unfold State.raise; split <;> simp
@[simp] theorem State.count_debugAccess (ch : Fin 17) (k : Count) (n : Nat) : (s.count ch k n).debugAccess = s.debugAccess := rfl
@[simp] theorem State.appendPacket_debugAccess (ch : Fin 17) (pkt : List W64) : (s.appendPacket ch pkt).debugAccess = s.debugAccess := by
  unfold State.appendPacket; simp only []; split <;> simp
@[simp] theorem State.reply_debugAccess (ch : Fin 17) (r : Req) (st : Status) (ws : List W64) : (s.reply ch r st ws).debugAccess = s.debugAccess := by
  unfold State.reply; split <;> simp
@[simp] theorem State.flushIrq_spdm (ch : Fin 17) : (s.flushIrq ch).spdm = s.spdm := by simp [State.flushIrq]
@[simp] theorem State.raise_spdm (ch : Fin 17) (i : Nat) : (s.raise ch i).spdm = s.spdm := by
  unfold State.raise; split <;> simp
@[simp] theorem State.count_spdm (ch : Fin 17) (k : Count) (n : Nat) : (s.count ch k n).spdm = s.spdm := rfl
@[simp] theorem State.appendPacket_spdm (ch : Fin 17) (pkt : List W64) : (s.appendPacket ch pkt).spdm = s.spdm := by
  unfold State.appendPacket; simp only []; split <;> simp
@[simp] theorem State.reply_spdm (ch : Fin 17) (r : Req) (st : Status) (ws : List W64) : (s.reply ch r st ws).spdm = s.spdm := by
  unfold State.reply; split <;> simp
@[simp] theorem State.flushIrq_i3c (ch : Fin 17) : (s.flushIrq ch).i3c = s.i3c := by simp [State.flushIrq]
@[simp] theorem State.raise_i3c (ch : Fin 17) (i : Nat) : (s.raise ch i).i3c = s.i3c := by
  unfold State.raise; split <;> simp
@[simp] theorem State.count_i3c (ch : Fin 17) (k : Count) (n : Nat) : (s.count ch k n).i3c = s.i3c := rfl
@[simp] theorem State.appendPacket_i3c (ch : Fin 17) (pkt : List W64) : (s.appendPacket ch pkt).i3c = s.i3c := by
  unfold State.appendPacket; simp only []; split <;> simp
@[simp] theorem State.reply_i3c (ch : Fin 17) (r : Req) (st : Status) (ws : List W64) : (s.reply ch r st ws).i3c = s.i3c := by
  unfold State.reply; split <;> simp
@[simp] theorem State.flushIrq_links (ch : Fin 17) : (s.flushIrq ch).links = s.links := by simp [State.flushIrq]
@[simp] theorem State.raise_links (ch : Fin 17) (i : Nat) : (s.raise ch i).links = s.links := by
  unfold State.raise; split <;> simp
@[simp] theorem State.count_links (ch : Fin 17) (k : Count) (n : Nat) : (s.count ch k n).links = s.links := rfl
@[simp] theorem State.appendPacket_links (ch : Fin 17) (pkt : List W64) : (s.appendPacket ch pkt).links = s.links := by
  unfold State.appendPacket; simp only []; split <;> simp
@[simp] theorem State.reply_links (ch : Fin 17) (r : Req) (st : Status) (ws : List W64) : (s.reply ch r st ws).links = s.links := by
  unfold State.reply; split <;> simp
@[simp] theorem State.flushIrq_clusters (ch : Fin 17) : (s.flushIrq ch).clusters = s.clusters := by simp [State.flushIrq]
@[simp] theorem State.raise_clusters (ch : Fin 17) (i : Nat) : (s.raise ch i).clusters = s.clusters := by
  unfold State.raise; split <;> simp
@[simp] theorem State.count_clusters (ch : Fin 17) (k : Count) (n : Nat) : (s.count ch k n).clusters = s.clusters := rfl
@[simp] theorem State.appendPacket_clusters (ch : Fin 17) (pkt : List W64) : (s.appendPacket ch pkt).clusters = s.clusters := by
  unfold State.appendPacket; simp only []; split <;> simp
@[simp] theorem State.reply_clusters (ch : Fin 17) (r : Req) (st : Status) (ws : List W64) : (s.reply ch r st ws).clusters = s.clusters := by
  unfold State.reply; split <;> simp
@[simp] theorem State.flushIrq_tandem (ch : Fin 17) : (s.flushIrq ch).tandem = s.tandem := by simp [State.flushIrq]
@[simp] theorem State.raise_tandem (ch : Fin 17) (i : Nat) : (s.raise ch i).tandem = s.tandem := by
  unfold State.raise; split <;> simp
@[simp] theorem State.count_tandem (ch : Fin 17) (k : Count) (n : Nat) : (s.count ch k n).tandem = s.tandem := rfl
@[simp] theorem State.appendPacket_tandem (ch : Fin 17) (pkt : List W64) : (s.appendPacket ch pkt).tandem = s.tandem := by
  unfold State.appendPacket; simp only []; split <;> simp
@[simp] theorem State.reply_tandem (ch : Fin 17) (r : Req) (st : Status) (ws : List W64) : (s.reply ch r st ws).tandem = s.tandem := by
  unfold State.reply; split <;> simp
@[simp] theorem State.flushIrq_free (ch : Fin 17) : (s.flushIrq ch).free = s.free := by simp [State.flushIrq]
@[simp] theorem State.raise_free (ch : Fin 17) (i : Nat) : (s.raise ch i).free = s.free := by
  unfold State.raise; split <;> simp
@[simp] theorem State.count_free (ch : Fin 17) (k : Count) (n : Nat) : (s.count ch k n).free = s.free := rfl
@[simp] theorem State.appendPacket_free (ch : Fin 17) (pkt : List W64) : (s.appendPacket ch pkt).free = s.free := by
  unfold State.appendPacket; simp only []; split <;> simp
@[simp] theorem State.reply_free (ch : Fin 17) (r : Req) (st : Status) (ws : List W64) : (s.reply ch r st ws).free = s.free := by
  unfold State.reply; split <;> simp

/-! ## Fields of a channel -/

@[simp] theorem State.flushIrq_ch_partialCmd (ch j : Fin 17) : ((s.flushIrq ch).chans[j.val]).partialCmd = (s.chans[j.val]).partialCmd := by
  simp [State.flushIrq]
@[simp] theorem State.raise_ch_partialCmd (ch j : Fin 17) (i : Nat) : ((s.raise ch i).chans[j.val]).partialCmd = (s.chans[j.val]).partialCmd := by
  unfold State.raise
  split
  · rfl
  · rw [State.flushIrq_ch_partialCmd]; exact State.modChan_keeps s (fun c => c.partialCmd) ch _ j (fun _ => rfl)
@[simp] theorem State.count_ch_partialCmd (ch j : Fin 17) (k : Count) (n : Nat) :
    ((s.count ch k n).chans[j.val]).partialCmd = (s.chans[j.val]).partialCmd := State.modChan_keeps s (fun c => c.partialCmd) ch _ j (fun _ => rfl)
@[simp] theorem State.appendPacket_ch_partialCmd (ch j : Fin 17) (pkt : List W64) :
    ((s.appendPacket ch pkt).chans[j.val]).partialCmd = (s.chans[j.val]).partialCmd := by
  unfold State.appendPacket
  simp only []
  split
  · rw [State.raise_ch_partialCmd]; exact State.modChan_keeps s (fun c => c.partialCmd) ch _ j (fun _ => rfl)
  · exact State.modChan_keeps s (fun c => c.partialCmd) ch _ j (fun _ => rfl)
@[simp] theorem State.reply_ch_partialCmd (ch j : Fin 17) (r : Req) (st : Status) (ws : List W64) :
    ((s.reply ch r st ws).chans[j.val]).partialCmd = (s.chans[j.val]).partialCmd := by
  unfold State.reply; split <;> simp
@[simp] theorem State.flushIrq_ch_waiting (ch j : Fin 17) : ((s.flushIrq ch).chans[j.val]).waiting = (s.chans[j.val]).waiting := by
  simp [State.flushIrq]
@[simp] theorem State.raise_ch_waiting (ch j : Fin 17) (i : Nat) : ((s.raise ch i).chans[j.val]).waiting = (s.chans[j.val]).waiting := by
  unfold State.raise
  split
  · rfl
  · rw [State.flushIrq_ch_waiting]; exact State.modChan_keeps s (fun c => c.waiting) ch _ j (fun _ => rfl)
@[simp] theorem State.count_ch_waiting (ch j : Fin 17) (k : Count) (n : Nat) :
    ((s.count ch k n).chans[j.val]).waiting = (s.chans[j.val]).waiting := State.modChan_keeps s (fun c => c.waiting) ch _ j (fun _ => rfl)
@[simp] theorem State.appendPacket_ch_waiting (ch j : Fin 17) (pkt : List W64) :
    ((s.appendPacket ch pkt).chans[j.val]).waiting = (s.chans[j.val]).waiting := by
  unfold State.appendPacket
  simp only []
  split
  · rw [State.raise_ch_waiting]; exact State.modChan_keeps s (fun c => c.waiting) ch _ j (fun _ => rfl)
  · exact State.modChan_keeps s (fun c => c.waiting) ch _ j (fun _ => rfl)
@[simp] theorem State.reply_ch_waiting (ch j : Fin 17) (r : Req) (st : Status) (ws : List W64) :
    ((s.reply ch r st ws).chans[j.val]).waiting = (s.chans[j.val]).waiting := by
  unfold State.reply; split <;> simp
@[simp] theorem State.flushIrq_ch_cmdLost (ch j : Fin 17) : ((s.flushIrq ch).chans[j.val]).cmdLost = (s.chans[j.val]).cmdLost := by
  simp [State.flushIrq]
@[simp] theorem State.raise_ch_cmdLost (ch j : Fin 17) (i : Nat) : ((s.raise ch i).chans[j.val]).cmdLost = (s.chans[j.val]).cmdLost := by
  unfold State.raise
  split
  · rfl
  · rw [State.flushIrq_ch_cmdLost]; exact State.modChan_keeps s (fun c => c.cmdLost) ch _ j (fun _ => rfl)
@[simp] theorem State.count_ch_cmdLost (ch j : Fin 17) (k : Count) (n : Nat) :
    ((s.count ch k n).chans[j.val]).cmdLost = (s.chans[j.val]).cmdLost := State.modChan_keeps s (fun c => c.cmdLost) ch _ j (fun _ => rfl)
@[simp] theorem State.appendPacket_ch_cmdLost (ch j : Fin 17) (pkt : List W64) :
    ((s.appendPacket ch pkt).chans[j.val]).cmdLost = (s.chans[j.val]).cmdLost := by
  unfold State.appendPacket
  simp only []
  split
  · rw [State.raise_ch_cmdLost]; exact State.modChan_keeps s (fun c => c.cmdLost) ch _ j (fun _ => rfl)
  · exact State.modChan_keeps s (fun c => c.cmdLost) ch _ j (fun _ => rfl)
@[simp] theorem State.reply_ch_cmdLost (ch j : Fin 17) (r : Req) (st : Status) (ws : List W64) :
    ((s.reply ch r st ws).chans[j.val]).cmdLost = (s.chans[j.val]).cmdLost := by
  unfold State.reply; split <;> simp
@[simp] theorem State.flushIrq_ch_held (ch j : Fin 17) : ((s.flushIrq ch).chans[j.val]).held = (s.chans[j.val]).held := by
  simp [State.flushIrq]
@[simp] theorem State.raise_ch_held (ch j : Fin 17) (i : Nat) : ((s.raise ch i).chans[j.val]).held = (s.chans[j.val]).held := by
  unfold State.raise
  split
  · rfl
  · rw [State.flushIrq_ch_held]; exact State.modChan_keeps s (fun c => c.held) ch _ j (fun _ => rfl)
@[simp] theorem State.count_ch_held (ch j : Fin 17) (k : Count) (n : Nat) :
    ((s.count ch k n).chans[j.val]).held = (s.chans[j.val]).held := State.modChan_keeps s (fun c => c.held) ch _ j (fun _ => rfl)
@[simp] theorem State.appendPacket_ch_held (ch j : Fin 17) (pkt : List W64) :
    ((s.appendPacket ch pkt).chans[j.val]).held = (s.chans[j.val]).held := by
  unfold State.appendPacket
  simp only []
  split
  · rw [State.raise_ch_held]; exact State.modChan_keeps s (fun c => c.held) ch _ j (fun _ => rfl)
  · exact State.modChan_keeps s (fun c => c.held) ch _ j (fun _ => rfl)
@[simp] theorem State.reply_ch_held (ch j : Fin 17) (r : Req) (st : Status) (ws : List W64) :
    ((s.reply ch r st ws).chans[j.val]).held = (s.chans[j.val]).held := by
  unfold State.reply; split <;> simp
@[simp] theorem State.flushIrq_ch_asyncs (ch j : Fin 17) : ((s.flushIrq ch).chans[j.val]).asyncs = (s.chans[j.val]).asyncs := by
  simp [State.flushIrq]
@[simp] theorem State.raise_ch_asyncs (ch j : Fin 17) (i : Nat) : ((s.raise ch i).chans[j.val]).asyncs = (s.chans[j.val]).asyncs := by
  unfold State.raise
  split
  · rfl
  · rw [State.flushIrq_ch_asyncs]; exact State.modChan_keeps s (fun c => c.asyncs) ch _ j (fun _ => rfl)
@[simp] theorem State.count_ch_asyncs (ch j : Fin 17) (k : Count) (n : Nat) :
    ((s.count ch k n).chans[j.val]).asyncs = (s.chans[j.val]).asyncs := State.modChan_keeps s (fun c => c.asyncs) ch _ j (fun _ => rfl)
@[simp] theorem State.appendPacket_ch_asyncs (ch j : Fin 17) (pkt : List W64) :
    ((s.appendPacket ch pkt).chans[j.val]).asyncs = (s.chans[j.val]).asyncs := by
  unfold State.appendPacket
  simp only []
  split
  · rw [State.raise_ch_asyncs]; exact State.modChan_keeps s (fun c => c.asyncs) ch _ j (fun _ => rfl)
  · exact State.modChan_keeps s (fun c => c.asyncs) ch _ j (fun _ => rfl)
@[simp] theorem State.reply_ch_asyncs (ch j : Fin 17) (r : Req) (st : Status) (ws : List W64) :
    ((s.reply ch r st ws).chans[j.val]).asyncs = (s.chans[j.val]).asyncs := by
  unfold State.reply; split <;> simp
@[simp] theorem State.flushIrq_ch_unplaced (ch j : Fin 17) : ((s.flushIrq ch).chans[j.val]).unplaced = (s.chans[j.val]).unplaced := by
  simp [State.flushIrq]
@[simp] theorem State.raise_ch_unplaced (ch j : Fin 17) (i : Nat) : ((s.raise ch i).chans[j.val]).unplaced = (s.chans[j.val]).unplaced := by
  unfold State.raise
  split
  · rfl
  · rw [State.flushIrq_ch_unplaced]; exact State.modChan_keeps s (fun c => c.unplaced) ch _ j (fun _ => rfl)
@[simp] theorem State.count_ch_unplaced (ch j : Fin 17) (k : Count) (n : Nat) :
    ((s.count ch k n).chans[j.val]).unplaced = (s.chans[j.val]).unplaced := State.modChan_keeps s (fun c => c.unplaced) ch _ j (fun _ => rfl)
@[simp] theorem State.flushIrq_ch_replies (ch j : Fin 17) : ((s.flushIrq ch).chans[j.val]).replies = (s.chans[j.val]).replies := by
  simp [State.flushIrq]
@[simp] theorem State.raise_ch_replies (ch j : Fin 17) (i : Nat) : ((s.raise ch i).chans[j.val]).replies = (s.chans[j.val]).replies := by
  unfold State.raise
  split
  · rfl
  · rw [State.flushIrq_ch_replies]; exact State.modChan_keeps s (fun c => c.replies) ch _ j (fun _ => rfl)
@[simp] theorem State.count_ch_replies (ch j : Fin 17) (k : Count) (n : Nat) :
    ((s.count ch k n).chans[j.val]).replies = (s.chans[j.val]).replies := State.modChan_keeps s (fun c => c.replies) ch _ j (fun _ => rfl)
@[simp] theorem State.flushIrq_ch_rplEmpty (ch j : Fin 17) : ((s.flushIrq ch).chans[j.val]).rplEmpty = (s.chans[j.val]).rplEmpty := by
  simp [State.flushIrq]
@[simp] theorem State.raise_ch_rplEmpty (ch j : Fin 17) (i : Nat) : ((s.raise ch i).chans[j.val]).rplEmpty = (s.chans[j.val]).rplEmpty := by
  unfold State.raise
  split
  · rfl
  · rw [State.flushIrq_ch_rplEmpty]; exact State.modChan_keeps s (fun c => c.rplEmpty) ch _ j (fun _ => rfl)
@[simp] theorem State.count_ch_rplEmpty (ch j : Fin 17) (k : Count) (n : Nat) :
    ((s.count ch k n).chans[j.val]).rplEmpty = (s.chans[j.val]).rplEmpty := State.modChan_keeps s (fun c => c.rplEmpty) ch _ j (fun _ => rfl)
@[simp] theorem State.appendPacket_ch_rplEmpty (ch j : Fin 17) (pkt : List W64) :
    ((s.appendPacket ch pkt).chans[j.val]).rplEmpty = (s.chans[j.val]).rplEmpty := by
  unfold State.appendPacket
  simp only []
  split
  · rw [State.raise_ch_rplEmpty]; exact State.modChan_keeps s (fun c => c.rplEmpty) ch _ j (fun _ => rfl)
  · exact State.modChan_keeps s (fun c => c.rplEmpty) ch _ j (fun _ => rfl)
@[simp] theorem State.reply_ch_rplEmpty (ch j : Fin 17) (r : Req) (st : Status) (ws : List W64) :
    ((s.reply ch r st ws).chans[j.val]).rplEmpty = (s.chans[j.val]).rplEmpty := by
  unfold State.reply; split <;> simp
@[simp] theorem State.flushIrq_ch_events (ch j : Fin 17) : ((s.flushIrq ch).chans[j.val]).events = (s.chans[j.val]).events := by
  simp [State.flushIrq]
@[simp] theorem State.raise_ch_events (ch j : Fin 17) (i : Nat) : ((s.raise ch i).chans[j.val]).events = (s.chans[j.val]).events := by
  unfold State.raise
  split
  · rfl
  · rw [State.flushIrq_ch_events]; exact State.modChan_keeps s (fun c => c.events) ch _ j (fun _ => rfl)
@[simp] theorem State.count_ch_events (ch j : Fin 17) (k : Count) (n : Nat) :
    ((s.count ch k n).chans[j.val]).events = (s.chans[j.val]).events := State.modChan_keeps s (fun c => c.events) ch _ j (fun _ => rfl)
@[simp] theorem State.appendPacket_ch_events (ch j : Fin 17) (pkt : List W64) :
    ((s.appendPacket ch pkt).chans[j.val]).events = (s.chans[j.val]).events := by
  unfold State.appendPacket
  simp only []
  split
  · rw [State.raise_ch_events]; exact State.modChan_keeps s (fun c => c.events) ch _ j (fun _ => rfl)
  · exact State.modChan_keeps s (fun c => c.events) ch _ j (fun _ => rfl)
@[simp] theorem State.reply_ch_events (ch j : Fin 17) (r : Req) (st : Status) (ws : List W64) :
    ((s.reply ch r st ws).chans[j.val]).events = (s.chans[j.val]).events := by
  unfold State.reply; split <;> simp
@[simp] theorem State.flushIrq_ch_evtEmpty (ch j : Fin 17) : ((s.flushIrq ch).chans[j.val]).evtEmpty = (s.chans[j.val]).evtEmpty := by
  simp [State.flushIrq]
@[simp] theorem State.raise_ch_evtEmpty (ch j : Fin 17) (i : Nat) : ((s.raise ch i).chans[j.val]).evtEmpty = (s.chans[j.val]).evtEmpty := by
  unfold State.raise
  split
  · rfl
  · rw [State.flushIrq_ch_evtEmpty]; exact State.modChan_keeps s (fun c => c.evtEmpty) ch _ j (fun _ => rfl)
@[simp] theorem State.count_ch_evtEmpty (ch j : Fin 17) (k : Count) (n : Nat) :
    ((s.count ch k n).chans[j.val]).evtEmpty = (s.chans[j.val]).evtEmpty := State.modChan_keeps s (fun c => c.evtEmpty) ch _ j (fun _ => rfl)
@[simp] theorem State.appendPacket_ch_evtEmpty (ch j : Fin 17) (pkt : List W64) :
    ((s.appendPacket ch pkt).chans[j.val]).evtEmpty = (s.chans[j.val]).evtEmpty := by
  unfold State.appendPacket
  simp only []
  split
  · rw [State.raise_ch_evtEmpty]; exact State.modChan_keeps s (fun c => c.evtEmpty) ch _ j (fun _ => rfl)
  · exact State.modChan_keeps s (fun c => c.evtEmpty) ch _ j (fun _ => rfl)
@[simp] theorem State.reply_ch_evtEmpty (ch j : Fin 17) (r : Req) (st : Status) (ws : List W64) :
    ((s.reply ch r st ws).chans[j.val]).evtEmpty = (s.chans[j.val]).evtEmpty := by
  unfold State.reply; split <;> simp
@[simp] theorem State.flushIrq_ch_evtDropped (ch j : Fin 17) : ((s.flushIrq ch).chans[j.val]).evtDropped = (s.chans[j.val]).evtDropped := by
  simp [State.flushIrq]
@[simp] theorem State.raise_ch_evtDropped (ch j : Fin 17) (i : Nat) : ((s.raise ch i).chans[j.val]).evtDropped = (s.chans[j.val]).evtDropped := by
  unfold State.raise
  split
  · rfl
  · rw [State.flushIrq_ch_evtDropped]; exact State.modChan_keeps s (fun c => c.evtDropped) ch _ j (fun _ => rfl)
@[simp] theorem State.count_ch_evtDropped (ch j : Fin 17) (k : Count) (n : Nat) :
    ((s.count ch k n).chans[j.val]).evtDropped = (s.chans[j.val]).evtDropped := State.modChan_keeps s (fun c => c.evtDropped) ch _ j (fun _ => rfl)
@[simp] theorem State.appendPacket_ch_evtDropped (ch j : Fin 17) (pkt : List W64) :
    ((s.appendPacket ch pkt).chans[j.val]).evtDropped = (s.chans[j.val]).evtDropped := by
  unfold State.appendPacket
  simp only []
  split
  · rw [State.raise_ch_evtDropped]; exact State.modChan_keeps s (fun c => c.evtDropped) ch _ j (fun _ => rfl)
  · exact State.modChan_keeps s (fun c => c.evtDropped) ch _ j (fun _ => rfl)
@[simp] theorem State.reply_ch_evtDropped (ch j : Fin 17) (r : Req) (st : Status) (ws : List W64) :
    ((s.reply ch r st ws).chans[j.val]).evtDropped = (s.chans[j.val]).evtDropped := by
  unfold State.reply; split <;> simp
@[simp] theorem State.flushIrq_ch_eseq (ch j : Fin 17) : ((s.flushIrq ch).chans[j.val]).eseq = (s.chans[j.val]).eseq := by
  simp [State.flushIrq]
@[simp] theorem State.raise_ch_eseq (ch j : Fin 17) (i : Nat) : ((s.raise ch i).chans[j.val]).eseq = (s.chans[j.val]).eseq := by
  unfold State.raise
  split
  · rfl
  · rw [State.flushIrq_ch_eseq]; exact State.modChan_keeps s (fun c => c.eseq) ch _ j (fun _ => rfl)
@[simp] theorem State.count_ch_eseq (ch j : Fin 17) (k : Count) (n : Nat) :
    ((s.count ch k n).chans[j.val]).eseq = (s.chans[j.val]).eseq := State.modChan_keeps s (fun c => c.eseq) ch _ j (fun _ => rfl)
@[simp] theorem State.appendPacket_ch_eseq (ch j : Fin 17) (pkt : List W64) :
    ((s.appendPacket ch pkt).chans[j.val]).eseq = (s.chans[j.val]).eseq := by
  unfold State.appendPacket
  simp only []
  split
  · rw [State.raise_ch_eseq]; exact State.modChan_keeps s (fun c => c.eseq) ch _ j (fun _ => rfl)
  · exact State.modChan_keeps s (fun c => c.eseq) ch _ j (fun _ => rfl)
@[simp] theorem State.reply_ch_eseq (ch j : Fin 17) (r : Req) (st : Status) (ws : List W64) :
    ((s.reply ch r st ws).chans[j.val]).eseq = (s.chans[j.val]).eseq := by
  unfold State.reply; split <;> simp
@[simp] theorem State.flushIrq_ch_irqMask (ch j : Fin 17) : ((s.flushIrq ch).chans[j.val]).irqMask = (s.chans[j.val]).irqMask := by
  simp [State.flushIrq]
@[simp] theorem State.raise_ch_irqMask (ch j : Fin 17) (i : Nat) : ((s.raise ch i).chans[j.val]).irqMask = (s.chans[j.val]).irqMask := by
  unfold State.raise
  split
  · rfl
  · rw [State.flushIrq_ch_irqMask]; exact State.modChan_keeps s (fun c => c.irqMask) ch _ j (fun _ => rfl)
@[simp] theorem State.count_ch_irqMask (ch j : Fin 17) (k : Count) (n : Nat) :
    ((s.count ch k n).chans[j.val]).irqMask = (s.chans[j.val]).irqMask := State.modChan_keeps s (fun c => c.irqMask) ch _ j (fun _ => rfl)
@[simp] theorem State.appendPacket_ch_irqMask (ch j : Fin 17) (pkt : List W64) :
    ((s.appendPacket ch pkt).chans[j.val]).irqMask = (s.chans[j.val]).irqMask := by
  unfold State.appendPacket
  simp only []
  split
  · rw [State.raise_ch_irqMask]; exact State.modChan_keeps s (fun c => c.irqMask) ch _ j (fun _ => rfl)
  · exact State.modChan_keeps s (fun c => c.irqMask) ch _ j (fun _ => rfl)
@[simp] theorem State.reply_ch_irqMask (ch j : Fin 17) (r : Req) (st : Status) (ws : List W64) :
    ((s.reply ch r st ws).chans[j.val]).irqMask = (s.chans[j.val]).irqMask := by
  unfold State.reply; split <;> simp
@[simp] theorem State.flushIrq_ch_irqCause (ch j : Fin 17) : ((s.flushIrq ch).chans[j.val]).irqCause = (s.chans[j.val]).irqCause := by
  simp [State.flushIrq]
@[simp] theorem State.count_ch_irqCause (ch j : Fin 17) (k : Count) (n : Nat) :
    ((s.count ch k n).chans[j.val]).irqCause = (s.chans[j.val]).irqCause := State.modChan_keeps s (fun c => c.irqCause) ch _ j (fun _ => rfl)
@[simp] theorem State.count_ch_irqUnsent (ch j : Fin 17) (k : Count) (n : Nat) :
    ((s.count ch k n).chans[j.val]).irqUnsent = (s.chans[j.val]).irqUnsent := State.modChan_keeps s (fun c => c.irqUnsent) ch _ j (fun _ => rfl)
@[simp] theorem State.flushIrq_ch_seqExpect (ch j : Fin 17) : ((s.flushIrq ch).chans[j.val]).seqExpect = (s.chans[j.val]).seqExpect := by
  simp [State.flushIrq]
@[simp] theorem State.raise_ch_seqExpect (ch j : Fin 17) (i : Nat) : ((s.raise ch i).chans[j.val]).seqExpect = (s.chans[j.val]).seqExpect := by
  unfold State.raise
  split
  · rfl
  · rw [State.flushIrq_ch_seqExpect]; exact State.modChan_keeps s (fun c => c.seqExpect) ch _ j (fun _ => rfl)
@[simp] theorem State.count_ch_seqExpect (ch j : Fin 17) (k : Count) (n : Nat) :
    ((s.count ch k n).chans[j.val]).seqExpect = (s.chans[j.val]).seqExpect := State.modChan_keeps s (fun c => c.seqExpect) ch _ j (fun _ => rfl)
@[simp] theorem State.appendPacket_ch_seqExpect (ch j : Fin 17) (pkt : List W64) :
    ((s.appendPacket ch pkt).chans[j.val]).seqExpect = (s.chans[j.val]).seqExpect := by
  unfold State.appendPacket
  simp only []
  split
  · rw [State.raise_ch_seqExpect]; exact State.modChan_keeps s (fun c => c.seqExpect) ch _ j (fun _ => rfl)
  · exact State.modChan_keeps s (fun c => c.seqExpect) ch _ j (fun _ => rfl)
@[simp] theorem State.reply_ch_seqExpect (ch j : Fin 17) (r : Req) (st : Status) (ws : List W64) :
    ((s.reply ch r st ws).chans[j.val]).seqExpect = (s.chans[j.val]).seqExpect := by
  unfold State.reply; split <;> simp
@[simp] theorem State.flushIrq_ch_chain (ch j : Fin 17) : ((s.flushIrq ch).chans[j.val]).chain = (s.chans[j.val]).chain := by
  simp [State.flushIrq]
@[simp] theorem State.raise_ch_chain (ch j : Fin 17) (i : Nat) : ((s.raise ch i).chans[j.val]).chain = (s.chans[j.val]).chain := by
  unfold State.raise
  split
  · rfl
  · rw [State.flushIrq_ch_chain]; exact State.modChan_keeps s (fun c => c.chain) ch _ j (fun _ => rfl)
@[simp] theorem State.count_ch_chain (ch j : Fin 17) (k : Count) (n : Nat) :
    ((s.count ch k n).chans[j.val]).chain = (s.chans[j.val]).chain := State.modChan_keeps s (fun c => c.chain) ch _ j (fun _ => rfl)
@[simp] theorem State.appendPacket_ch_chain (ch j : Fin 17) (pkt : List W64) :
    ((s.appendPacket ch pkt).chans[j.val]).chain = (s.chans[j.val]).chain := by
  unfold State.appendPacket
  simp only []
  split
  · rw [State.raise_ch_chain]; exact State.modChan_keeps s (fun c => c.chain) ch _ j (fun _ => rfl)
  · exact State.modChan_keeps s (fun c => c.chain) ch _ j (fun _ => rfl)
@[simp] theorem State.reply_ch_chain (ch j : Fin 17) (r : Req) (st : Status) (ws : List W64) :
    ((s.reply ch r st ws).chans[j.val]).chain = (s.chans[j.val]).chain := by
  unfold State.reply; split <;> simp
@[simp] theorem State.flushIrq_ch_counts (ch j : Fin 17) : ((s.flushIrq ch).chans[j.val]).counts = (s.chans[j.val]).counts := by
  simp [State.flushIrq]
@[simp] theorem State.raise_ch_counts (ch j : Fin 17) (i : Nat) : ((s.raise ch i).chans[j.val]).counts = (s.chans[j.val]).counts := by
  unfold State.raise
  split
  · rfl
  · rw [State.flushIrq_ch_counts]; exact State.modChan_keeps s (fun c => c.counts) ch _ j (fun _ => rfl)
@[simp] theorem State.appendPacket_ch_counts (ch j : Fin 17) (pkt : List W64) :
    ((s.appendPacket ch pkt).chans[j.val]).counts = (s.chans[j.val]).counts := by
  unfold State.appendPacket
  simp only []
  split
  · rw [State.raise_ch_counts]; exact State.modChan_keeps s (fun c => c.counts) ch _ j (fun _ => rfl)
  · exact State.modChan_keeps s (fun c => c.counts) ch _ j (fun _ => rfl)
@[simp] theorem State.reply_ch_counts (ch j : Fin 17) (r : Req) (st : Status) (ws : List W64) :
    ((s.reply ch r st ws).chans[j.val]).counts = (s.chans[j.val]).counts := by
  unfold State.reply; split <;> simp
@[simp] theorem State.flushIrq_ch_msix (ch j : Fin 17) : ((s.flushIrq ch).chans[j.val]).msix = (s.chans[j.val]).msix := by
  simp [State.flushIrq]
@[simp] theorem State.raise_ch_msix (ch j : Fin 17) (i : Nat) : ((s.raise ch i).chans[j.val]).msix = (s.chans[j.val]).msix := by
  unfold State.raise
  split
  · rfl
  · rw [State.flushIrq_ch_msix]; exact State.modChan_keeps s (fun c => c.msix) ch _ j (fun _ => rfl)
@[simp] theorem State.count_ch_msix (ch j : Fin 17) (k : Count) (n : Nat) :
    ((s.count ch k n).chans[j.val]).msix = (s.chans[j.val]).msix := State.modChan_keeps s (fun c => c.msix) ch _ j (fun _ => rfl)
@[simp] theorem State.appendPacket_ch_msix (ch j : Fin 17) (pkt : List W64) :
    ((s.appendPacket ch pkt).chans[j.val]).msix = (s.chans[j.val]).msix := by
  unfold State.appendPacket
  simp only []
  split
  · rw [State.raise_ch_msix]; exact State.modChan_keeps s (fun c => c.msix) ch _ j (fun _ => rfl)
  · exact State.modChan_keeps s (fun c => c.msix) ch _ j (fun _ => rfl)
@[simp] theorem State.reply_ch_msix (ch j : Fin 17) (r : Req) (st : Status) (ws : List W64) :
    ((s.reply ch r st ws).chans[j.val]).msix = (s.chans[j.val]).msix := by
  unfold State.reply; split <;> simp
@[simp] theorem State.flushIrq_ch_d3hot (ch j : Fin 17) : ((s.flushIrq ch).chans[j.val]).d3hot = (s.chans[j.val]).d3hot := by
  simp [State.flushIrq]
@[simp] theorem State.raise_ch_d3hot (ch j : Fin 17) (i : Nat) : ((s.raise ch i).chans[j.val]).d3hot = (s.chans[j.val]).d3hot := by
  unfold State.raise
  split
  · rfl
  · rw [State.flushIrq_ch_d3hot]; exact State.modChan_keeps s (fun c => c.d3hot) ch _ j (fun _ => rfl)
@[simp] theorem State.count_ch_d3hot (ch j : Fin 17) (k : Count) (n : Nat) :
    ((s.count ch k n).chans[j.val]).d3hot = (s.chans[j.val]).d3hot := State.modChan_keeps s (fun c => c.d3hot) ch _ j (fun _ => rfl)
@[simp] theorem State.appendPacket_ch_d3hot (ch j : Fin 17) (pkt : List W64) :
    ((s.appendPacket ch pkt).chans[j.val]).d3hot = (s.chans[j.val]).d3hot := by
  unfold State.appendPacket
  simp only []
  split
  · rw [State.raise_ch_d3hot]; exact State.modChan_keeps s (fun c => c.d3hot) ch _ j (fun _ => rfl)
  · exact State.modChan_keeps s (fun c => c.d3hot) ch _ j (fun _ => rfl)
@[simp] theorem State.reply_ch_d3hot (ch j : Fin 17) (r : Req) (st : Status) (ws : List W64) :
    ((s.reply ch r st ws).chans[j.val]).d3hot = (s.chans[j.val]).d3hot := by
  unfold State.reply; split <;> simp

theorem State.flushIrq_other (ch j : Fin 17) (e : j ≠ ch) : (s.flushIrq ch).chans[j.val] = s.chans[j.val] :=
  State.sendVectors_other s ch j _ e

theorem State.raise_other (ch j : Fin 17) (i : Nat) (e : j ≠ ch) : (s.raise ch i).chans[j.val] = s.chans[j.val] := by
  unfold State.raise
  split
  · rfl
  · rw [State.flushIrq_other _ ch j e]; exact State.modChan_other s ch j _ e

theorem State.count_other (ch j : Fin 17) (k : Count) (n : Nat) (e : j ≠ ch) : (s.count ch k n).chans[j.val] = s.chans[j.val] :=
  State.modChan_other s ch j _ e

theorem State.reply_other (ch j : Fin 17) (r : Req) (st : Status) (ws : List W64) (e : j ≠ ch) :
    (s.reply ch r st ws).chans[j.val] = s.chans[j.val] := by
  unfold State.reply
  split
  · rfl
  · unfold State.appendPacket
    simp only []
    split
    · rw [State.raise_other _ ch j _ e]; exact State.modChan_other s ch j _ e
    · exact State.modChan_other s ch j _ e

/-- Raising a cause sets its bit (R416). -/
theorem State.raise_cause (ch : Fin 17) (i : Nat) :
    ((s.raise ch i).chans[ch.val]).irqCause = (s.chans[ch.val]).irqCause ||| (if (s.chans[ch.val]).irqCause.testBit i then 0 else 2 ^ i) := by
  unfold State.raise
  split
  · rename_i h; simp [show (s.chans[ch.val]).irqCause.testBit i = true from h]
  · rename_i h; simp [show ¬ (s.chans[ch.val]).irqCause.testBit i = true from h]

/-- A reply that fits is the last of the replies and raises REPLY (R420). -/
theorem State.reply_placed (ch : Fin 17) (r : Req) (st : Status) (ws : List W64) (hd : r.discard = false)
    (hu : (s.chans[ch.val]).unplaced = [])
    (hr : (s.chans[ch.val]).rplLevel + (replyPacket ch.val r st ws).length ≤ 16384) :
    ((s.reply ch r st ws).chans[ch.val]).replies = (s.chans[ch.val]).replies ++ [replyPacket ch.val r st ws] ∧
    ((s.reply ch r st ws).chans[ch.val]).unplaced = [] := by
  simp [State.reply, hd, State.appendPacket, hu, hr]

end Sys2Proof.Machine
end

