-- ==== Sys2Proof/Laws/Submit.lean ====
section
/-! SUPPORT. What a channel makes of a command that it takes at once: one lemma for each way its handler can decide. -/

namespace Sys2Proof.Machine

open Sys2Proof.Machine.Crypto

@[simp] theorem bytesToWords_length (n : Nat) : ∀ b : List Byte, (bytesToWords n b).length = n := by
  induction n with
  | zero => intro b; rfl
  | succ n ih => intro b; simp [bytesToWords, ih]

/-- A reply packet is two header words and its payload, with two words more where it is sealed. -/
theorem replyPacket_length (ch : Nat) (r : Req) (st : Status) (ws : List W64) :
    (replyPacket ch r st ws).length ≤ ws.length + 4 := by
  unfold replyPacket
  split <;> simp [bytesToWords_length]

/-- What `takes` says, clause by clause. -/
structure Takes (s : State) (ch : Fin 17) (op : Nat) (c : Cmd) : Prop where
  reach : s.reachable ch = true
  lost : (s.chans[ch]).cmdLost = false
  part : (s.chans[ch]).partialCmd = []
  waiting : (s.chans[ch]).waiting = []
  held : (s.chans[ch]).held = none
  unplaced : (s.chans[ch]).unplaced = []
  chain : (s.chans[ch]).chain = none
  room : (s.chans[ch]).rplLevel ≤ 8192
  now : c.async = false
  small : cmdLength c ≤ 8190
  credits : s.credits ch = 16384
  pass : gate s ch op c false = .go

theorem opInfo_hi (op : Nat) (i : OpInfo) (h : opInfo op = some i) : i.hi ≤ 8188 := by
  unfold opInfo at h
  split at h <;> first | (cases h; decide) | (exact absurd h (by simp))

theorem gate_go (s : State) (ch : Fin 17) (op : Nat) (c : Cmd) (h : passes s ch op c = true) :
    gate s ch op c false = .go := by
  simp only [passes, Bool.and_eq_true, decide_eq_true_eq, Bool.not_eq_true', Bool.or_eq_true] at h
  obtain ⟨⟨⟨⟨⟨⟨⟨⟨⟨hp, hseq⟩, hv⟩, hr⟩, hl⟩, ha⟩, hs⟩, hrow⟩, hpart⟩, hact⟩ := h
  unfold rowOf at hrow
  cases ho : opInfo op with
  | none => simp [ho] at hrow
  | some i =>
    cases hx : (if ch = 0 then i.pf else i.vf) with
    | none => simp [ho, hx] at hrow
    | some x =>
      simp only [ho, hx, Option.bind_some, Option.map_some, Bool.and_eq_true, Bool.or_eq_true, decide_eq_true_eq] at hrow
      obtain ⟨⟨hsl, hlo⟩, hhi⟩ := hrow
      have e1 : (c.seq != (s.chans[ch]).seqExpect % 65536) = false := by simp [hseq]
      have e2 : (c.hdrVersion != 1 || c.reserved != 0 || (!c.last && !chains op) || (c.async && !asyncOk op)
          || (c.sealed && op == 0x0204)) = false := by
        rcases hs with e | ⟨⟨e, -⟩, -⟩ <;> simp [hv, hr, hl, ha, e]
      have e3 : (x = .required && !c.sealed || (c.sealed && !(s.keyAt (sessionSlot ch)).isSome)) = false := by
        rcases hs with e | ⟨⟨-, e⟩, -⟩
        · simpa [e] using hsl
        · rcases hsl with f | f <;> simp [e, f]
      have e4 : (c.partition != if ch = 0 then 0xFFFF else ch.val - 1) = false := by simp [hpart]
      have e5 : (ch != 0 && (s.parts[chanPart ch]).st = .creating && op == 0x0204) = false := by
        rcases hact with e | e
        · simp [e]
        · rw [e]; simp
      have e6 : (ch != 0 && (s.parts[chanPart ch]).st != .active) = false := by
        rcases hact with e | e
        · simp [e]
        · rw [e]; simp
      have e7 : (decide (c.payload.length < i.lo) || decide (i.hi < c.payload.length) || false) = false := by
        simp; omega
      have e8 : (c.sealed && !c.tagOk) = false := by
        rcases hs with e | ⟨-, e⟩ <;> simp [e]
      simp only [gate, e1, e2, ho, hp, hx, e3, e4, e5, e6, e7, e8]
      simp

theorem takes_spec (s : State) (ch : Fin 17) (op : Nat) (c : Cmd) (h : takes s ch op c = true) : Takes s ch op c := by
  simp only [takes, Bool.and_eq_true, decide_eq_true_eq, Bool.not_eq_true', List.isEmpty_iff,
    Option.isNone_iff_eq_none] at h
  obtain ⟨⟨⟨⟨⟨⟨⟨⟨h1, h2⟩, h3⟩, h4⟩, h5⟩, h6⟩, h7⟩, h8⟩, h9⟩ := h
  have hg := gate_go s ch op c h9
  simp only [passes, Bool.and_eq_true, decide_eq_true_eq, Bool.not_eq_true', Bool.or_eq_true] at h9
  obtain ⟨⟨⟨⟨⟨⟨⟨⟨⟨hp, hseq⟩, hv⟩, hr⟩, hl⟩, ha⟩, hs⟩, hrow⟩, hpart⟩, hact⟩ := h9
  refine ⟨h1, h2, h3, h4, h5, h6, h7, h8, ha, ?_, ?_, hg⟩
  · unfold rowOf at hrow
    cases ho : opInfo op with
    | none => simp [ho] at hrow
    | some i =>
      cases hx : (if ch = 0 then i.pf else i.vf) with
      | none => simp [ho, hx] at hrow
      | some x =>
        simp only [ho, hx, Option.bind_some, Option.map_some, Bool.and_eq_true, decide_eq_true_eq] at hrow
        have := opInfo_hi op i ho
        have := hrow.2
        unfold cmdLength
        split <;> omega
  · have hst : s.chState ch = 1 := by
      unfold State.chState
      rw [hp]
      rcases hact with e | e
      · simp [e]
      · by_cases e0 : ch = 0
        · simp [e0]
        · simp only [e0, if_false]
          rw [e]
    have h3' : (s.chans[ch.val]).partialCmd = [] := h3
    have h4' : (s.chans[ch.val]).waiting = [] := h4
    simp [State.credits, hst, Channel.used, h3', h4']

theorem State.inTurn_eq (s : State) (ch : Fin 17) (op : Nat) : s.inTurn ch op = { s with clock := (s.inTurn ch op).clock } := by
  unfold State.inTurn State.inRtp State.inService; split <;> split <;> rfl

@[simp] theorem State.inTurn_pending (s : State) (ch : Fin 17) (op : Nat) : (s.inTurn ch op).pending = s.pending := by
  rw [State.inTurn_eq]
@[simp] theorem State.inTurn_boot (s : State) (ch : Fin 17) (op : Nat) : (s.inTurn ch op).boot = s.boot := by
  rw [State.inTurn_eq]
@[simp] theorem State.inTurn_nvm (s : State) (ch : Fin 17) (op : Nat) : (s.inTurn ch op).nvm = s.nvm := by
  rw [State.inTurn_eq]
@[simp] theorem State.inTurn_power (s : State) (ch : Fin 17) (op : Nat) : (s.inTurn ch op).power = s.power := by
  rw [State.inTurn_eq]
@[simp] theorem State.inTurn_chans (s : State) (ch : Fin 17) (op : Nat) : (s.inTurn ch op).chans = s.chans := by
  rw [State.inTurn_eq]
@[simp] theorem State.inTurn_pannier (s : State) (ch : Fin 17) (op : Nat) : (s.inTurn ch op).pannier = s.pannier := by
  rw [State.inTurn_eq]
@[simp] theorem State.inTurn_parts (s : State) (ch : Fin 17) (op : Nat) : (s.inTurn ch op).parts = s.parts := by
  rw [State.inTurn_eq]
@[simp] theorem State.inTurn_banks (s : State) (ch : Fin 17) (op : Nat) : (s.inTurn ch op).banks = s.banks := by
  rw [State.inTurn_eq]
@[simp] theorem State.inTurn_pool (s : State) (ch : Fin 17) (op : Nat) : (s.inTurn ch op).pool = s.pool := by
  rw [State.inTurn_eq]
@[simp] theorem State.inTurn_devDrbg (s : State) (ch : Fin 17) (op : Nat) : (s.inTurn ch op).devDrbg = s.devDrbg := by
  rw [State.inTurn_eq]
@[simp] theorem State.inTurn_rngAlarm (s : State) (ch : Fin 17) (op : Nat) : (s.inTurn ch op).rngAlarm = s.rngAlarm := by
  rw [State.inTurn_eq]
@[simp] theorem State.inTurn_debugAccess (s : State) (ch : Fin 17) (op : Nat) : (s.inTurn ch op).debugAccess = s.debugAccess := by
  rw [State.inTurn_eq]
@[simp] theorem State.inTurn_spdm (s : State) (ch : Fin 17) (op : Nat) : (s.inTurn ch op).spdm = s.spdm := by
  rw [State.inTurn_eq]
@[simp] theorem State.inTurn_i3c (s : State) (ch : Fin 17) (op : Nat) : (s.inTurn ch op).i3c = s.i3c := by
  rw [State.inTurn_eq]
@[simp] theorem State.inTurn_links (s : State) (ch : Fin 17) (op : Nat) : (s.inTurn ch op).links = s.links := by
  rw [State.inTurn_eq]
@[simp] theorem State.inTurn_clusters (s : State) (ch : Fin 17) (op : Nat) : (s.inTurn ch op).clusters = s.clusters := by
  rw [State.inTurn_eq]
@[simp] theorem State.inTurn_tandem (s : State) (ch : Fin 17) (op : Nat) : (s.inTurn ch op).tandem = s.tandem := by
  rw [State.inTurn_eq]
@[simp] theorem State.inTurn_out (s : State) (ch : Fin 17) (op : Nat) : (s.inTurn ch op).out = s.out := by
  rw [State.inTurn_eq]
@[simp] theorem State.inTurn_free (s : State) (ch : Fin 17) (op : Nat) : (s.inTurn ch op).free = s.free := by
  rw [State.inTurn_eq]

/-- What `takes` says stays true while wall time moves on. -/
theorem Takes.advance {s : State} {ch : Fin 17} {op : Nat} {c : Cmd} (k : Takes s ch op c) (n : Nat) :
    Takes { s with clock := n } ch op c :=
  ⟨k.reach, k.lost, k.part, k.waiting, k.held, k.unplaced, k.chain, k.room, k.now, k.small, k.credits, k.pass⟩

theorem State.inTurn_takes {s : State} {ch : Fin 17} {op : Nat} {c : Cmd} (k : Takes s ch op c) (op' : Nat) :
    Takes (s.inTurn ch op') ch op c := by
  rw [State.inTurn_eq]; exact k.advance _

theorem noteCredit_eq (old : Nat) (s : State) (ch : Fin 17) :
    State.noteCredit old s ch = s ∨ State.noteCredit old s ch = s.raise ch irqCredit := by
  unfold State.noteCredit; split
  · exact .inr rfl
  · exact .inl rfl

/-- The rest of the state and the fields that `OnlyChannel` names are kept by raising a cause. -/
theorem OnlyChannel.raise (s : State) (ch : Fin 17) (i : Nat) : OnlyChannel s (s.raise ch i) ch := by
  refine ⟨?_, fun j e => State.raise_other s ch j i e, by simp⟩
  unfold State.raise
  split
  · rfl
  · obtain ⟨v, o, h, -⟩ := State.sendVectors_frame ch [0, 1, 2, 3, 4] (s.modChan ch (fun c =>
      { c with irqCause := c.irqCause ||| 2 ^ i, irqUnsent := c.irqUnsent ||| 2 ^ i }))
    rw [State.flushIrq, h]
    rfl

theorem OnlyChannel.trans {s t u : State} {ch : Fin 17} (h : OnlyChannel s t ch) (k : OnlyChannel t u ch) :
    OnlyChannel s u ch := by
  obtain ⟨h1, h2, a1, a2, a3, a4, a5⟩ := h
  obtain ⟨k1, k2, b1, b2, b3, b4, b5⟩ := k
  refine ⟨?_, fun j e => (k2 j e).trans (h2 j e), b1.trans a1, b2.trans a2, b3.trans a3, b4.trans a4, b5.trans a5⟩
  rw [h1] at k1
  exact k1

/-- A change of the channel's other fields is one of `OnlyChannel`. -/
theorem OnlyChannel.modChan (s : State) (ch : Fin 17) (f : Channel → Channel)
    (h : ∀ c, (f c).events = c.events ∧ (f c).asyncs = c.asyncs ∧ (f c).irqMask = c.irqMask ∧ (f c).msix = c.msix ∧
      (f c).d3hot = c.d3hot) : OnlyChannel s (s.modChan ch f) ch := by
  refine ⟨rfl, fun j e => State.modChan_other s ch j f e, ?_⟩
  have := h s.chans[ch.val]
  simpa using this

theorem OnlyChannel.noteCredit (old : Nat) (s : State) (ch : Fin 17) :
    OnlyChannel s (State.noteCredit old s ch) ch := by
  rcases noteCredit_eq old s ch with e | e <;> rw [e]
  · exact ⟨rfl, fun _ _ => rfl, rfl, rfl, rfl, rfl, rfl⟩
  · exact OnlyChannel.raise s ch _

/-- The credit that returns leaves a channel's fields but its causes. -/
theorem noteCredit_keeps {β : Type} (f : Channel → β) (old : Nat) (s : State) (ch : Fin 17)
    (h : ∀ (t : State) (i : Nat), f (t.raise ch i).chans[ch.val] = f t.chans[ch.val]) :
    f (State.noteCredit old s ch).chans[ch.val] = f s.chans[ch.val] := by
  rcases noteCredit_eq old s ch with e | e <;> rw [e]
  exact h s _

theorem State.inService_eq (s : State) (ch : Fin 17) : s.inService ch = { s with clock := (s.inService ch).clock } := by
  unfold State.inService; split <;> rfl

/-- Wall time alone has moved on when a key operation has been through the RTP's turn; how far depends on the clock and the boot. -/
theorem State.inRtp_only {s t : State} {ch : Fin 17} (h : OnlyChannel s t ch) (op : Nat) :
    OnlyChannel (s.inRtp ch op) (t.inRtp ch op) ch := by
  obtain ⟨h1, h2, h3⟩ := h
  have e : t.inRtp ch op = { t with clock := (s.inRtp ch op).clock } := by
    rw [h1]; unfold State.inRtp; split <;> rfl
  have e' : s.inRtp ch op = { s with clock := (s.inRtp ch op).clock } := by unfold State.inRtp; split <;> rfl
  rw [e, e']
  refine ⟨?_, h2, h3⟩
  show ({ t with clock := _ } : State) = _
  rw [h1]

/-- Taking a command changes its channel alone: not the fields that `OnlyChannel` names, nor its buffers. -/
theorem State.atHand_only (s : State) (ch : Fin 17) (op : Nat) (c : Cmd) : OnlyChannel (s.inTurn ch op) (s.atHand ch op c) ch :=
  State.inRtp_only (((OnlyChannel.noteCredit _ _ ch).trans (OnlyChannel.modChan _ ch _ (by simp))).trans (OnlyChannel.modChan _ ch _ (by simp))) op

/-- The buffers and the sequence of the channel when its handler runs. -/
theorem State.atHand_chan (s : State) (ch : Fin 17) (op : Nat) (c : Cmd) :
    ((s.atHand ch op c).chans[ch.val]).replies = (s.chans[ch.val]).replies ∧
    ((s.atHand ch op c).chans[ch.val]).unplaced = (s.chans[ch.val]).unplaced ∧
    ((s.atHand ch op c).chans[ch.val]).held = (s.chans[ch.val]).held ∧
    ((s.atHand ch op c).chans[ch.val]).waiting = (s.chans[ch.val]).waiting ∧
    ((s.atHand ch op c).chans[ch.val]).seqExpect = ((s.chans[ch.val]).seqExpect + 1) % 2 ^ 64 := by
  have e : (s.atHand ch op c).chans = (((State.noteCredit (16384 - (2 + cmdLength c)) (s.inService ch) ch).count ch .cmdTaken 1).modChan ch
      (fun k => { k with seqExpect := (k.seqExpect + 1) % 2 ^ 64 })).chans := by
    unfold State.atHand State.inRtp; split <;> rfl
  have f : (s.inService ch).chans = s.chans := by rw [State.inService_eq]
  rw [e]
  refine ⟨?_, ?_, ?_, ?_, ?_⟩ <;> simp only [State.count, State.modChan, Vector.getElem_set_self, Fin.getElem_fin]
  · rw [noteCredit_keeps Channel.replies _ _ ch (by simp), f]
  · rw [noteCredit_keeps Channel.unplaced _ _ ch (by simp), f]
  · rw [noteCredit_keeps Channel.held _ _ ch (by simp), f]
  · rw [noteCredit_keeps Channel.waiting _ _ ch (by simp), f]
  · rw [noteCredit_keeps Channel.seqExpect _ _ ch (by simp), f]

/-- The envelope and the request look at the channel's sequence and, of what else there is, at nothing that its interrupts touch. -/
theorem gate_credit (old : Nat) (s : State) (ch : Fin 17) (op : Nat) (c : Cmd) (short : Bool) :
    gate (State.noteCredit old s ch) ch op c short = gate s ch op c short := by
  have e := (OnlyChannel.noteCredit old s ch).rest
  have q := noteCredit_keeps Channel.seqExpect old s ch (by simp)
  unfold gate
  rw [e] at q ⊢
  simp only [Fin.getElem_fin] at q ⊢
  rw [q]
  rfl

theorem req_credit (old : Nat) (s : State) (ch : Fin 17) (op : Nat) (c : Cmd) (h : c.async = false) :
    mkReq (State.noteCredit old s ch) ch op c = mkReq s ch op c := by
  have e := (OnlyChannel.noteCredit old s ch).rest
  have q := noteCredit_keeps Channel.seqExpect old s ch (by simp)
  unfold mkReq
  rw [e] at q ⊢
  simp only [Fin.getElem_fin, h] at q ⊢
  rw [q]
  rfl

/-- A command that the channel takes is settled as its handler decides, in the state where it has been counted. -/
theorem submit_takes (h : Handler) (op : Nat) (ch : Fin 17) (c : Cmd) (s : State) (ht : takes s ch op c = true) :
    s.submit h op ch c = (s.atHand ch op c).settle ch (s.req ch op c) (h ch (s.req ch op c) (s.atHand ch op c)) := by
  have k := takes_spec s ch op c ht
  have hf : (s.chans[ch]).free c.async = true := by simp only [Channel.free, k.held, k.unplaced, k.now]; rfl
  have hc : (s.chans[ch]).cmdLost = false := k.lost
  have hp : (s.chans[ch]).partialCmd = [] := k.part
  have hw : (s.chans[ch]).waiting = [] := k.waiting
  have hs := k.small
  have hi := State.inService_eq s ch
  have hg : gate (State.noteCredit (16384 - (2 + cmdLength c)) (s.inService ch) ch) ch op c false = .go := by
    rw [gate_credit, hi]; exact (k.advance _).pass
  have h0 : ((State.noteCredit (16384 - (2 + cmdLength c)) (s.inService ch) ch).chans[ch.val]).chain = none := by
    rw [noteCredit_keeps Channel.chain _ _ ch (by simp), hi]; exact k.chain
  unfold State.submit
  simp only [k.reach, hc, k.credits, hw, hf, hp]
  rw [if_neg (by simp), if_neg (by simp; omega), if_pos (by simp)]
  unfold State.takeCmd
  simp only [hg, k.now, req_credit _ _ ch op c k.now]
  have ha : ∀ t : State, (t.chans[ch]).chain = none → t.abandonChain ch op = t := by
    intro t e; simp only [State.abandonChain, e]
  rw [ha _ (by simpa [State.count] using h0)]
  rfl

theorem testBit_or_raise (a i : Nat) : (a ||| (if a.testBit i then 0 else 2 ^ i)).testBit i = true := by
  split
  · simpa
  · simp

/-- A finished command: the channel answers it, and outside the channel the state is what the handler left. -/
theorem submit_done {h : Handler} {op : Nat} {ch : Fin 17} {c : Cmd} {s u : State} {st : Status} {ws : List W64}
    (ht : takes s ch op c = true) (hd : h ch (s.req ch op c) (s.atHand ch op c) = .done st ws u) (hw : ws.length ≤ 8188)
    (hr : (u.chans[ch]).replies = (s.chans[ch]).replies) (hp : (u.chans[ch]).unplaced = [])
    (hq : (u.chans[ch]).seqExpect = ((s.chans[ch]).seqExpect + 1) % 2 ^ 64)
    (hh : (u.chans[ch]).held = none) (hv : (u.chans[ch]).waiting = []) :
    Answered s (s.submit h op ch c) ch op c st ws ∧ OnlyChannel u (s.submit h op ch c) ch := by
  have k := takes_spec s ch op c ht
  have hroom : (u.chans[ch]).rplLevel + (replyPacket ch.val (s.req ch op c) st ws).length ≤ 16384 := by
    have := k.room
    have e : (u.chans[ch]).rplLevel = (s.chans[ch]).rplLevel := by simp only [Channel.rplLevel, hr]
    have := replyPacket_length ch.val (s.req ch op c) st ws
    omega
  rw [submit_takes h op ch c s ht, hd]
  simp only [State.settle]
  have hrep : u.reply ch (s.req ch op c) st ws =
      (u.modChan ch (fun k => { k with replies := k.replies ++ [replyPacket ch.val (s.req ch op c) st ws] })).raise
        ch irqReply := by
    unfold State.reply State.appendPacket
    rw [if_neg (by simp [State.req, mkReq]), if_pos ⟨hp, hroom⟩]
  have ho : OnlyChannel u (u.reply ch (s.req ch op c) st ws) ch := by
    rw [hrep]
    exact (OnlyChannel.modChan u ch _ (by simp)).trans (OnlyChannel.raise _ ch _)
  refine ⟨?_, ho⟩
  have hr' : (u.chans[ch.val]).replies = (s.chans[ch.val]).replies := hr
  have hp' : (u.chans[ch.val]).unplaced = [] := hp
  have hq' : (u.chans[ch.val]).seqExpect = ((s.chans[ch.val]).seqExpect + 1) % 2 ^ 64 := hq
  have hh' : (u.chans[ch.val]).held = none := hh
  have hv' : (u.chans[ch.val]).waiting = [] := hv
  rw [hrep]
  refine ⟨by simp [hr'], ?_, by simp [hq'], by simp [hh'], by simp [hv'], by simp [hp']⟩
  simp only [Fin.getElem_fin]
  rw [State.raise_cause]
  exact testBit_or_raise _ _

/-- A finished command whose handler changed no channel. -/
theorem submit_done' {h : Handler} {op : Nat} {ch : Fin 17} {c : Cmd} {s u : State} {st : Status} {ws : List W64}
    (ht : takes s ch op c = true) (hd : h ch (s.req ch op c) (s.atHand ch op c) = .done st ws u) (hw : ws.length ≤ 8188)
    (hu : u.chans = (s.atHand ch op c).chans) :
    Answered s (s.submit h op ch c) ch op c st ws ∧ OnlyChannel u (s.submit h op ch c) ch := by
  have k := takes_spec s ch op c ht
  obtain ⟨a1, a2, a3, a4, a5⟩ := State.atHand_chan s ch op c
  refine submit_done ht hd hw ?_ ?_ ?_ ?_ ?_ <;> rw [hu]
  · exact a1
  · exact a2.trans k.unplaced
  · exact a5
  · exact a3.trans k.held
  · exact a4.trans k.waiting

/-- A read: the handler leaves the state as it was. -/
theorem submit_read {h : Handler} {op : Nat} {ch : Fin 17} {c : Cmd} {s : State} {st : Status} {ws : List W64}
    (ht : takes s ch op c = true) (hd : h ch (s.req ch op c) (s.atHand ch op c) = .done st ws (s.atHand ch op c)) (hw : ws.length ≤ 8188) :
    Answered s (s.submit h op ch c) ch op c st ws ∧ OnlyChannel (s.inTurn ch op) (s.submit h op ch c) ch := by
  have := submit_done' ht hd hw rfl
  exact ⟨this.1, (State.atHand_only s ch op c).trans this.2⟩

/-- A refused command: it is answered with its status and no payload, and changes nothing but its channel. -/
theorem submit_refused {h : Handler} {op : Nat} {ch : Fin 17} {c : Cmd} {s : State} {st : Status}
    (ht : takes s ch op c = true) (hd : h ch (s.req ch op c) (s.atHand ch op c) = .refuse st) :
    Answered s (s.submit h op ch c) ch op c st [] ∧ OnlyChannel (s.inTurn ch op) (s.submit h op ch c) ch := by
  have k := takes_spec s ch op c ht
  obtain ⟨a1, a2, a3, a4, a5⟩ := State.atHand_chan s ch op c
  let g : Handler := fun _ _ t => .done st [] (t.count ch .cmdRefused 1)
  have e : s.submit h op ch c = s.submit g op ch c := by
    rw [submit_takes h op ch c s ht, submit_takes g op ch c s ht, hd]; rfl
  rw [e]
  have := submit_done (h := g) (u := (s.atHand ch op c).count ch .cmdRefused 1) ht rfl (by simp) (by simpa using a1)
    (by simpa using a2.trans k.unplaced) (by simpa using a5) (by simpa using a3.trans k.held) (by simpa using a4.trans k.waiting)
  exact ⟨this.1, ((State.atHand_only s ch op c).trans (OnlyChannel.modChan _ ch _ (by simp))).trans this.2⟩

/-- Taking a command changes, of the fields that `OnlyChannel` names, none: a handler that keeps the channels starts from the state itself. -/
theorem OnlyChannel.base {s u : State} {ch : Fin 17} {op : Nat} {c : Cmd} (hu : u.chans = (s.atHand ch op c).chans) :
    OnlyChannel { u with chans := s.chans } u ch := by
  have k := State.atHand_only s ch op c
  have e : (s.inTurn ch op).chans = s.chans := by rw [State.inTurn_eq]
  exact ⟨rfl, fun j i => by rw [hu, k.others j i, e], by rw [hu, ← e]; exact k.kept⟩

/-- A row whose handler finishes and keeps the channels: what is left of the state is the handler's, apart from its channels. -/
theorem done_row {i : Instr} {h : Handler} {op : Nat} {ch : Fin 17} {c c' : Cmd} {s u : State} {st : Status} {ws : List W64}
    (hx : exec i s = .next (s.submit h op ch c')) (hs : c' = c) (ht : takes s ch op c = true) (hw : ws.length ≤ 8188)
    (key : h ch (s.req ch op c) (s.atHand ch op c) = .done st ws u) (hu : u.chans = (s.atHand ch op c).chans) :
    AnswersWith i s ch op c st ws (fun _ => { u with chans := s.chans }) := by
  subst hs
  have := submit_done' ht key hw hu
  exact ⟨_, hx, this.1, (OnlyChannel.base hu).trans this.2⟩

/-- A row whose handler only reads. -/
theorem read_row {i : Instr} {h : Handler} {op : Nat} {ch : Fin 17} {c c' : Cmd} {s : State} {st : Status} {ws : List W64}
    (hx : exec i s = .next (s.submit h op ch c')) (hs : c' = c) (ht : takes s ch op c = true) (hw : ws.length ≤ 8188)
    (key : h ch (s.req ch op c) (s.atHand ch op c) = .done st ws (s.atHand ch op c)) :
    Answers i s ch op c st ws := by
  subst hs
  exact ⟨_, hx, submit_read ht key hw⟩

/-- A row whose handler holds the command: its channel keeps it, and the rest of the state is the handler's. -/
theorem hold_row {i : Instr} {h : Handler} {op : Nat} {ch : Fin 17} {c c' : Cmd} {s u : State} {why : Hold}
    (hx : exec i s = .next (s.submit h op ch c')) (hs : c' = c) (ht : takes s ch op c = true)
    (key : h ch (s.req ch op c) (s.atHand ch op c) = .hold why u) (hu : u.chans = (s.atHand ch op c).chans) :
    HoldsWith i s ch op c why (fun _ => { u with chans := s.chans }) := by
  subst hs
  refine ⟨_, hx, ?_⟩
  rw [submit_takes h op ch c' s ht, key]
  simp only [State.settle]
  have hr : (u.chans[ch.val]).replies = (s.chans[ch.val]).replies := by rw [hu]; exact (State.atHand_chan s ch op c').1
  have ho : OnlyChannel { u with chans := s.chans } u ch := OnlyChannel.base hu
  refine and_assoc.mp ⟨?_, ho.trans (OnlyChannel.modChan _ ch _ (by simp))⟩
  exact ⟨by simp [Holds], by simp [hr]⟩

/-- Naming the operation that the payload names already changes nothing. -/
theorem cmdSel_same (c : Cmd) (i hi lo v : Nat) (hb : bits (word c.payload i) hi lo = v % 2 ^ (hi + 1 - lo)) :
    cmdSel c i hi lo v = c := by
  have key : setBits (word c.payload i) hi lo v = word c.payload i := by
    unfold setBits
    rw [← hb]
    have : bits (word c.payload i) hi lo * 2 ^ lo ≤ (word c.payload i).toNat := by
      unfold bits
      calc _ ≤ (word c.payload i).toNat / 2 ^ lo * 2 ^ lo := Nat.mul_le_mul_right _ (Nat.mod_le _ _)
        _ ≤ _ := Nat.div_mul_le_self _ _
    rw [show (word c.payload i).toNat - bits (word c.payload i) hi lo * 2 ^ lo + bits (word c.payload i) hi lo * 2 ^ lo
      = (word c.payload i).toNat by omega]
    simp
  have set : ∀ (l : List W64) j, setAt l j (l.getD j 0) = l := by
    intro l
    induction l with
    | nil => intro j; rfl
    | cons a l ih =>
      intro j
      cases j with
      | zero => rfl
      | succ j =>
        simp only [setAt]
        rw [show (a :: l).getD (j + 1) 0 = l.getD j 0 from rfl, ih]
  unfold cmdSel
  rw [key, show setAt c.payload i (word c.payload i) = c.payload from set _ _]

end Sys2Proof.Machine
end

