-- ==== Sys2Proof/Laws/All.lean ====
section
/-! SUPPORT. All laws together. -/
end

