-- ==== Sys2Proof/Tests/Slice0.lean ====
section
/-! SUPPORT. The model's own tests: an ill-formed term for each check of WellFormed.lean, which the check refuses; a few single steps and
functions on fixed values, each value taken from a rule of the manual, from a published test vector or by hand; and for every obligation
with hypotheses concrete states and operands that meet them, clause by clause. -/

namespace Sys2Proof.Tests

open Sys2Proof.Machine Sys2Proof.Machine.Crypto

set_option linter.unusedVariables false
set_option Elab.async false

/-! ## Ill-formed terms are refused -/

/-- A well-formed command. -/
def goodCmd : Cmd := ⟨0, 1, 0, true, false, false, false, 0xFFFF, []⟩
/-- A well-formed packet. -/
def goodRoce : Roce := ⟨0x400000, 0, .writeOnly, 0, 0, 0, 0, 0, [], true⟩
/-- A well-formed frame. -/
def goodFrame : Frame := ⟨true, 100, none, 0, none, .other⟩
/-- A well-formed Binigal frame. -/
def goodBFrame : BFrame := ⟨1, 0, 0, 0, 0, 0, 0, 0, 0, []⟩

theorem test_wf_good : goodCmd.wf = true ∧ BootEvents.clean.wf = true ∧ goodRoce.wf = true ∧ goodFrame.wf = true ∧ goodBFrame.wf = true := by
  decide

theorem test_wf_refuses_commands :
    Cmd.wf { goodCmd with seq := 2 ^ 16 } = false ∧ Cmd.wf { goodCmd with hdrVersion := 256 } = false ∧
    Cmd.wf { goodCmd with reserved := 2 ^ 48 + 2 ^ 5 } = false ∧ Cmd.wf { goodCmd with partition := 2 ^ 16 } = false ∧
    Cmd.wf { goodCmd with payload := List.replicate 8191 0 } = false ∧
    Cmd.wf { goodCmd with sealed := true, payload := List.replicate 8189 0 } = false ∧ Cmd.wf { goodCmd with tagOk := true } = false := by
  decide +kernel

theorem test_wf_refuses_boot_events :
    BootEvents.wf { BootEvents.clean with reaches := 7 } = false ∧ BootEvents.wf { BootEvents.clean with reason := 2 ^ 16 } = false ∧
    BootEvents.wf { BootEvents.clean with worn := [2] } = false ∧ BootEvents.wf { BootEvents.clean with defects := [(6, 0, 0)] } = false ∧
    BootEvents.wf { BootEvents.clean with defects := [(0, 256, 0)] } = false ∧
    BootEvents.wf { BootEvents.clean with defects := [(0, 0, 2 ^ 16)] } = false := by decide

theorem test_wf_refuses_packets :
    Roce.wf { goodRoce with destQpn := 2 ^ 24 } = false ∧ Roce.wf { goodRoce with psn := 2 ^ 24 } = false ∧
    Roce.wf { goodRoce with va := 2 ^ 64 } = false ∧ Roce.wf { goodRoce with rkey := 2 ^ 32 } = false ∧
    Roce.wf { goodRoce with len := 2 ^ 32 } = false ∧ Roce.wf { goodRoce with imm := 2 ^ 32 } = false ∧
    Roce.wf { goodRoce with syndrome := 256 } = false ∧ Roce.wf { goodRoce with op := .other 256 } = false := by decide

theorem test_wf_refuses_frames :
    FrameBody.wf (.pfc [(8, 0)]) = false ∧ FrameBody.wf (.resolve false (2 ^ 32)) = false ∧ FrameBody.wf (.resolve true (2 ^ 128)) = false ∧
    FrameBody.wf (.mkaSak 0 0 (some [])) = false ∧ FrameBody.wf (.mkaSak 256 0 none) = false ∧ FrameBody.wf (.udp false (2 ^ 32) true 4791 false goodRoce) = false ∧
    FrameBody.wf (.udp false 0 true (2 ^ 16) false goodRoce) = false ∧
    FrameBody.wf (.udp false 0 true 4791 false { goodRoce with psn := 2 ^ 24 }) = false ∧
    Frame.wf { goodFrame with mac := 2 ^ 48 } = false ∧ Frame.wf { goodFrame with vid := some 4096 } = false ∧
    Frame.wf { goodFrame with macsec := some ⟨2 ^ 48, 0, 0, 0, [], zeros 16⟩ } = false ∧
    Frame.wf { goodFrame with macsec := some ⟨0, 4, 0, 0, [], zeros 16⟩ } = false ∧
    Frame.wf { goodFrame with macsec := some ⟨0, 0, 2 ^ 32, 0, [], zeros 16⟩ } = false ∧
    Frame.wf { goodFrame with macsec := some ⟨0, 0, 0, 2 ^ 64, [], zeros 16⟩ } = false ∧
    Frame.wf { goodFrame with macsec := some ⟨0, 0, 0, 0, [], []⟩ } = false ∧ Frame.wf { goodFrame with body := .pfc [(8, 0)] } = false := by decide

theorem test_wf_refuses_binigal_frames :
    BFrame.wf { goodBFrame with kind := 256 } = false ∧ BFrame.wf { goodBFrame with binding := 256 } = false ∧
    BFrame.wf { goodBFrame with src := 16 } = false ∧ BFrame.wf { goodBFrame with dst := 16 } = false ∧
    BFrame.wf { goodBFrame with hops := 16 } = false ∧ BFrame.wf { goodBFrame with seq := 2 ^ 32 } = false ∧
    BFrame.wf { goodBFrame with txc := 2 ^ 64 } = false ∧ BFrame.wf { goodBFrame with arg0 := 2 ^ 64 } = false ∧
    BFrame.wf { goodBFrame with arg1 := 2 ^ 32 } = false ∧ BFrame.wf { goodBFrame with payload := List.replicate 4160 0 } = false ∧
    BFrame.wf { goodBFrame with payload := [0] } = false := by decide +kernel

theorem test_wf_refuses_operands :
    accessWidth 3 = false ∧ readings (List.replicate 35 0) = false ∧ readings (4096 :: List.replicate 35 0) = false ∧ spdmSize [0x10] = false ∧
    Instr.wf (.getInfo 0 { goodCmd with seq := 2 ^ 16 }) = false ∧
    Instr.wf (.resetDeviceWarm 0 goodCmd { BootEvents.clean with reaches := 7 }) = false ∧ Instr.wf (.roundClearingDone 0 (2 ^ 32)) = false ∧
    Instr.wf (.rangeClosed 0 (2 ^ 32) 0) = false ∧ Instr.wf (.rangeClosed 0 0 (2 ^ 18)) = false ∧ Instr.wf (.remaskPeriod 4096) = false ∧
    Instr.wf (.qpAckTimeout 0 (2 ^ 18)) = false ∧ Instr.wf (.frameReceived 0 { goodFrame with mac := 2 ^ 48 }) = false ∧
    Instr.wf (.data 0 { goodBFrame with kind := 256 }) = false ∧ Instr.wf (.sensorSample [] (List.replicate 36 0) .clean) = false ∧
    Instr.wf (.thermalTrip false 0 4096) = false ∧ Instr.wf (.supplySample (2 ^ 16) .clean) = false ∧
    Instr.wf (.powerUp { BootEvents.clean with reaches := 7 }) = false ∧ Instr.wf (.rngBlockTested 0 false []) = false := by decide +kernel

theorem test_wf_refuses_more_operands :
    Instr.wf (.mbxCmdDataWrite 0 3 0) = false ∧ Instr.wf (.registerWrite 0 .bar0 (2 ^ 16) 8 0) = false ∧
    Instr.wf (.registerWrite 0 .bar0 0 3 0) = false ∧ Instr.wf (.spdmGetVersion 0 []) = false ∧
    Instr.wf (.spdmUnsupportedRequest 0 256) = false ∧ Instr.wf (.mctpLogRead (List.replicate 8191 0)) = false ∧
    Instr.wf (.entdaa 128) = false ∧ Instr.wf (.setdasa 128 0) = false ∧ Instr.wf (.setdasa 0 128) = false ∧ Instr.wf (.enec 128 0) = false ∧
    Instr.wf (.enec 0 256) = false ∧ Instr.wf (.numvfsWrite (2 ^ 16)) = false ∧ Instr.wf (.firmwareFatalError (2 ^ 64)) = false := by
  decide +kernel

/-! ## A small part in service -/

/-- A slot's key of a kind. -/
def keyOf (kind : Nat) : KeySlot := ⟨kind, List.replicate 32 1, zeros 32, [], 0, 1, 0, 2, 5⟩

/-- A partition that is ACTIVE: pair 0, links 0 and 1, one ledger bank, one 1,024 of queue pairs. -/
def partA : Partition :=
  { Partition.absent with
    st := .active, p0 := w64 (2 ^ 32 + 2 ^ 16), p1 := w64 (3 * 2 ^ 32 + 8 * 2 ^ 16), p2 := w64 (2 ^ 32 + 1)
    creation := 1, ledger := [0], acct := { Account.empty with units := 8 }, foldK := 4, foldKNext := 4, mem := ⟨false, [[], [], [], []], none, 0⟩ }

/-- A bank with 24 words of entropy that partition 0 owns. -/
def bankA : Bank := { Bank.reset (.owned 0) with started := true, buf := List.replicate 1536 true, src0 := { Source.reset with st := .running } }

/-- An Ethernet link that is UP. -/
def linkE : Link := { Link.reset with mode := 1, st := .up, signal := true, mac := 5, ipv4 := 7 }

/-- A part in service: every function exists, the admin session, partition 0 with its session, entropy in the pool. -/
def up : State :=
  { State.reset with
    boot := { Boot.reset with phase := .ready, step := 6, pcieUp := true, perst := false, numVfs := 16, noise := true }
    pannier := [(0, keyOf 1), (1, keyOf 2), (128, keyOf 9), (256, keyOf 9), (257, keyOf 8), (272, keyOf 4)]
    parts := State.reset.parts.set 0 partA, banks := State.reset.banks.set 0 bankA, pool := List.replicate 8 7
    links := State.reset.links.set 0 linkE, i3c := ⟨true, some 9, 69, 69, 1⟩ }

/-- The part without its partition. -/
def bare : State := { up with parts := State.reset.parts }

/-- A sealed command on the PF. -/
def pf (ws : List W64) : Cmd := ⟨0, 1, 0, true, false, true, true, 0xFFFF, ws⟩

/-- A sealed command on the channel of partition 0. -/
def vf0 (ws : List W64) : Cmd := ⟨0, 1, 0, true, false, true, true, 0, ws⟩

/-- A command in the clear on the PF. -/
def clear (ws : List W64) : Cmd := ⟨0, 1, 0, true, false, false, false, 0xFFFF, ws⟩

/-- A request held by the PF. -/
def reqA (op : Nat) (ws : List W64) : Req := ⟨op, 0, 0, 0xFFFF, false, none, ws, true, false, false, 0, 0, none⟩

/-- A part whose PF holds a command. -/
def holding (s : State) (ch : Fin 17) (op : Nat) (ws : List W64) (why : Hold) : State :=
  s.modChan ch (fun c => { c with held := some ⟨reqA op ws, why⟩ })

/-- A task of a program 9. -/
def taskA : Task := ⟨5, 9, [], 1000, .ended, .ok, 0, 0, 0, 0, 0, 0, 0, 0, 0, 0⟩

/-- A part whose partition 0 has run a task. -/
def ranTask : State := up.modPart 0 (fun q => { q with job := { q.job with known := [taskA] } })

/-- A round of 20 clients of 4 chunks. -/
def roundA : Round :=
  { tag := 2047, dropout := false, admitLate := false, mendMs := 0, prg := 0, elem := 1, base := 0, clients := 20, recoveryMs := 1000
    chunks := 4, wins := [1], minSurvivors := 1, graphAddr := 0, bitmapAddr := 0, explicit := false, degree := 2, sets := 1, graph := []
    opening := false, openedAt := 0, openedSec := 0, ranges := [], recovery := none, ready := false, complete := 0, accepted := 0
    duplicates := 0, late := 0, early := 0, least := none, closeMs := 0, readyMs := 0, ending := none, egress := [] }

/-- The same round with its only range final. -/
def roundB : Round := { roundA with ranges := [⟨0, 4, [(0, 4)], 0, true, 0, some 0, true, true, none, false⟩] }

/-- A part with a round in partition 0. -/
def withRound (x : Round) : State := up.modPart 0 (fun q => { q with rnd := { q.rnd with rounds := [x] } })
/-- A part with an open round. -/
def inRound : State := withRound roundA
/-- A part with a closed round. -/
def closedRound : State := withRound roundB

/-- A key slot whose policy allows every use. -/
def keyAll : KeySlot := { keyOf 4 with policy := 0xFF }

/-- The base point of the curve as 12 words. -/
def basePoint : List W64 := bytesToWords 12
  (beBytes 48 0xaa87ca22be8b05378eb1c71ef320ad746e1d3b628ba79b9859f741e082542a385502f25dbf55296c3a545e3872760ab7 ++
    beBytes 48 0x3617de4a96262c6f5d9e98bf9292dc29f8f41dbd289a147ce9da3113b5f0b8c00a60b1ce1d7e819d7a431d7c90ea0e5f)

/-- A queue pair in INIT on link 0. -/
def qpA : Qp :=
  { st := .init, mtu := 3, retry := 3, rnrRetry := 3, timeout := 14, rnrTimer := 1, ipv6 := false, prio := 0, link := 0, destQpn := 9
    peer0 := 1, peer1 := 0, ePsn := 0, seqNak := false, msg := none, sinceAck := 0, sqPsn := 0, egress := [], sending := none
    rate := ⟨100, 100, 0, 0, 0, none, none, 0, 0, 0⟩ }

/-- A part whose partition 0 has changed its network state. -/
def net (f : NetPart → NetPart) : State := up.modPart 0 (fun q => { q with net := f q.net })
/-- A part whose partition 0 has changed its rounds. -/
def rnd (f : RoundPart → RoundPart) : State := up.modPart 0 (fun q => { q with rnd := f q.rnd })
/-- A part whose partition 0 has changed its programs and tasks. -/
def job (f : JobPart → JobPart) : State := up.modPart 0 (fun q => { q with job := f q.job })
/-- A part with one queue pair. -/
def withQp (q : Qp) : State := net (fun n => { n with qps := [(0, q)], cache := [0], store := some 0 })

/-- A region of one page. -/
def regionA : Region := ⟨none, 0, 4096, none, none⟩
/-- The same region being revoked. -/
def regionR : Region := { regionA with revoking := some ⟨0, 0, 0⟩ }
/-- A part with a region under TAG 5. -/
def withRegion (g : Region) (q : Qp) : State :=
  net (fun n => { n with qps := [(0, q)], cache := [0], store := some 0, regs := [(0, ⟨5, .region g⟩)], regCount := 1 })

/-- A fold window of 4 chunks. -/
def winA : Window := ⟨1, 4, 0, 0x100000, 0, 1, 0, [], 0⟩

/-- A graph header for 20 clients of degree 2. -/
def graphA : Mem := Mem.writeN [] 0 (leBytes 8 0x4E534554 ++ leBytes 8 (2 * 2 ^ 32 + 20) ++ leBytes 8 1)

/-- A recovery with a threshold of 1. -/
def recA : Recovery := ⟨1, 0x100000, none, zeros 32, none, none, [], [], [], [], [], []⟩

/-- A chunk in flight. -/
def chunkF (stage : Nat) (imm : Option Nat) : Chunk := ⟨7, 2047, 1, 19, 3, imm, [], 0, stage, 0, false⟩

/-- A part with a chunk in flight in a round. -/
def chunkAt (stage : Nat) (imm : Option Nat) : State :=
  rnd (fun x => { x with
    rounds := [roundA], windows := [(1, winA)], aq := some ⟨8, 0x200000, ⟨0, 0⟩, ⟨0, 1⟩, 0, 0, 0, 0, 0⟩
    inFlight := [chunkF stage imm] })

/-- A task that a cassette holds or that runs. -/
def taskR : Task := { taskA with st := .running, maxCycles := 1000 }
/-- A running task. -/
def runA : Running :=
  { what := .tenant taskR, start := 0, base := 0, slow := false, pstate := 0, foldK := 4
    slots := List.replicate 2 (List.replicate 64 0), tickBase := 0, stop := none, charged := 0, metered := 0, booked := [] }
/-- The same task about to be stopped. -/
def runStop (cancel : Bool) : Running := { runA with stop := some ⟨64, cancel, .ok, 0, 0, 0, 0, 0⟩ }
/-- A part in which a task runs. -/
def running (r : Running) : State := job (fun j => { j with resident := [(9, ⟨0, 4096, 4, 0, 1, 1⟩)], running := some r })

/-- Where a slot begins in its bundle. -/
def slotAt : Nat → Nat
  | 0 => 0 | 1 => 32 | 2 => 96 | 3 => 160 | _ => 224

/-- A core with one instruction at its pointer. -/
def coreA (slot v : Nat) (tensor : Bool) : Core :=
  { Core.clear with
    active := true, a := [0, 0x20000, 0x40000, 0x60000, 0x200000] ++ List.replicate 27 0, code := Mem.writeN [] 0 (leBytes 32 (v * 2 ^ slotAt slot))
    eng := { Engine.clear with tensor := tensor } }

/-- A part with a core. -/
def withCore (x : Core) : State := (running runA).modCore 0 0 (fun _ => x)
/-- A part about to issue an instruction. -/
def issuing (slot v : Nat) (tensor : Bool) : State := withCore (coreA slot v tensor)
/-- The issue of that instruction. -/
def issue (v : Nat) (t : Nat) : Issue := ⟨0, 0, 0, runA, t, v⟩

/-- A ctl or syn instruction without operands. -/
def ctlV (cls op : Nat) : Nat := cls * 2 ^ 28 + op * 2 ^ 24
/-- An mv instruction. -/
def mvV (op : Nat) : Nat := 6 * 2 ^ 60 + op * 2 ^ 56 + 2 ^ 33
/-- A compute instruction on three registers, N = 2,048. -/
def compV (cls op d : Nat) : Nat := cls * 2 ^ 60 + op * 2 ^ 54 + d * 2 ^ 49 + 2 * 2 ^ 44 + 3 * 2 ^ 39 + 3 * 2 ^ 30
/-- A compute instruction with a count. -/
def tnV (op rep : Nat) : Nat := 2 * 2 ^ 60 + op * 2 ^ 54 + 2 ^ 49 + 2 * 2 ^ 44 + 3 * 2 ^ 39 + rep * 2 ^ 27
/-- An aux instruction. -/
def auxV (cls op : Nat) : Nat := cls * 2 ^ 60 + op * 2 ^ 54 + 2 ^ 49 + 2 * 2 ^ 44 + 2 ^ 28

/-! ## A part in a tandem group -/

/-- A fingerprint, byte by byte. -/
def spell (v : List Byte) : List Byte := (List.range 48).map (fun i => v.getD i 0)
/-- Another fingerprint. -/
def spell2 (v : List Byte) : List Byte := (v.getD 0 0 + 1) :: ((List.range 47).map (fun i => v.getD (i + 1) 0))
/-- The fingerprints of a group in which a part stands first or second. -/
def fpsT (v : List Byte) (first : Bool) : List (List Byte) := if first then [spell v, spell2 v] else [spell2 v, spell v]

/-- Ports of the binding: from the second member to the first, and back. -/
def portsT : List PortDesc := [⟨1, 0, 1, 3, 4, 1, 0, 0x300000⟩, ⟨0, 1, 1, 3, 4, 1, 0x300000, 0⟩]
/-- The binding. -/
def bindT : BindDesc := ⟨5, [0, 0] ++ List.replicate 14 255, zeros 32, portsT⟩
/-- The group: one link, number 2 at both ends. -/
def groupT (v : List Byte) (first : Bool) : GroupDesc := ⟨1, fpsT v first, [⟨0, 2, 1, 2⟩], [bindT]⟩

/-- A port in its 32 bytes. -/
def portBytes (x : PortDesc) : List Byte :=
  [byte (x.src * 16 + x.dst), byte x.pages] ++ leBytes 2 x.trigger ++ leBytes 2 x.arrive ++ leBytes 2 x.blocks ++ leBytes 8 x.srcAddr
    ++ leBytes 8 x.dstAddr ++ zeros 8
/-- What follows the fingerprints in the tandem section. -/
def tailT : List Byte :=
  [1] ++ leBytes 4 (2 * 2 ^ 4 + 2 ^ 12 + 2 * 2 ^ 16) ++ [1] ++
    ([5, 2] ++ zeros 14 ++ (0 :: 0 :: List.replicate 14 255) ++ zeros 32 ++ portsT.flatMap portBytes)
/-- The tandem section. -/
def sectionT (v : List Byte) (first : Bool) : List Byte := [1, 0, 0, 0, 0, 0, 0, 0, 2] ++ ((fpsT v first).flatten ++ tailT)
/-- The record that holds it. -/
def bodyT (v : List Byte) (first : Bool) : List Byte := [2, 0, 0, 0, 239, 0, 0, 0] ++ (sectionT v first ++ [0])

/-- The record. -/
def recT (first : Bool) : ConfigRec := ConfigRec.made 1 (bodyT deviceFp first) 1

/-- The link between the members. -/
def linkT : Link :=
  { Link.reset with mode := 3, st := .up, signal := true, bin := { Binigal.reset with keyed := true, eph := 1, replay := [⟨1, 5, 0, 1, 0, 0, 0, 0, 0, []⟩] } }
/-- A member of the group. -/
def tandem (first : Bool) : State :=
  { (running runA).modCore 0 0 (fun _ => coreA 0 0x78000001 false) with
    nvm := { up.nvm with cfg := [some (recT first), none] }, links := up.links.set 2 linkT
    tandem := { Tandem.reset with binds := [(5, .active)] } }
/-- A frame for the binding. -/
def frameT (kind src dst arg0 arg1 : Nat) : BFrame := ⟨kind, 5, src, dst, 0, 0, 0, arg0, arg1, []⟩

theorem blocks_length (k : ShaKind) (l : List (List Byte)) : ∀ v : List Nat, v.length = 8 → (l.foldl (shaBlock k) v).length = 8 := by
  induction l with
  | nil => intro v h; exact h
  | cons x l ih => intro v h; apply ih; simp [shaBlock, Chains.list, h]

theorem leBytes_length (k : Nat) : ∀ n : Nat, (leBytes k n).length = k := by
  induction k with
  | zero => intro n; rfl
  | succ k ih => intro n; simp [leBytes, ih]

theorem deviceFp_length : deviceFp.length = 48 := by
  unfold deviceFp sha384 sha
  simp only [List.length_take, List.length_flatten, List.map_map]
  have h := blocks_length sha384Kind (chop sha384Kind.block ((identityPub ++ shaTail sha384Kind identityPub.length).length / sha384Kind.block)
    (identityPub ++ shaTail sha384Kind identityPub.length)) sha384Kind.start rfl
  revert h
  generalize (List.foldl _ _ _) = v
  intro h
  match v, h with
  | [a, b, c, d, e, f, g, i], _ => simp [beBytes, leBytes_length, sha384Kind]

theorem spell_eq (v : List Byte) (h : v.length = 48) : spell v = v := by
  apply List.ext_getElem
  · simp [spell, h]
  · intro i h1 h2
    simp [spell, List.getD_eq_getElem?_getD, h2]

theorem spell2_ne (v : List Byte) : spell2 v ≠ spell v := by
  intro h
  have h2 : (spell2 v).getD 0 0 = (spell v).getD 0 0 := by rw [h]
  have h3 : v.getD 0 0 + 1 = v.getD 0 0 := h2
  revert h3
  generalize v.getD 0 0 = b
  revert b
  decide


theorem tailT_length : tailT.length = 134 := by decide +kernel

theorem fpsT_length (v : List Byte) (first : Bool) : (fpsT v first).flatten.length = 96 := by cases first <;> simp [fpsT, spell, spell2]

theorem sectionT_length (v : List Byte) (first : Bool) : (sectionT v first).length = 239 := by
  rw [sectionT, List.length_append, List.length_append, fpsT_length, tailT_length]; rfl

theorem sections_of (v : List Byte) (first : Bool) : (sectionsOf (bodyT v first)).bind (sectionData 2) = some (sectionT v first) := by
  have hl : (bodyT v first).length = 248 := by simp [bodyT, sectionT_length]
  have h1 : (bodyT v first).take 2 = [2, 0] := rfl
  have h2 : ((bodyT v first).drop 4).take 4 = [239, 0, 0, 0] := rfl
  have h3 : ((bodyT v first).drop 2).take 2 = [0, 0] := rfl
  have h4 : ((bodyT v first).take 248).drop 247 = [0] := by
    rw [List.take_of_length_le (by omega)]
    have : bodyT v first = ([2, 0, 0, 0, 239, 0, 0, 0] ++ sectionT v first) ++ [0] := by simp [bodyT]
    rw [this, List.drop_append_of_le_length (by simp [sectionT_length])]
    simp [sectionT_length]
  have h5 : (bodyT v first).drop 248 = [] := List.drop_eq_nil_of_le (by omega)
  have h6 : ((bodyT v first).drop 8).take 239 = sectionT v first := by
    have : (bodyT v first).drop 8 = sectionT v first ++ [0] := rfl
    rw [this, List.take_append_of_le_length (by simp [sectionT_length]), List.take_of_length_le (by simp [sectionT_length])]
  unfold sectionsOf
  rw [hl]
  show (parseSections 32 _).bind _ = _
  cases hb : bodyT v first with
  | nil => simp [hb] at hl
  | cons x l =>
    rw [hb] at h1 h2 h3 h4 h5 h6 hl
    have e1 : leNat ([2, 0] : List Byte) = 2 := rfl
    have e2 : leNat ([239, 0, 0, 0] : List Byte) = 239 := rfl
    have e3 : leNat ([0, 0] : List Byte) = 0 := rfl
    have e4 : 8 + ceilDiv 239 8 * 8 = 248 := rfl
    simp only [parseSections, h1, h2, h3, e1, e2, e3, e4, hl, h4, h5, h6, Nat.reduceAdd]
    rfl

theorem section_of (v : List Byte) (first : Bool) :
    ((sectionsOf (bodyT v first)).bind (sectionData 2)).bind parseTandem = some (groupT v first) := by
  rw [sections_of, Option.bind_some]
  have hf := fpsT_length v first
  have h1 : ((sectionT v first).drop 8).take 1 = [2] := rfl
  have h2 : (sectionT v first).drop 105 = tailT := by
    have : (sectionT v first).drop 105 = ((fpsT v first).flatten ++ tailT).drop 96 := rfl
    rw [this, List.drop_append_of_le_length (by omega), List.drop_eq_nil_of_le (by omega), List.nil_append]
  have h3 : (sectionT v first).drop 9 = (fpsT v first).flatten ++ tailT := rfl
  have h4 : readFps 2 ((fpsT v first).flatten ++ tailT) = fpsT v first := by
    have a : (spell v).length = 48 := by simp [spell]
    have b : (spell2 v).length = 48 := by simp [spell2]
    cases first <;> simp [fpsT, readFps, a, b]
  have e1 : leNat ([2] : List Byte) = 2 := rfl
  have e2 : 9 + 48 * 2 = 105 := rfl
  have e3 : (sectionT v first).take 8 = [1, 0, 0, 0, 0, 0, 0, 0] := rfl
  have e4 : leNat (tailT.take 1) = 1 := by decide +kernel
  have e5 : readLinks 1 (tailT.drop 1) = ([⟨0, 2, 1, 2⟩], true) := by decide +kernel
  have e6 : 1 + 4 * 1 = 5 := rfl
  have e7 : leNat ((tailT.drop 5).take 1) = 1 := by decide +kernel
  have e8 : readBinds 1 ((tailT.drop 5).drop 1) = some [bindT] := by decide +kernel
  have e9 : (tailT.drop 5).isEmpty = false := by decide +kernel
  have e10 : leNat ([1, 0, 0, 0, 0, 0, 0, 0] : List Byte) = 1 := rfl
  have e11 : bindT.ok 2 = true := by decide +kernel
  simp only [parseTandem, h1, e1, e2, h2, h3, h4, e3, e4, e5, e6, e7, e8, e9, e10]
  simp [e11, groupT, (by decide +kernel : [bindT.id].eraseDups.length = 1)]

theorem position_of (first : Bool) : (groupT deviceFp first).position = some (if first then 0 else 1) := by
  have h1 : (spell deviceFp == deviceFp) = true := by rw [spell_eq _ deviceFp_length]; simp
  have h2 : (spell2 deviceFp == deviceFp) = false := by
    rw [beq_eq_false_iff_ne]; intro h; exact spell2_ne deviceFp (by rw [h, spell_eq _ deviceFp_length])
  cases first <;> simp [GroupDesc.position, groupT, fpsT, leastBelow, findFrom, h1, h2]

theorem group_of (first : Bool) (s : State) (h : s.nvm.cfg = [some (recT first), none]) (hb : s.boot.cfgSlot = 0) :
    s.group = some (groupT deviceFp first) := by
  unfold State.group State.activeSection State.activeRecord
  rw [h, hb]
  exact section_of deviceFp first

theorem member_of (first : Bool) (s : State) (h : s.nvm.cfg = [some (recT first), none]) (hb : s.boot.cfgSlot = 0) :
    s.member = some (groupT deviceFp first, if first then 0 else 1) := by
  unfold State.member; rw [group_of first s h hb]; simp [position_of]


theorem binds_of (first : Bool) (s : State) (h : s.nvm.cfg = [some (recT first), none]) (hb : s.boot.cfgSlot = 0) :
    s.bindsOf 0 = [bindT] := by
  unfold State.bindsOf
  rw [group_of first s h hb]
  simp only [position_of]
  cases first
  · show [bindT].filter (fun b => b.local? 1 == some 0) = [bindT]; decide +kernel
  · show [bindT].filter (fun b => b.local? 0 == some 0) = [bindT]; decide +kernel

/-! ## More small states -/

/-- A load of one page that has passed its slot. -/
def moveA : Move := ⟨false, .core, [(0, 0)], 256, [], 0, 64, true, 1, 384, none, none⟩
/-- The core that waits for it. -/
def moving : State := withCore { coreA 0 0x78000001 false with moves := [moveA] }
/-- A derailleur job of a kind. -/
def jobOf (kind : Nat) : DrJob := ⟨0, 0, w64 kind :: List.replicate 15 0, 0, 100, none, 0, false, none⟩
/-- A cluster whose derailleur runs it. -/
def derailing (kind : Nat) : State := (withCore (coreA 0 0x78000001 false)).modCluster 0 (fun x => { x with der := ⟨[], [jobOf kind], 0⟩ })
/-- A cluster with a ticket that waits. -/
def ticketed : State := up.modCluster 0 (fun x => { x with der := ⟨[(5, { Ticket.zero with st := .waiting })], [], 0⟩ })
/-- A send under way. -/
def sendA (kind : SendKind) : Send := ⟨kind, [], 8, 8, [], 3, 3, 0, none⟩
/-- A packet sent. -/
def packetA : TxPacket := ⟨0, .writeOnly, 0, 0, 8, none, zeros 8⟩
/-- A queue pair that sends. -/
def sender (d : Send) : Qp := { qpA with st := .rts, sending := some d }
/-- A write of 8 bytes for the first queue pair of partition 0. -/
def roceA : Roce := ⟨0x400000, 0, .writeOnly, 0, 5, 8, 0, 0, zeros 8, true⟩
/-- A frame on link 0. -/
def frameA (body : FrameBody) (ok : Bool) : Frame := ⟨ok, 100, none, 5, none, body⟩
/-- A part with a link 3. -/
def withLink (k : Link) : State := { up with links := up.links.set 3 k }
/-- A part whose cores have a barrier entry. -/
def entering (s : State) : State := s.modPart 0 (fun q => { q with job := { q.job with bar := ⟨false, [(0, 10)]⟩ } })
/-- A barrier round. -/
def roundT (l : Assoc (List Byte)) (x : Option Nat) : BarRound := ⟨0, l, 0, x, false⟩
/-- A member of the group with a barrier round. -/
def tandemIn (first : Bool) (r : BarRound) : State :=
  { entering (tandem first) with tandem := { Tandem.reset with binds := [(5, .active)], rounds := [(5, r)] } }
/-- A configuration record of one ADMIN section, as words. -/
def bodyWords : List W64 := w64 (1 + 96 * 2 ^ 32) :: List.replicate 12 0
/-- The same as bytes. -/
def bodyA : List Byte := [1, 0, 0, 0, 96, 0, 0, 0] ++ zeros 96
/-- A part with an SPDM connection of the PF. -/
def spdmAt (k : Spdm) : State := { up with spdm := up.spdm.set 0 k }
/-- A part whose partition 0 is being created. -/
def creating : State := up.modPart 0 (fun q => { q with st := .creating })
/-- A command that opens a session. -/
def openCmd : Cmd := ⟨0, 1, 0, true, false, false, false, 0, List.replicate 29 0⟩
/-- A whole command waits on a channel. -/
def waits (s : State) (ch : Fin 17) (op : Nat) (c : Cmd) : State := s.modChan ch (fun x => { x with waiting := [.typed op c] })
/-- A deferred CONFIG_WRITE. -/
def asyncA (n : Nat) (ws : List W64) : Req := { reqA 0x0801 (w64 n :: 0 :: ws) with async := true }
/-- The modulus of a basis entry: 998,244,353. -/
def basisQ : Nat := 0x3B800001
/-- A root of order 2^17 modulo it. -/
def basisPsi : Nat := powMod basisQ 13 3 7616
/-- The three words of the entry. -/
def basisWords : List W64 := [w64 basisQ, w64 basisPsi, 0x10]
/-- Its Barrett constant. -/
def basisMu : Nat := barrett basisQ
/-- Its inverse root. -/
def basisPi : Nat := powMod basisQ 17 basisPsi (2 ^ 17 - 1)
/-- Its inverses of N. -/
def basisNs : List Nat := (List.range 6).map (fun i => invN basisQ (11 + i))
/-- A round with a range whose recovery deadline is at 9. -/
def rangeDue : ClosedRange := ⟨0, 4, [(0, 4)], 0, true, 0, some 0, true, true, some 9, false⟩
/-- The same round waiting for its deadline. -/
def roundDue : Round := { roundA with ranges := [rangeDue] }
/-- A range whose end has been posted. -/
def rangeOpen : ClosedRange := ⟨0, 4, [(0, 4)], 0, true, 0, some 0, false, true, none, false⟩
/-- The round with it. -/
def roundOpen : Round := { roundA with ranges := [rangeOpen] }
/-- A round in recovery. -/
def roundR : Round := { roundB with recovery := some recA }
/-- A link in SECURING, with a CAK. -/
def securing : State := { withLink { linkE with macsec := true, st := .securing } with pannier := up.pannier ++ [(11, keyOf 10)] }

/-! ## Single steps and functions -/

/-- The next state of an outcome. -/
def next? {F R : Type} : Host.Outcome State F R → Option State
  | .next t => some t
  | _ => none

/-- The core that runs after one command. -/
def coreAfter (i : Instr) (s : State) : Option Core := (next? (exec i s)).map (fun t => t.core 0 0)
/-- The registers of the core that runs. -/
def regsAfter (i : Instr) (s : State) : Option (List W64) := (coreAfter i s).map Core.a

/-- Operand fields of a ctl instruction: destination and two sources (R133). -/
def ctlABC (op d x y : Nat) : Nat := ctlV 7 op + d * 2 ^ 19 + x * 2 ^ 14 + y * 2 ^ 9

/-- An empty queue lets 40 ns pass in units of 1/24 ns (assumption 2). -/
theorem test_idle : (next? (step up)).map State.clock = some 960 := by decide +kernel

/-- withFetchWord leaves the queue alone, since the table gives no row any bits. -/
theorem test_with_fetch_word : (up.withFetchWord 0 0).pending = [] := by decide +kernel

/-- ctl.li places its 16 bits at the half-word it names (R133): 0x1234 in half-word 3. -/
theorem test_ctl_li : (regsAfter (.ctlLi 0 0) (issuing 0 (ctlV 7 1 + 5 * 2 ^ 19 + 3 * 2 ^ 17 + 0x1234) false)).map (fun a => a.getD 5 0) =
    some 0x1234000000000000 := by decide +kernel

/-- ctl.sub wraps: 0 − 0x20000 (R133). -/
theorem test_ctl_sub : (regsAfter (.ctlSub 0 0) (issuing 0 (ctlABC 3 7 0 1) false)).map (fun a => a.getD 7 0) =
    some 0xFFFFFFFFFFFE0000 := by decide +kernel

/-- ctl.addi extends its sign: 0x20000 − 1 (R133). -/
theorem test_ctl_addi : (regsAfter (.ctlAddi 0 0) (issuing 0 (ctlV 7 4 + 7 * 2 ^ 19 + 1 * 2 ^ 14 + 0x3FFF) false)).map (fun a => a.getD 7 0) =
    some 0x1FFFF := by decide +kernel

/-- The source of a ctl.shl may be its destination (R133): 0x20000 shifted left by 46 loses its bit. -/
theorem test_ctl_shl : (regsAfter (.ctlShl 0 0) (issuing 0 (ctlV 7 5 + 1 * 2 ^ 19 + 1 * 2 ^ 14 + 47) false)).map (fun a => a.getD 1 0) =
    some 0 := by decide +kernel

/-- A loop counter of 0 wraps to 2^32 − 1 (R133). -/
theorem test_ctl_loop : (coreAfter (.ctlLoop 0 0) (issuing 0 (ctlV 7 7) false)).map (fun x => x.l.getD 0 0) = some (2 ^ 32 - 1) := by
  decide +kernel

/-- The replay of chapter 16's worked example: a command whose SEQ is one behind is refused with 0x0023 in two words in the clear. -/
theorem test_replay_refused :
    ((next? (exec (.serviceTurn 1) (waits (up.modChan 1 (fun c => { c with seqExpect := 0x124 })) 1 0x0307
      ⟨0x123, 1, 0, true, false, true, true, 0, [0x2A5, 0]⟩))).map (fun t => ((t.chans[(1 : Fin 17)]).replies, (t.chans[(1 : Fin 17)]).seqExpect))) =
    some ([[0x0123000003070023, 0]], 0x124) := by decide +kernel

/-- The address of the worked example in chapter 0: window 5, client 1,000,000. -/
theorem test_window_address : vaWin 0x0AF4240000003000 = 5 ∧ vaClient 0x0AF4240000003000 = 1000000 := by decide

/-- The basis entry of chapter 6's worked example is accepted with LOGN_MAX 16 and rejected with 13; N^(−1) at 65,536 and 16,384. -/
theorem test_basis_entry :
    entryOk [0x3B800001, w64 (powMod 0x3B800001 13 3 7616), 0x10, 0, 0, 0, 0, 0] = true ∧
    entryOk [0x3B800001, w64 (powMod 0x3B800001 13 3 7616), 13, 0, 0, 0, 0, 0] = false ∧
    invN 0x3B800001 16 = 998229121 ∧ invN 0x3B800001 14 = 998183425 := by decide +kernel

/-- A transform of four coefficients modulo 17 with ψ = 2: the value at k is x² at ψ^(2 brv(k) + 1), and the inverse returns it. -/
theorem test_transform : nttFwd 17 2 2 [0, 0, 1, 0] = [4, 4, 13, 13] ∧ nttInv 17 2 2 [4, 4, 13, 13] = [0, 0, 1, 0] := by decide +kernel

/-- The lookup of chapter 8's worked example takes 4,408 frames. -/
theorem test_lookup_frames : Desc.frames [0x0018440000007800, 0, 0, 0, 0, 0, 0, 0, 0, 0, 0, 0, 0, 0, 0, 0] 1835008 = 4408 := by decide +kernel

/-- Rounding to nearest even (R252): 1 + 2^(−24) is 1, 1 + 3 × 2^(−24) is 1 + 2^(−22). -/
theorem test_rounding :
    (Fp.rne (.num false (2 ^ 24 + 1) (-24))).bits32 = 0x3F800000 ∧ (Fp.rne (.num false (2 ^ 24 + 3) (-24))).bits32 = 0x3F800002 := by
  decide +kernel

/-- The von Neumann step (R295): 01 gives one bit and 10 the other, 00 and 11 none. -/
theorem test_von_neumann : (vonNeumann [false, true, true, false, true, true, false, false]).length = 2 := by decide

/-- FIPS 180-4, "abc". -/
theorem test_sha : sha256 (ascii "abc") = beBytes 32 0xba7816bf8f01cfea414140de5dae2223b00361a396177a9cb410ff61f20015ad ∧
    sha384 (ascii "abc") =
      beBytes 48 0xcb00753f45a35e8bb5a03d699ac65007272c32ab0eded1631a8b605a43ff5bed8086072ba1e7cc2358baeca134c825a7 := by decide +kernel

/-- FIPS 197, the AES-128 example. -/
theorem test_aes : aesBlock (aesKeys (beBytes 16 0x000102030405060708090a0b0c0d0e0f)) (beBytes 16 0x00112233445566778899aabbccddeeff) =
    beBytes 16 0x69c4e0d86a7b0430d8cdb78070b4c55a := by decide +kernel

/-- The same block taken back (FIPS 197, C.1). -/
theorem test_aes_back : aesUnblock (aesKeys (beBytes 16 0x000102030405060708090a0b0c0d0e0f)) (beBytes 16 0x69c4e0d86a7b0430d8cdb78070b4c55a) =
    beBytes 16 0x00112233445566778899aabbccddeeff := by decide +kernel

/-- IEEE Std 1619-2007, vector 10: data unit 0xff, the first two blocks. -/
theorem test_xts :
    xtsSeal (beBytes 32 0x2718281828459045235360287471352662497757247093699959574966967627 ++
      beBytes 32 0x3141592653589793238462643383279502884197169399375105820974944592) 0xff 0 ((List.range 16).map byte) =
      beBytes 16 0x1c3b3a102f770386e4836c99e370cf9b ∧
    xtsSeal (beBytes 32 0x2718281828459045235360287471352662497757247093699959574966967627 ++
      beBytes 32 0x3141592653589793238462643383279502884197169399375105820974944592) 0xff 1 ((List.range 16).map (fun i => byte (16 + i))) =
      beBytes 16 0xea00803f5e482357a4ae12d414a3e63b := by decide +kernel

/-- The GCM specification's first cases with a 256-bit key of zeros. -/
theorem test_gcm : gcmSeal (zeros 32) (zeros 12) [] [] = ([], beBytes 16 0x530f8afbc74536b9a963b4f1c4cb738b) ∧
    gcmSeal (zeros 32) (zeros 12) [] (zeros 16) =
      (beBytes 16 0xcea7403d4d606b6e074ec5d3baf39d18, beBytes 16 0xd0d1c8a799996bf0265b98b5d48ab919) := by decide +kernel

/-- RFC 8439, section 2.3.2: the first words of the block. -/
theorem test_chacha : (chachaBlock ((List.range 32).map byte) (beBytes 12 0x000000090000004a00000000) 1).take 8 =
    beBytes 8 0x10f1e7e4d13b5915 := by decide +kernel

/-- The check value of CRC-32C. -/
theorem test_crc : crc32c (ascii "123456789") = 0xe3069283 := by decide +kernel

/-- Twice the base point of P-384. -/
theorem test_double_point : (pointBytes (addPt g384 g384)).take 48 =
    beBytes 48 0x08d999057ba3d2d969260045c55b97f089025959a6f434d651d207d19fb96e9e4fe0e86ebe0e64f85b96a9c75295df61 := by decide +kernel

/-- SPDM GET_VERSION answers version 1.3 (R320). -/
theorem test_spdm_version : (next? (exec (.spdmGetVersion 0 [0x10, 0x84, 0, 0]) up)).map (fun t => t.out.take 1) =
    some [.spdm 0 [0x10, 0x04, 0, 0, 0, 1, 0x00, 0x13]] := by decide +kernel

/-- BYPASS delays the scan by one bit (R512). -/
theorem test_bypass : (next? (exec (.bypass [true, false, true]) up)).map (fun t => t.out.take 1) = some [.jtag [false, true, false]] := by
  decide +kernel

/-- A store of one byte twice and back to what an unlisted address reads as leaves the memory as it was. -/
theorem test_memory : Mem.write (Mem.write [] 5 7) 5 0 = [] ∧ (Mem.writeN [] 6 [1, 2]).read 7 = 2 ∧ Mem.wf (Mem.writeN [(9, 1)] 3 [4, 0, 5]) = true := by
  decide

/-! ## Every hypothesis can be met -/

/-- States and operands that meet the hypotheses of StepRunsTheFrontCommand. -/
theorem test_meets_StepRunsTheFrontCommand :
    ∃ (s : State) (i : Instr) (rest : List Instr), s.pending = i :: rest :=
  ⟨{ up with pending := [.perstAssert] }, .perstAssert, [], by decide +kernel⟩

/-- States and operands that meet the hypotheses of GetInfoAnswers. -/
theorem test_meets_GetInfoAnswers :
    ∃ (s : State) (ch : Fin 17) (c : Cmd), takes s ch 0x0101 c :=
  ⟨up, 1, vf0 [], by decide +kernel⟩

/-- States and operands that meet the hypotheses of GetStatusAnswers. -/
theorem test_meets_GetStatusAnswers :
    ∃ (s : State) (ch : Fin 17) (c : Cmd), takes s ch 0x0102 c :=
  ⟨up, 0, pf [], by decide +kernel⟩

/-- States and operands that meet the hypotheses of InformationReadsAnswer, one for each of its clauses. -/
theorem test_meets_InformationReadsAnswer :
    (∃ (s : State) (ch : Fin 17) (c : Cmd), takes s ch 0x0702 c) ∧
    (∃ (s : State) (ch : Fin 17) (c : Cmd), takes s ch 0x0802 c) :=
  ⟨⟨up, 1, vf0 [], by decide +kernel⟩,
    ⟨up, 0, clear [], by decide +kernel⟩⟩

/-- States and operands that meet the hypotheses of InformationReadsAnswer, for further clauses. -/
theorem test_meets_InformationReadsAnswer_2 :
    (∃ (s : State) (c : Cmd) (n cur : Nat) (here : List LogRec), takes s 0 0x0901 c ∧ c.payload = [w64 (n * 2 ^ 32), w64 cur] ∧ 1 ≤ n ∧ n ≤
      8187 ∧ cur < 2 ^ 64 ∧ cur ≤ s.nvm.logSeq + 1 ∧ here = s.nvm.log.filter (fun r => cur ≤ r.seq) ∧ (∀ r ∈ here.head?, r.words ≤ n)) ∧
    (∃ (s : State) (c : Cmd) (n cur : Nat) (r : LogRec), takes s 0 0x0901 c ∧ c.payload = [w64 (n * 2 ^ 32), w64 cur] ∧ 1 ≤ n ∧ n ≤ 8187 ∧
      cur < 2 ^ 64 ∧ cur ≤ s.nvm.logSeq + 1 ∧ (s.nvm.log.filter (fun r => cur ≤ r.seq)).head? = some r ∧ n < r.words) :=
  ⟨⟨{ up with nvm := { up.nvm with log := [⟨1, 0x0304, 3, 1, 0, 5, 0, [1]⟩], logSeq := 1 } }, clear [w64 (8 * 2 ^ 32), 1], 8, 1, [⟨1,
      0x0304, 3, 1, 0, 5, 0, [1]⟩], by decide +kernel⟩,
    ⟨{ up with nvm := { up.nvm with log := [⟨1, 0x0304, 3, 1, 0, 5, 0, [1, 2, 3]⟩], logSeq := 1 } }, clear [w64 (7 * 2 ^ 32), 1], 7, 1,
      ⟨1, 0x0304, 3, 1, 0, 5, 0, [1, 2, 3]⟩, by decide +kernel⟩⟩

/-- States and operands that meet the hypotheses of InformationReadsAnswer, for further clauses. -/
theorem test_meets_InformationReadsAnswer_3 :
    (∃ (s : State) (c : Cmd) (n : Nat), takes s 0 0x0902 c ∧ c.payload = [w64 n] ∧ n ≤ 6) ∧
    (∃ (s : State) (ch : Fin 17) (c : Cmd) (n first : Nat) (p : Fin 16), takes s ch 0x0A02 c ∧ (if ch = 0 then s.debugAccess.unlocked else
      s.parts[p].debugOn) ∧ (ch ≠ 0 → p = chanPart ch) ∧ s.parts[p].st = .active ∧ c.payload = [w64 (n * 2 ^ 32 + (if ch = 0 then p.val else
      0)), w64 first] ∧ 1 ≤ n ∧ n ≤ 2046 ∧ first ≤ s.parts[p].traceCount ∧ first < 2 ^ 32) :=
  ⟨⟨up, clear [6], 6, by decide +kernel⟩,
    ⟨up.modPart 0 (fun q => { q with debugOn := true }), 1, vf0 [w64 (2046 * 2 ^ 32), 0], 2046, 0, 0, by decide +kernel⟩⟩

/-- States and operands that meet the hypotheses of InformationReadsAnswer, for further clauses. -/
theorem test_meets_InformationReadsAnswer_4 :
    (∃ (s : State) (ch : Fin 17) (c : Cmd) (p : Fin 16), takes s ch 0x0203 c ∧ c.payload = [w64 p.val] ∧ (ch = 0 ∨ p = chanPart ch) ∧
      s.parts[p].st = .active) ∧
    (∃ (s : State) (ch : Fin 17) (c : Cmd) (id : Nat) (k : Machine.Task), takes s ch 0x0503 c ∧ c.payload = [w64 id] ∧ id < 2 ^ 16 ∧
      ((s.inTurn ch 0x0503).tasks (chanPart ch)).find? (fun t => t.id == id) = some k) :=
  ⟨⟨up, 1, vf0 [0], 0, by decide +kernel⟩,
    ⟨ranTask, 1, vf0 [5], 5, taskA, by decide +kernel⟩⟩

/-- States and operands that meet the hypotheses of InformationReadsAnswer, for further clauses. -/
theorem test_meets_InformationReadsAnswer_5 :
    (∃ (s : State) (ch : Fin 17) (c : Cmd) (l : Fin 24), takes s ch 0x0601 c ∧ c.payload = [w64 (2 * 2 ^ 16 + l.val)] ∧ (ch = 0 ∨ (s.own
      ch).linkMask.testBit l.val)) ∧
    (∃ (s : State) (ch : Fin 17) (c : Cmd) (tag : Nat) (x : Round), takes s ch 0x0307 c ∧ tag < 2 ^ 11 ∧ c.payload = [w64 tag, 0] ∧
      s.round? (chanPart ch) tag = some x) :=
  ⟨⟨up, 1, vf0 [w64 (2 * 2 ^ 16 + 1)], 1, by decide +kernel⟩,
    ⟨inRound, 1, vf0 [w64 2047, 0], 2047, roundA, by decide +kernel⟩⟩

/-- States and operands that meet the hypotheses of InformationReadsAnswer, for further clauses. -/
theorem test_meets_InformationReadsAnswer_6 :
    (∃ (s : State) (ch : Fin 17) (c : Cmd) (tag i : Nat) (x : Round), takes s ch 0x0307 c ∧ c.sealed ∧ tag < 2 ^ 11 ∧ i < 2 ^ 21 ∧
      c.payload = [w64 (1 * 2 ^ 16 + tag), w64 i] ∧ s.round? (chanPart ch) tag = some x ∧ x.base ≤ i ∧ i < x.base + x.clients) ∧
    (∃ (s : State) (ch : Fin 17) (c : Cmd) (tag i n : Nat) (x : Round), takes s ch 0x0307 c ∧ c.sealed ∧ tag < 2 ^ 11 ∧ i < 2 ^ 21 ∧ 1 ≤ n
      ∧ n ≤ 4094 ∧ s.round? (chanPart ch) tag = some x ∧ c.payload = [w64 (2 * 2 ^ 16 + tag), w64 (n * 2 ^ 32 + i)]) :=
  ⟨⟨inRound, 1, vf0 [w64 (1 * 2 ^ 16 + 2047), 19], 2047, 19, roundA, by decide +kernel⟩,
    ⟨inRound, 1, vf0 [w64 (2 * 2 ^ 16 + 2047), w64 (4094 * 2 ^ 32 + 19)], 2047, 19, 4094, roundA, by decide +kernel⟩⟩

/-- States and operands that meet the hypotheses of InformationReadsAnswer, for further clauses. -/
theorem test_meets_InformationReadsAnswer_7 :
    (∃ (s : State) (ch : Fin 17) (c : Cmd) (tag i n : Nat) (x : Round), takes s ch 0x0307 c ∧ c.sealed ∧ tag < 2 ^ 11 ∧ i < 2 ^ 21 ∧ 1 ≤ n
      ∧ n ≤ 4094 ∧ s.round? (chanPart ch) tag = some x ∧ c.payload = [w64 (3 * 2 ^ 16 + tag), w64 (n * 2 ^ 32 + i)]) ∧
    (∃ (s : State) (ch : Fin 17) (c : Cmd) (tag i n : Nat) (x : Round) (all : List Secret), takes s ch 0x0305 c ∧ s.ranDry ch 0x0305 c ∧
      tag < 2 ^ 11 ∧ i < 2 ^ 32 ∧ 1 ≤ n ∧ n ≤ 4093 ∧ c.payload = [w64 (1 * 2 ^ 16 + tag), w64 (n * 2 ^ 32 + i)] ∧ s.round? (chanPart ch) tag
      = some x ∧ x.ranges.any ClosedRange.final ∧ all = ((s.dryTurn ch 0x0305 c).own ch).missing x) :=
  ⟨⟨inRound, 1, vf0 [w64 (3 * 2 ^ 16 + 2047), w64 (2 ^ 32)], 2047, 0, 1, roundA, by decide +kernel⟩,
    ⟨closedRound, 1, vf0 [w64 (1 * 2 ^ 16 + 2047), w64 (4093 * 2 ^ 32)], 2047, 0, 4093, roundB, (closedRound.parts[(0 : Fin 16)]).missing
      roundB, by decide +kernel⟩⟩

/-- States and operands that meet the hypotheses of CalendarCountersAndBudgets, one for each of its clauses. -/
theorem test_meets_CalendarCountersAndBudgets :
    (∃ (s : State) (c : Cmd) (w : W64), takes s 0 0x0104 c ∧ c.payload = [w]) ∧
    (∃ (s : State), s.boot.phase ≠ .off) :=
  ⟨⟨up, pf [5], 5, by decide +kernel⟩,
    ⟨up, by decide +kernel⟩⟩

/-- States and operands that meet the hypotheses of CalendarCountersAndBudgets, for further clauses. -/
theorem test_meets_CalendarCountersAndBudgets_2 :
    (∃ (s : State) (c : Cmd) (v : Nat), takes s 0 0x0701 c ∧ c.payload = [w64 v] ∧ 250 ≤ v ∧ v ≤ 1500 ∧ 180 + 5 * s.unitsHeld ≤ v) ∧
    (∃ (s : State) (c : Cmd) (p : Fin 16) (v : Nat), takes s 0 0x0701 c ∧ c.payload = [w64 (p.val * 2 ^ 32 + 1 * 2 ^ 16 + v)] ∧ 1 ≤ v ∧ v ≤
      264 ∧ s.parts[p].st = .active ∧ s.unitsHeld - s.parts[p].acct.units + v ≤ s.poolUnits) :=
  ⟨⟨up, pf [1500], 1500, by decide +kernel⟩,
    ⟨up, pf [w64 (1 * 2 ^ 16 + 264)], 0, 264, by decide +kernel⟩⟩

/-- States and operands that meet the hypotheses of CalendarCountersAndBudgets, for further clauses. -/
theorem test_meets_CalendarCountersAndBudgets_3 :
    (∃ (s : State) (ch : Fin 17) (c : Cmd) (v : Nat), vfTakes s ch 0x0701 c ∧ c.payload = [w64 (2 * 2 ^ 16 + v)] ∧ v ≤ 3) ∧
    (∃ (s : State) (r : Req) (v : Nat), s.powered ∧ s.pf.held = some ⟨r, .budgetModule v⟩) :=
  ⟨⟨up, 1, vf0 [w64 (2 * 2 ^ 16 + 3)], 3, by decide +kernel⟩,
    ⟨holding up 0 0x0701 [] (.budgetModule 300), reqA 0x0701 [], 300, by decide +kernel⟩⟩

/-- States and operands that meet the hypotheses of CalendarCountersAndBudgets, for further clauses. -/
theorem test_meets_CalendarCountersAndBudgets_4 :
    (∃ (s : State) (r : Req) (p : Fin 16) (v : Nat), s.powered ∧ s.pf.held = some ⟨r, .budgetShare p.val v⟩ ∧ s.parts[p].st = .active) ∧
    (∃ (s : State) (p : Fin 16) (a : Account), (s.powered ∧ s.parts[p].st = .active ∧ s.pf.held = none) ∧ a = s.parts[p].acct) :=
  ⟨⟨holding up 0 0x0701 [] (.budgetShare 0 9), reqA 0x0701 [], 0, 9, by decide +kernel⟩,
    ⟨running runA, 0, _, by decide +kernel, rfl⟩⟩

/-- States and operands that meet the hypotheses of CommandWordsAssembleOrAreLost, one for each of its clauses. -/
theorem test_meets_CommandWordsAssembleOrAreLost :
    (∃ (s : State) (ch : Fin 17) (w : W64) (ws : List W64), State.reachable s ch ∧ s.chans[ch].cmdLost = false ∧ 0 < s.credits ch ∧ ws =
      s.chans[ch].partialCmd ++ [w] ∧ bits (ws.headD 0) 47 32 ≤ 8190) ∧
    (∃ (s : State) (ch : Fin 17) (width : Nat) (w : W64), State.reachable s ch ∧ (width ≠ 8 ∨ s.chans[ch].cmdLost ∨ s.credits ch = 0 ∨ 8190
      < bits ((s.chans[ch].partialCmd ++ [w]).headD 0) 47 32)) :=
  ⟨⟨up, 1, w64 (8190 * 2 ^ 32), [w64 (8190 * 2 ^ 32)], by decide +kernel⟩,
    ⟨up, 1, 4, 0, by decide +kernel⟩⟩

/-- States and operands that meet the hypotheses of CommandWordsAssembleOrAreLost, for further clauses. -/
theorem test_meets_CommandWordsAssembleOrAreLost_2 :
    ∃ (s : State) (ch : Fin 17), State.reachable s ch :=
  ⟨up, 16, by decide +kernel⟩

/-- States and operands that meet the hypotheses of DataAndStatusReads, one for each of its clauses. -/
theorem test_meets_DataAndStatusReads :
    (∃ (s : State) (ch : Fin 17) (w : W64) (ws : List W64) (rest : List (List W64)), State.reachable s ch ∧ s.chans[ch].replies = (w :: ws)
      :: rest) ∧
    (∃ (s : State) (ch : Fin 17), State.reachable s ch ∧ s.chans[ch].replies = []) :=
  ⟨⟨up.modChan 1 (fun c => { c with replies := [[1, 2]] }), 1, 1, [2], [], by decide +kernel⟩,
    ⟨up, 1, by decide +kernel⟩⟩

/-- States and operands that meet the hypotheses of DataAndStatusReads, for further clauses. -/
theorem test_meets_DataAndStatusReads_2 :
    (∃ (s : State) (ch : Fin 17) (w : W64) (ws : List W64) (rest : List (List W64)), State.reachable s ch ∧ s.chans[ch].events = (w :: ws)
      :: rest) ∧
    (∃ (s : State) (ch : Fin 17), State.reachable s ch ∧ s.chans[ch].events = []) :=
  ⟨⟨up.modChan 1 (fun c => { c with events := [[1]] }), 1, 1, [], [], by decide +kernel⟩,
    ⟨up, 1, by decide +kernel⟩⟩

/-- States and operands that meet the hypotheses of DataAndStatusReads, for further clauses. -/
theorem test_meets_DataAndStatusReads_3 :
    ∃ (s : State) (ch : Fin 17), State.reachable s ch :=
  ⟨up, 1, by decide +kernel⟩

/-- States and operands that meet the hypotheses of RegisterWritesAct, one for each of its clauses. -/
theorem test_meets_RegisterWritesAct :
    (∃ (s : State) (ch : Fin 17), State.reachable s ch) ∧
    (∃ (s : State) (ch : Fin 17), State.reachable s ch ∧ s.chans[ch].irqCause < 32) :=
  ⟨⟨up, 1, by decide +kernel⟩,
    ⟨up, 1, by decide +kernel⟩⟩

/-- States and operands that meet the hypotheses of RegisterWritesAct, for further clauses. -/
theorem test_meets_RegisterWritesAct_2 :
    (∃ (s : State) (ch : Fin 17), State.reachable s ch) ∧
    (∃ (s : State) (n : Nat), s.reachable 0 ∧ n ≤ 16) :=
  ⟨⟨up, 1, by decide +kernel⟩,
    ⟨up, 16, by decide +kernel⟩⟩

/-- States and operands that meet the hypotheses of RegisterWritesAct, for further clauses. -/
theorem test_meets_RegisterWritesAct_3 :
    (∃ (s : State) (n : Nat), s.reachable 0 ∧ 16 < n) ∧
    (∃ (s : State) (ch : Fin 17) (i : Nat) (w : W64) (e : MsixEntry) (P : Nat → Nat → MsixEntry → Prop), (State.reachable s ch ∧ i < 5 ∧
      s.chans[ch].msix[i]? = some e) ∧ P = (fun o n e' => Runs (.registerWrite ch .bar0 (0x8000 + 16 * i + o) n w) s fun t =>
      t.chans[ch].msix = setAt s.chans[ch].msix i e' ∧ t = { s with chans := t.chans, out := t.out } ∧ (∀ j, j ≠ ch → t.chans[j] =
      s.chans[j]) ∧ t.chans[ch].irqCause = s.chans[ch].irqCause ∧ t.chans[ch].replies = s.chans[ch].replies)) :=
  ⟨⟨up, 17, by decide +kernel⟩,
    ⟨up, 1, 4, 5, ⟨0, 0, true⟩, _, by decide +kernel, rfl⟩⟩

/-- States and operands that meet the hypotheses of RegisterWritesAct, for further clauses. -/
theorem test_meets_RegisterWritesAct_4 :
    (∃ (s : State) (ch : Fin 17), State.reachable s ch) ∧
    (∃ (s : State) (ch : Fin 17) (w : W64), State.reachable s ch ∧ bitAt w 6) :=
  ⟨⟨up, 1, by decide +kernel⟩,
    ⟨up, 1, 64, by decide +kernel⟩⟩

/-- States and operands that meet the hypotheses of RegisterWritesAct, for further clauses. -/
theorem test_meets_RegisterWritesAct_5 :
    (∃ (s : State) (ch : Fin 17) (w : W64), State.reachable s ch ∧ bitAt w 6 = false) ∧
    (∃ (s : State) (ch : Fin 17) (off : Nat), State.reachable s ch ∧ off < 0x8000 ∧ off ≠ 0x08 ∧ off / 8 ≠ 3 ∧ off ≠ 0x40 ∧ off ≠ 0x48) :=
  ⟨⟨up, 1, 3, by decide +kernel⟩,
    ⟨up, 1, 0x7fff, by decide +kernel⟩⟩

/-- States and operands that meet the hypotheses of RegisterWritesAct, for further clauses. -/
theorem test_meets_RegisterWritesAct_6 :
    (∃ (s : State) (ch : Fin 17) (width off : Nat), State.reachable s ch ∧ ¬(ch = 0 ∧ off = 0x80000 ∧ width = 8)) ∧
    (∃ (s : State) (ch : Fin 17), State.reachable s ch ∧ ch = 0) :=
  ⟨⟨up, 1, 8, 0x7fff, by decide +kernel⟩,
    ⟨up, 0, by decide +kernel⟩⟩

/-- States and operands that meet the hypotheses of RegisterWritesAct, for further clauses. -/
theorem test_meets_RegisterWritesAct_7 :
    (∃ (s : State) (ch : Fin 17) (off n : Nat), State.reachable s ch ∧ off / 8 = 3 ∧ ¬(off = 0x18 ∧ n = 8)) ∧
    (∃ (s : State) (ch : Fin 17) (off n : Nat), State.reachable s ch ∧ off < 0x8000 ∧ off / 8 ≠ 3 ∧ n ≠ 8) :=
  ⟨⟨up, 1, 0x1C, 8, by decide +kernel⟩,
    ⟨up, 1, 0x40, 4, by decide +kernel⟩⟩

/-- States and operands that meet the hypotheses of PartitionsLiveAndEnd, one for each of its clauses. -/
theorem test_meets_PartitionsLiveAndEnd :
    (∃ (s : State) (ch : Fin 17) (c : Cmd) (k : Nat), vfTakes s ch 0x0203 c ∧ c.sealed ∧ c.payload = [w64 (k * 2 ^ 48 + 1 * 2 ^ 16 +
      (chanPart ch).val)] ∧ k ≤ 24 ∧ s.roundsOpen (chanPart ch) = 0 ∧ (k = 0 → s.netHolds (chanPart ch) = false ∧ s.boundByTandem (chanPart
      ch) = false)) ∧
    (∃ (s : State) (c : Cmd) (b : Fin 18) (p : Fin 16), takes s 0 0x0201 c ∧ checkCreatePartition s c.payload = none ∧ s.freeBank = some b
      ∧ s.entropy 0 = .ready ∧ s.banks[b].entropy = .ready ∧ p = pid (payloadBits c 0 3 0)) :=
  ⟨⟨up, 1, vf0 [w64 (24 * 2 ^ 48 + 1 * 2 ^ 16)], 24, by decide +kernel⟩,
    ⟨{ bare with banks := bare.banks.set 0 { bankA with role := .unallocated } }, pf ([w64 (24 * 2 ^ 48 + 2 ^ 32 + 2 ^ 16 + 15), w64 (2 ^
      32 + 8 * 2 ^ 16), w64 (2 ^ 32 + 1)] ++ basePoint), 0, 15, by decide +kernel⟩⟩

/-- States and operands that meet the hypotheses of PartitionsLiveAndEnd, for further clauses. -/
theorem test_meets_PartitionsLiveAndEnd_2 :
    (∃ (s : State) (p : Fin 16) (b : Fin 18) (r : Req), s.parts[p].st = .creating ∧ s.bankOf p = some b ∧ 6 * s.parts[p].stacks ≤
      s.banks[b].own ∧ s.pf.held = some ⟨r, .creation p.val⟩) ∧
    (∃ (s : State) (ch : Fin 17) (c : Cmd) (p : Fin 16), takes s ch 0x0202 c ∧ c.payload = [w64 p.val] ∧ (ch = 0 ∨ p = chanPart ch) ∧
      s.parts[p].st = .active) :=
  ⟨⟨holding (up.modPart 0 (fun q => { q with st := .creating })) 0 0x0201 [] (.creation 0), 0, 0, reqA 0x0201 [], by decide +kernel⟩,
    ⟨up, 1, vf0 [0], 0, by decide +kernel⟩⟩

/-- States and operands that meet the hypotheses of PartitionsLiveAndEnd, for further clauses. -/
theorem test_meets_PartitionsLiveAndEnd_3 :
    (∃ (s : State) (p : Fin 16), s.parts[p].st = .destroying ∧ (∀ h ∈ s.pf.held, h.why ≠ .zeroise)) ∧
    (∃ (s : State) (p : Fin 16) (r : Req), s.parts[p].st = .destroying ∧ (∀ q, q ≠ p → s.parts[q].st = .absent) ∧ s.pf.held = some ⟨r,
      .zeroise⟩) :=
  ⟨⟨up.modPart 0 (fun q => { q with st := .destroying }), 0, by decide +kernel, fun h e => nomatch (show none = some h from e)⟩,
    ⟨holding (bare.modPart 0 (fun _ => { partA with st := .destroying })) 0 0x0405 [] .zeroise, 0, reqA 0x0405 [], by decide +kernel⟩⟩

/-- States and operands that meet the hypotheses of TenantKeysLiveAndEnd, one for each of its clauses. -/
theorem test_meets_TenantKeysLiveAndEnd :
    (∃ (s : State) (ch : Fin 17) (c : Cmd) (w : W64) (loc : Nat), takes s ch 0x0401 c ∧ c.payload = [w] ∧ checkKeyGenerate s ch w = none ∧
      s.chosenSlot (chanPart ch) (bits w 47 32) = some loc ∧ s.entropy ch = .ready) ∧
    (∃ (s : State) (ch : Fin 17) (c : Cmd) (loc : Nat) (k : KeySlot), vfTakes s ch 0x0404 c ∧ c.payload = [w64 loc] ∧ 16 ≤ loc ∧ loc ≤ 239
      ∧ s.keySlot (partSlot (chanPart ch) loc) = some k ∧ s.slotInUse (chanPart ch) loc = false) :=
  ⟨⟨up, 1, vf0 [w64 (4 * 2 ^ 48 + 239 * 2 ^ 32)], w64 (4 * 2 ^ 48 + 239 * 2 ^ 32), 239, by decide +kernel⟩,
    ⟨up, 1, vf0 [16], 16, keyOf 4, by decide +kernel⟩⟩

/-- States and operands that meet the hypotheses of TenantKeysLiveAndEnd, for further clauses. -/
theorem test_meets_TenantKeysLiveAndEnd_2 :
    (∃ (s : State) (ch : Fin 17) (c : Cmd) (slot per : Nat) (k : KeySlot) (at' : Nat), takes s ch 0x0407 c ∧ c.payload = [w64 (per * 2 ^ 16
      + slot)] ∧ per ≤ 2 ∧ (if ch = 0 then slot ≤ 255 else slot ≤ 239) ∧ (ch = 0 → slot ≤ 1 → per ≠ 0) ∧ at' = (if ch = 0 then slot else
      partSlot (chanPart ch) slot) ∧ s.keySlot at' = some k ∧ (per = 1 → k.period = 1 ∨ s.fastSlots < 256)) ∧
    (∃ (s : State) (slot u : Nat) (k : KeySlot) (x : State), (s.keySlot slot = some k ∧ remaskUnits k.period = some u) ∧ x = (s.advance
      k.remaskAt).inHousekeeping) :=
  ⟨⟨up, 1, vf0 [w64 (1 * 2 ^ 16 + 1)], 1, 1, keyOf 8, 257, by decide +kernel⟩,
    ⟨up, 272, 24000000000, keyOf 4, _, by decide +kernel, rfl⟩⟩

/-- States and operands that meet the hypotheses of StatementsAndSessions, one for each of its clauses. -/
theorem test_meets_StatementsAndSessions :
    (∃ (s : State) (ch : Fin 17) (c : Cmd) (slot : Nat) (k : KeySlot) (n : List W64) (m : List Byte), (takes s ch 0x0402 c ∧ (ch = 0 ∨
      c.sealed) ∧ n.length = 4 ∧ c.payload = w64 slot :: 0 :: n ∧ (if ch = 0 then slot ≤ 1 else 16 ≤ slot ∧ slot ≤ 239) ∧ s.keySlot (if ch =
      0 then slot else partSlot (chanPart ch) slot) = some k) ∧ m = statement 1 (s.statementFlags ch) (if ch = 0 then 0xFFFF else ch.val -
      1) slot k.kind k.policy k.serial s.nvm.life.seconds k.created (wordsToBytes n) (publicPart k.kind k.key)) ∧
    (∃ (s : State) (ch : Fin 17) (c : Cmd) (first max : Nat) (n : List W64) (rs : List (List Byte)) (m : List Byte), (vfTakes s ch 0x0402 c
      ∧ c.sealed ∧ n.length = 4 ∧ c.payload = w64 (1 * 2 ^ 16) :: w64 (max * 2 ^ 32 + first) :: n ∧ 1 ≤ max ∧ max ≤ 1000 ∧ first < 2 ^ 32 ∧
      first ≤ (s.own ch).log.count) ∧ rs = (s.own ch).log.select first max ∧ m = statement 2 (s.statementFlags ch) (ch.val - 1) 0 0 0 (s.own
      ch).log.count s.nvm.life.seconds 0 (wordsToBytes n) (s.own ch).log.digest) :=
  ⟨⟨up, (1 : Fin 17), vf0 [16, 0, 1, 2, 3, 4], 16, keyOf 4, [1, 2, 3, 4], _, by decide +kernel, rfl⟩,
    ⟨up, (1 : Fin 17), vf0 [w64 (1 * 2 ^ 16), w64 (1000 * 2 ^ 32), 1, 2, 3, 4], 0, 1000, [1, 2, 3, 4], _, _, by decide +kernel, rfl, rfl⟩⟩

/-- States and operands that meet the hypotheses of StatementsAndSessions, for further clauses. -/
theorem test_meets_StatementsAndSessions_2 :
    ∃ (s : State) (ch : Fin 17) (c : Cmd) (ok : Bool), (takes s ch 0x0204 c ∧ s.chans[ch].asyncs = [] ∧ nonZero (word c.payload 0) 63 32 =
    false ∧ (readPoint (wordsToBytes ((c.payload.drop 1).take 12))).isSome ∧ payloadBits c 0 31 0 = (s.sessionIds ch).2.2 ∧ (ch ≠ 0 →
    s.roundsOpen (chanPart ch) = 0 ∧ s.ticketsBusy (chanPart ch) = false) ∧ s.entropy ch = .ready) ∧ ok = ecdsaVerify (s.ownerKey ch)
    (s.sessionMessage ch c.payload) (wordsToBytes ((c.payload.drop 17).take 12)) :=
  ⟨up, 0, clear (0 :: (basePoint ++ List.replicate 16 0)), _, by decide +kernel, rfl⟩

/-- States and operands that meet the hypotheses of KeysRotate, one for each of its clauses. -/
theorem test_meets_KeysRotate :
    (∃ (s : State) (ch : Fin 17) (c : Cmd), vfTakes s ch 0x0403 c ∧ c.payload = [0] ∧ s.rotating (chanPart ch) = false ∧ s.entropy ch =
      .ready) ∧
    (∃ (s : State) (p : Fin 16) (r : Req), s.chans[vf p].held = some ⟨r, .epochFlip p.val⟩) :=
  ⟨⟨up, 1, vf0 [0], by decide +kernel⟩,
    ⟨holding up 1 0x0403 [] (.epochFlip 0), 0, reqA 0x0403 [], by decide +kernel⟩⟩

/-- States and operands that meet the hypotheses of KeysRotate, for further clauses. -/
theorem test_meets_KeysRotate_2 :
    (∃ (s : State) (p : Fin 16) (rank : Nat) (sw : Sweep), s.parts[p].mem.sweep = some sw ∧ rank < s.parts[p].stacks ∧ s.stackCool
      s.parts[p] rank = false ∧ s.parts[p].foldIdle rank = false) ∧
    (∃ (s : State) (p : Fin 16) (rank : Nat) (sw : Sweep), s.parts[p].mem.sweep = some sw ∧ rank < s.parts[p].stacks ∧ (s.stackCool
      s.parts[p] rank ∨ s.parts[p].foldIdle rank)) :=
  ⟨⟨{ (up.modPart 0 (fun q => { q with foldK := 1, mem := { q.mem with sweep := some ⟨0, 0⟩ }, rnd := { q.rnd with foldQ := [.place 3 0 0 [1] false 0 true] } })) with power := { up.power with stack := List.replicate 36 370 } },
      0, 0, ⟨0, 0⟩, by decide +kernel⟩,
    ⟨up.modPart 0 (fun q => { q with mem := { q.mem with sweep := some ⟨0, 0⟩ } }), 0, 1, ⟨0, 0⟩, by decide +kernel⟩⟩

/-- States and operands that meet the hypotheses of KeysRotate, for further clauses. -/
theorem test_meets_KeysRotate_3 :
    (∃ (s : State) (p : Fin 16) (sw : Sweep), s.parts[p].mem.sweep = some sw ∧ (∀ r, r < s.parts[p].stacks → s.parts[p].mem.oldPage r 0 =
      none)) ∧
    (∃ (s : State) (ch : Fin 17) (c : Cmd) (loc : Nat) (k : KeySlot), vfTakes s ch 0x0403 c ∧ c.payload = [w64 (loc * 2 ^ 32 + 1)] ∧ 16 ≤
      loc ∧ loc ≤ 239 ∧ s.keySlot (partSlot (chanPart ch) loc) = some k ∧ s.slotInUse (chanPart ch) loc = false ∧ s.entropy ch = .ready) :=
  ⟨⟨up.modPart 0 (fun q => { q with mem := ⟨true, List.replicate 2 [(0, 2 ^ 22)], some ⟨0, 0⟩, 0⟩ }), 0, ⟨0, 0⟩, by decide +kernel⟩,
    ⟨up, 1, vf0 [w64 (16 * 2 ^ 32 + 1)], 16, keyOf 4, by decide +kernel⟩⟩

/-- States and operands that meet the hypotheses of KeysRotate, for further clauses. -/
theorem test_meets_KeysRotate_4 :
    (∃ (s : State) (c : Cmd) (l : Fin 24), takes s 0 0x0403 c ∧ c.payload = [w64 (l.val * 2 ^ 32 + 2)] ∧ s.entropy 0 = .ready) ∧
    (∃ (s : State) (c : Cmd) (l : Fin 24), takes s 0 0x0403 c ∧ c.payload = [w64 (l.val * 2 ^ 32 + 3)] ∧ s.entropy 0 = .ready) :=
  ⟨⟨up, pf [w64 (23 * 2 ^ 32 + 2)], 23, by decide +kernel⟩,
    ⟨up, pf [w64 (23 * 2 ^ 32 + 3)], 23, by decide +kernel⟩⟩

/-- States and operands that meet the hypotheses of ZeroiseWeightsAndDebug, one for each of its clauses. -/
theorem test_meets_ZeroiseWeightsAndDebug :
    (∃ (s : State) (c : Cmd), takes s 0 0x0404 c ∧ c.payload = [w64 (1 * 2 ^ 16)] ∧ s.noPartition) ∧
    (∃ (s : State) (c : Cmd) (p : Fin 16), takes s 0 0x0404 c ∧ c.payload = [w64 (1 * 2 ^ 16)] ∧ s.parts[p].st = .active) :=
  ⟨⟨bare, pf [w64 (1 * 2 ^ 16)], by decide +kernel⟩,
    ⟨up, pf [w64 (1 * 2 ^ 16)], 0, by decide +kernel⟩⟩

/-- States and operands that meet the hypotheses of ZeroiseWeightsAndDebug, for further clauses. -/
theorem test_meets_ZeroiseWeightsAndDebug_2 :
    (∃ (s : State) (ch : Fin 17) (c : Cmd) (b : Machine.Bind) (u : State) (x : List W64 × State), (vfTakes s ch 0x0405 c ∧ s.ranDry ch
      0x0405 c ∧ s.entropy ch = .ready) ∧ b = readBind c.payload ∧ u = s.dryTurn ch 0x0405 c ∧ x = (u.partReseed (chanPart ch)).bindWeights
      (chanPart ch) b) ∧
    (∃ (s : State) (ch : Fin 17) (c : Cmd) (u : State) (x : Status × List W64 × State), (vfTakes s ch 0x0406 c ∧ s.ranDry ch 0x0406 c) ∧ u
      = s.dryTurn ch 0x0406 c ∧ x = u.unwrapWeights (chanPart ch) c.payload) :=
  ⟨⟨up, 1, vf0 [0, 0, 0, 0, 0], _, _, _, by decide +kernel, rfl, rfl, rfl⟩,
    ⟨up, 1, vf0 [0, 0, 0, 0], _, _, by decide +kernel, rfl, rfl⟩⟩

/-- States and operands that meet the hypotheses of ZeroiseWeightsAndDebug, for further clauses. -/
theorem test_meets_ZeroiseWeightsAndDebug_3 :
    (∃ (s : State) (c : Cmd) (n : List Byte), (takes s 0 0x0A03 c ∧ c.payload = [0] ∧ s.noPartition) ∧ n = (s.deviceDraw 32).1) ∧
    (∃ (s : State) (c : Cmd) (rest : List W64) (n : List Byte) (at' : Nat), takes s 0 0x0A03 c ∧ c.payload = w64 (1 * 2 ^ 16) :: rest ∧
      rest.length = 24 ∧ s.noPartition ∧ s.debugAccess.nonce = some (n, at') ∧ (s.inTurn 0 0x0A03).clock ≤ at' + 60 * sec) :=
  ⟨⟨bare, pf [0], _, by decide +kernel, rfl⟩,
    ⟨{ bare with debugAccess := { bare.debugAccess with nonce := some ([1], 0) } }, pf (w64 (1 * 2 ^ 16) :: List.replicate 24 0),
      List.replicate 24 0, [1], 0, by decide +kernel⟩⟩

/-- States and operands that meet the hypotheses of ZeroiseWeightsAndDebug, for further clauses. -/
theorem test_meets_ZeroiseWeightsAndDebug_4 :
    (∃ (s : State) (ch : Fin 17) (c : Cmd), vfTakes s ch 0x0A03 c ∧ c.sealed ∧ c.payload = [w64 (2 * 2 ^ 16)]) ∧
    (∃ (s : State) (ch : Fin 17) (c : Cmd), vfTakes s ch 0x0A03 c ∧ c.sealed ∧ c.payload = [w64 (3 * 2 ^ 16)]) :=
  ⟨⟨up, 1, vf0 [w64 (2 * 2 ^ 16)], by decide +kernel⟩,
    ⟨up, 1, vf0 [w64 (3 * 2 ^ 16)], by decide +kernel⟩⟩

/-- States and operands that meet the hypotheses of ZeroiseWeightsAndDebug, for further clauses. -/
theorem test_meets_ZeroiseWeightsAndDebug_5 :
    ∃ (s : State) (n : List Byte) (at' : Nat), s.debugAccess.nonce = some (n, at') :=
  ⟨{ bare with debugAccess := { bare.debugAccess with nonce := some ([1], 0) } }, [1], 0, by decide +kernel⟩

/-- States and operands that meet the hypotheses of PortsAndEgressAreConfigured, one for each of its clauses. -/
theorem test_meets_PortsAndEgressAreConfigured :
    (∃ (s : State) (c : Cmd) (l : Fin 24) (w : List W64), (takes s 0 0x0601 c ∧ c.sealed ∧ bits (word w 0) 17 16 = 0 ∧ bits (word w 0) 4 0
      = l.val ∧ checkSetLink s 0 (s.req 0 0x0601 c) = none) ∧ c.payload = w) ∧
    (∃ (s : State) (c : Cmd) (l : Fin 24) (k : List W64), takes s 0 0x0601 c ∧ c.sealed ∧ c.payload = w64 (1 * 2 ^ 16 + l.val) :: k ∧
      k.length = 6) :=
  ⟨⟨up, pf [w64 (1 * 2 ^ 20 + 23), 0, 0, 0, 0, 0], 23, _, by decide +kernel, rfl⟩,
    ⟨up, pf (w64 (1 * 2 ^ 16 + 23) :: [1, 2, 3, 4, 5, 6]), 23, [1, 2, 3, 4, 5, 6], by decide +kernel⟩⟩

/-- States and operands that meet the hypotheses of PortsAndEgressAreConfigured, for further clauses. -/
theorem test_meets_PortsAndEgressAreConfigured_2 :
    (∃ (s : State) (ch : Fin 17) (c : Cmd) (p1 p2 : W64), vfTakes s ch 0x0601 c ∧ c.sealed ∧ c.payload = [w64 (3 * 2 ^ 16), p1, p2] ∧
      nonZero p2 25 0 = false ∧ (readCc c.payload).ok) ∧
    (∃ (s : State) (ch : Fin 17) (c : Cmd) (i kind : Nat) (v6 : Bool) (a0 a1 : W64) (pub : List W64), vfTakes s ch 0x0205 c ∧ i < 64 ∧
      c.payload = w64 (b2n v6 * 2 ^ 32 + kind * 2 ^ 24 + i) :: a0 :: a1 :: pub ∧ kind < 3 ∧ (v6 = false → a0.toNat < 2 ^ 32 ∧ a1 = 0) ∧
      (AllowEntry.mk v6 kind a0 a1 (wordsToBytes pub)).pubOk) :=
  ⟨⟨up, 1, vf0 [w64 (3 * 2 ^ 16), w64 (2 ^ 48 + 2 ^ 32 + 2 ^ 16 + 1), w64 (2 ^ 54 + 2 ^ 44 + 2 ^ 34 + 2 ^ 30 + 2 ^ 26)], w64 (2 ^ 48 + 2
      ^ 32 + 2 ^ 16 + 1), w64 (2 ^ 54 + 2 ^ 44 + 2 ^ 34 + 2 ^ 30 + 2 ^ 26), by decide +kernel⟩,
    ⟨up, 1, vf0 (w64 (1 * 2 ^ 32 + 63) :: 1 :: 2 :: List.replicate 12 0), 63, 0, true, 1, 2, List.replicate 12 0, by decide +kernel⟩⟩

/-- States and operands that meet the hypotheses of PortsAndEgressAreConfigured, for further clauses. -/
theorem test_meets_PortsAndEgressAreConfigured_3 :
    ∃ (s : State) (ch : Fin 17) (c : Cmd) (i : Nat) (rest : List W64), vfTakes s ch 0x0205 c ∧ i < 64 ∧ c.payload = w64 (1 * 2 ^ 16 + i) ::
    rest ∧ rest.all (· == 0) ∧ Table.has (s.own ch).net.allow i :=
  ⟨net (fun n => { n with allow := [(63, ⟨false, 0, 1, 0, []⟩)] }), 1, vf0 (w64 (1 * 2 ^ 16 + 63) :: List.replicate 14 0), 63,
    List.replicate 14 0, by decide +kernel⟩

/-- States and operands that meet the hypotheses of QueuePairsLiveAndEnd, one for each of its clauses. -/
theorem test_meets_QueuePairsLiveAndEnd :
    (∃ (s : State) (ch : Fin 17) (c : Cmd) (addr : Nat), vfTakes s ch 0x0602 c ∧ c.payload = [0, w64 addr] ∧ addr < 2 ^ 39 ∧ checkStore
      (s.own ch) c.payload = none) ∧
    (∃ (s : State) (ch : Fin 17) (c : Cmd) (i : Nat), vfTakes s ch 0x0602 c ∧ payloadBits c 0 17 16 = 1 ∧ checkCreateQp (s.own ch)
      c.payload = none ∧ (s.own ch).freeQp = some i) :=
  ⟨⟨up, 1, vf0 [0, w64 0], 0, by decide +kernel⟩,
    ⟨net (fun n => { n with store := some 0 }), 1, vf0 [w64 (2 ^ 61 + 2 ^ 50 + 2 ^ 16), 0, 0, 0, 0], 0, by decide +kernel⟩⟩

/-- States and operands that meet the hypotheses of QueuePairsLiveAndEnd, for further clauses. -/
theorem test_meets_QueuePairsLiveAndEnd_2 :
    (∃ (s : State) (ch : Fin 17) (c : Cmd) (i n rx tx : Nat) (q : Qp) (m : QpState), vfTakes s ch 0x0603 c ∧ i < 2 ^ 18 ∧ rx < 2 ^ 24 ∧ tx
      < 2 ^ 24 ∧ n < 8 ∧ (m ≠ .init → rx = 0 ∧ tx = 0) ∧ c.payload = [w64 (i * 2 ^ 40 + n), w64 rx, w64 tx] ∧ readQpState n = some m ∧ s.qp?
      (chanPart ch) i = some q ∧ qpMove q.st m ∧ m ≠ .error) ∧
    (∃ (s : State) (ch : Fin 17) (c : Cmd) (i n rx tx : Nat) (q : Qp) (m : QpState), vfTakes s ch 0x0603 c ∧ i < 2 ^ 18 ∧ rx < 2 ^ 24 ∧ tx
      < 2 ^ 24 ∧ n < 8 ∧ (m ≠ .init → rx = 0 ∧ tx = 0) ∧ c.payload = [w64 (i * 2 ^ 40 + n), w64 rx, w64 tx] ∧ readQpState n = some m ∧ s.qp?
      (chanPart ch) i = some q ∧ m = .error) :=
  ⟨⟨withQp { qpA with st := .error }, 1, vf0 [w64 1, w64 (2 ^ 24 - 1), w64 0], 0, 1, 2 ^ 24 - 1, 0, { qpA with st := .error }, .init,
      by decide +kernel⟩,
    ⟨withQp qpA, 1, vf0 [w64 4, w64 0, w64 0], 0, 4, 0, 0, qpA, .error, by decide +kernel⟩⟩

/-- States and operands that meet the hypotheses of QueuePairsLiveAndEnd, for further clauses. -/
theorem test_meets_QueuePairsLiveAndEnd_3 :
    (∃ (s : State) (ch : Fin 17) (c : Cmd) (i n rx tx : Nat) (q : Qp) (m : QpState), vfTakes s ch 0x0603 c ∧ i < 2 ^ 18 ∧ rx < 2 ^ 24 ∧ tx
      < 2 ^ 24 ∧ n < 8 ∧ (m ≠ .init → rx = 0 ∧ tx = 0) ∧ c.payload = [w64 (i * 2 ^ 40 + n), w64 rx, w64 tx] ∧ readQpState n = some m ∧ s.qp?
      (chanPart ch) i = some q ∧ qpMove q.st m = false) ∧
    (∃ (s : State) (ch : Fin 17) (c : Cmd) (i : Nat) (e : List W64), vfTakes s ch 0x0603 c ∧ i < 2 ^ 18 ∧ c.payload = w64 (i * 2 ^ 40 + 1 *
      2 ^ 16) :: e ∧ e.length = 6 ∧ egressMalformed s (chanPart ch) (some i) e = false ∧ (s.own ch).egressLoad i < 16 ∧ checkEgress s
      (chanPart ch) none (some i) e = none) :=
  ⟨⟨withQp qpA, 1, vf0 [w64 3, w64 0, w64 0], 0, 3, 0, 0, qpA, .rts, by decide +kernel⟩,
    ⟨{ withQp qpA with pannier := [(256, keyOf 9), (272, keyAll)] }, 1, vf0 (w64 (1 * 2 ^ 16) :: [w64 16, 0, 0x100000, w64 64, 0, 0]), 0,
      [w64 16, 0, 0x100000, w64 64, 0, 0], by decide +kernel⟩⟩

/-- States and operands that meet the hypotheses of QueuePairsLiveAndEnd, for further clauses. -/
theorem test_meets_QueuePairsLiveAndEnd_4 :
    ∃ (s : State) (ch : Fin 17) (c : Cmd) (i : Nat) (q : Qp), vfTakes s ch 0x0604 c ∧ i < 2 ^ 18 ∧ c.payload = [w64 i] ∧ s.qp? (chanPart ch)
    i = some q :=
  ⟨withQp qpA, 1, vf0 [w64 0], 0, qpA, by decide +kernel⟩

/-- States and operands that meet the hypotheses of RegionsLiveAndEnd, one for each of its clauses. -/
theorem test_meets_RegionsLiveAndEnd :
    (∃ (s : State) (ch : Fin 17) (c : Cmd) (i : Nat), vfTakes s ch 0x0605 c ∧ checkRegister (s.own ch) c.payload = none ∧ (s.own
      ch).net.freeReg = some i) ∧
    (∃ (s : State) (ch : Fin 17) (c : Cmd) (k : Nat) (g : Region), vfTakes s ch 0x0606 c ∧ k < 2 ^ 32 ∧ c.payload = [w64 k] ∧ (s.own
      ch).net.region? k = some g ∧ g.revoking = none) :=
  ⟨⟨up, 1, vf0 [0, 0, 4096, 0], 0, by decide +kernel⟩,
    ⟨withRegion regionA qpA, 1, vf0 [w64 5], 5, regionA, by decide +kernel⟩⟩

/-- States and operands that meet the hypotheses of RegionsLiveAndEnd, for further clauses. -/
theorem test_meets_RegionsLiveAndEnd_2 :
    (∃ (s : State) (p : Fin 16) (i tag k : Nat) (g : Region) (v : Revoking), Table.get? s.parts[p].net.regs i = some ⟨tag, .region g⟩ ∧
      s.parts[p].net.rkey i = some k ∧ g.revoking = some v ∧ s.parts[p].net.msgUnderway i = false ∧ s.parts[p].rnd.placing i = false) ∧
    (∃ (s : State) (p : Fin 16) (i tag k : Nat) (g : Region) (v : Revoking), Table.get? s.parts[p].net.regs i = some ⟨tag, .region g⟩ ∧
      s.parts[p].net.rkey i = some k ∧ g.revoking = some v ∧ s.parts[p].net.msgUnderway i) :=
  ⟨⟨withRegion regionR qpA, 0, 0, 5, 5, regionR, ⟨0, 0, 0⟩, by decide +kernel⟩,
    ⟨withRegion regionR { qpA with msg := some ⟨5, 0, 8192, 4096, false, false⟩ }, 0, 0, 5, 5, regionR, ⟨0, 0, 0⟩, by decide +kernel⟩⟩

/-- States and operands that meet the hypotheses of RoundsOpenCloseAndEnd, one for each of its clauses. -/
theorem test_meets_RoundsOpenCloseAndEnd :
    (∃ (s : State) (ch : Fin 17) (c : Cmd) (u : State), (vfTakes s ch 0x0301 c ∧ openBad c.payload = false ∧ s.ranDry ch 0x0301 c ∧
      checkOpenSlots (u.own ch) c.payload = none ∧ checkOpenTable (u.own ch) c.payload = none) ∧ u = s.dryTurn ch 0x0301 c) ∧
    (∃ (s : State) (p : Fin 16) (tag : Nat) (x : Round) (u : State), (State.round? s p tag = some x ∧ x.opening ∧ x.ending = none) ∧ u =
      s.syncDram p) :=
  ⟨⟨(rnd (fun x => { x with windows := [(1, winA)] })).modPart 0 (fun q => { q with dram := graphA }), 1, vf0 ([w64 (1 * 2 ^ 20 + 2047),
      w64 (20 * 2 ^ 32), 4, w64 (2 ^ 32), 0, 0x10000, 0xFFFFFFFFFFFFFF01] ++ List.replicate 7 0xFFFFFFFFFFFFFFFF), _, by decide +kernel,
      rfl⟩,
    ⟨withRound { roundA with opening := true }, 0, 2047, { roundA with opening := true }, _, by decide +kernel, rfl⟩⟩

/-- States and operands that meet the hypotheses of RoundsOpenCloseAndEnd, for further clauses. -/
theorem test_meets_RoundsOpenCloseAndEnd_2 :
    (∃ (s : State) (ch : Fin 17) (c : Cmd) (x : Round) (idx : RangeSet), vfTakes s ch 0x0302 c ∧ checkCloseRound s (chanPart ch) c.payload
      = none ∧ s.round? (chanPart ch) (payloadBits c 0 10 0) = some x ∧ idx = x.closing (bitAt (word c.payload 0) 11) (payloadBits c 1 24 0)
      (payloadBits c 1 56 32)) ∧
    (∃ (s : State) (p : Fin 16) (tag i : Nat) (x : Round) (y : ClosedRange), s.round? p tag = some x ∧ x.range? i = some y ∧ x.ending =
      none ∧ y.posted = false ∧ s.parts[p].rnd.drained tag y.closeId) :=
  ⟨⟨inRound, 1, vf0 [w64 (2 ^ 11 + 2047), 0], roundA, (roundA.closing true 0 0), by decide +kernel⟩,
    ⟨withRound { roundA with ranges := [⟨0, 4, [(0, 4)], 0, false, 0, none, false, true, none, false⟩] }, 0, 2047, 0,
      { roundA with ranges := [⟨0, 4, [(0, 4)], 0, false, 0, none, false, true, none, false⟩] }, ⟨0, 4, [(0, 4)], 0, false, 0, none, false,
      true, none, false⟩, by decide +kernel⟩⟩

/-- States and operands that meet the hypotheses of RoundsOpenCloseAndEnd, for further clauses. -/
theorem test_meets_RoundsOpenCloseAndEnd_3 :
    (∃ (s : State) (p : Fin 16) (tag i : Nat) (x : Round) (y : ClosedRange), s.round? p tag = some x ∧ x.range? i = some y ∧ x.ending =
      none ∧ y.endId = none) ∧
    (∃ (s : State) (p : Fin 16) (tag i : Nat) (x : Round) (y : ClosedRange) (id least : Nat), s.round? p tag = some x ∧ x.range? i = some y
      ∧ x.ending = none ∧ y.posted ∧ y.final = false ∧ y.endId = some id ∧ s.parts[p].rnd.drained tag id ∧ least = (s.parts[p].leastOf x
      ((List.range x.chunks).filter (RangeSet.mem y.idx))).getD 0) :=
  ⟨⟨withRound { roundA with ranges := [⟨0, 4, [(0, 4)], 0, false, 0, none, false, true, none, false⟩] }, 0, 2047, 0,
      { roundA with ranges := [⟨0, 4, [(0, 4)], 0, false, 0, none, false, true, none, false⟩] }, ⟨0, 4, [(0, 4)], 0, false, 0, none, false,
      true, none, false⟩, by decide +kernel⟩,
    ⟨withRound roundOpen, 0, 2047, 0, roundOpen, rangeOpen, 0, ((withRound roundOpen).parts[0].leastOf roundOpen ((List.range
      roundOpen.chunks).filter (RangeSet.mem rangeOpen.idx))).getD 0, by decide +kernel⟩⟩

/-- States and operands that meet the hypotheses of RoundsOpenCloseAndEnd, for further clauses. -/
theorem test_meets_RoundsOpenCloseAndEnd_4 :
    (∃ (s : State) (ch : Fin 17) (c : Cmd) (tag n : Nat) (x : Round) (d : List W64), vfTakes s ch 0x0306 c ∧ tag < 2 ^ 11 ∧ n ≤ 8 ∧
      c.payload = w64 (n * 2 ^ 16 + tag) :: d ∧ d.length = 6 * n ∧ s.round? (chanPart ch) tag = some x ∧ x.state = 4 ∧ x.ending = none ∧
      checkDescriptors s (chanPart ch) tag [] (chop 6 n d) = none) ∧
    (∃ (s : State) (ch : Fin 17) (c : Cmd) (tag : Nat) (x : Round), vfTakes s ch 0x0308 c ∧ tag < 2 ^ 11 ∧ c.payload = [w64 tag] ∧ s.round?
      (chanPart ch) tag = some x) :=
  ⟨⟨withRound { roundB with recovery := some recA, ready := true }, 1, vf0 [w64 2047], 2047, 0,
      { roundB with recovery := some recA, ready := true }, [], by decide +kernel⟩,
    ⟨inRound, 1, vf0 [w64 2047], 2047, roundA, by decide +kernel⟩⟩

/-- States and operands that meet the hypotheses of RoundsOpenCloseAndEnd, for further clauses. -/
theorem test_meets_RoundsOpenCloseAndEnd_5 :
    ∃ (s : State) (p : Fin 16) (tag : Nat) (x : Round) (e : Ending) (u : State), (State.round? s p tag = some x ∧ x.ending = some e ∧
    s.parts[p].rnd.inFlight.any (fun k => k.tag == tag) = false ∧ s.parts[p].recovering tag = false) ∧ u = s.syncDram p :=
  ⟨withRound { roundA with ending := some (.torn 1) }, 0, 2047, { roundA with ending := some (.torn 1) }, .torn 1, _, by decide +kernel,
    rfl⟩

/-- States and operands that meet the hypotheses of FoldWindowsAndPlacement, one for each of its clauses. -/
theorem test_meets_FoldWindowsAndPlacement :
    (∃ (s : State) (ch : Fin 17) (c : Cmd) (i id : Nat), vfTakes s ch 0x0607 c ∧ checkCreateWindow (s.own ch) c.payload = none ∧ (s.own
      ch).net.freeReg = some i ∧ id = payloadBits c 0 6 0) ∧
    (∃ (s : State) (ch : Fin 17) (c : Cmd) (id : Nat) (w : Window), vfTakes s ch 0x0608 c ∧ id ≤ 63 ∧ c.payload = [w64 id] ∧ Table.get?
      (s.own ch).rnd.windows id = some w ∧ (s.own ch).rnd.roundOf id = none) :=
  ⟨⟨up, 1, vf0 [w64 (4 * 2 ^ 32 + 1 * 2 ^ 20 + 63), 0, 0, w64 (2 ^ 32), w64 (8 * 2 ^ 48 + 0x100000), w64 (1 * 2 ^ 16)], 0, 63,
      by decide +kernel⟩,
    ⟨rnd (fun x => { x with windows := [(63, winA)] }), 1, vf0 [w64 63], 63, winA, by decide +kernel⟩⟩

/-- States and operands that meet the hypotheses of FoldWindowsAndPlacement, for further clauses. -/
theorem test_meets_FoldWindowsAndPlacement_2 :
    ∃ (s : State) (p : Fin 16) (id reg addr : Nat) (payload : List Byte) (signal : Bool) (qp : Nat) (y : Bool) (rest : List QItem) (u :
    State), (takePlace s.parts[p].rnd.foldQ = some (.place id reg addr payload signal qp y, rest) ∧ (signal → s.parts[p].rnd.chunksBefore id
    qp = false)) ∧ u = s.syncDram p :=
  ⟨rnd (fun x => { x with foldQ := [.place 3 0 0 [1] false 0 true] }), 0, 3, 0, 0, [1], false, 0, true, [], _, by decide +kernel, rfl⟩

/-- States and operands that meet the hypotheses of ChunkStages, one for each of its clauses. -/
theorem test_meets_ChunkStages :
    (∃ (s : State) (p : Fin 16) (win rkey client n : Nat) (imm : Option Nat) (payload : List Byte) (qp queue : Nat) (rest : List QItem) (w
      : Window) (r : Round), takeFold s.parts[p].rnd.foldQ = some (.fold win rkey client n imm payload qp queue, rest) ∧ Table.get?
      s.parts[p].rnd.windows win = some w ∧ s.parts[p].net.rkey w.reg = some rkey ∧ s.parts[p].rnd.live win = some r) ∧
    (∃ (s : State) (p : Fin 16) (i : Nat) (k : Chunk) (r : Round) (a : Nat) (u : State), (Turn s p i 1 k ∧ s.round? p k.tag = some r) ∧ a =
      r.bitAddr (k.client - r.base) k.chunk ∧ u = s.syncDram p) :=
  ⟨⟨(net (fun n => { n with regs := [(0, ⟨0, .window 1⟩)] })).modPart 0 (fun q =>
      { q with rnd := (fun x => { x with foldQ := [.fold 1 0 19 3 none [] 0 0], windows := [(1, winA)], rounds := [roundA] }) q.rnd }), 0,
      1, 0, 19, 3, none, [], 0, 0, [], winA, roundA, by decide +kernel⟩,
    ⟨chunkAt 1 none, 0, 0, chunkF 1 none, roundA, _, _, by decide +kernel, rfl, rfl⟩⟩

/-- States and operands that meet the hypotheses of ChunkStages, for further clauses. -/
theorem test_meets_ChunkStages_2 :
    (∃ (s : State) (p : Fin 16) (i : Nat) (k : Chunk) (w : Window) (j a n : Nat) (u : State), (Turn s p i 2 k ∧ Table.get?
      s.parts[p].rnd.windows k.win = some w ∧ (w.elem = 3 → 0 < w.modulus j ∧ w.modulus j ≤ 2 ^ 64)) ∧ j = k.chunk - w.vecOffset / 4096 ∧ a
      = w.chunkAddr j ∧ n = elemSize w.elem ∧ u = s.syncDram p) ∧
    (∃ (s : State) (p : Fin 16) (i : Nat) (k : Chunk) (r : Round), Turn s p i 3 k ∧ s.round? p k.tag = some r ∧ k.imm = none) :=
  ⟨⟨chunkAt 2 none, 0, 0, chunkF 2 none, winA, _, _, _, _, by decide +kernel, rfl, rfl, rfl, rfl⟩,
    ⟨chunkAt 3 none, 0, 0, chunkF 3 none, roundA, by decide +kernel⟩⟩

/-- States and operands that meet the hypotheses of ChunkStages, for further clauses. -/
theorem test_meets_ChunkStages_3 :
    ∃ (s : State) (p : Fin 16) (i v : Nat) (k : Chunk) (r : Round) (a : ArrivalQueue) (u : State), (Turn s p i 3 k ∧ s.round? p k.tag = some
    r ∧ k.imm = some v ∧ u.parts[p].rnd.aq = some a) ∧ u = s.present p :=
  ⟨chunkAt 3 (some 6), 0, 0, 6, chunkF 3 (some 6), roundA, ⟨8, 0x200000, ⟨0, 0⟩, ⟨0, 1⟩, 0, 0, 0, 0, 0⟩, _, by decide +kernel, rfl⟩

/-- States and operands that meet the hypotheses of RecoveryRuns, one for each of its clauses. -/
theorem test_meets_RecoveryRuns :
    (∃ (s : State) (ch : Fin 17) (c : Cmd) (x : Round) (tag thr sa pa : Nat) (pk : Bool) (salt : List W64), vfTakes s ch 0x0305 c ∧ tag < 2
      ^ 11 ∧ thr ≤ 1024 ∧ sa < 2 ^ 39 ∧ sa % 64 = 0 ∧ pa < 2 ^ 39 ∧ pa % 64 = 0 ∧ salt.length = 4 ∧ (pk = false → pa = 0) ∧ c.payload = w64
      (thr * 2 ^ 32 + tag) :: w64 sa :: w64 (b2n pk * 2 ^ 63 + pa) :: salt ∧ s.ranDry ch 0x0305 c ∧ s.round? (chanPart ch) tag = some x ∧
      checkStart (s.own ch) x c.payload = none) ∧
    (∃ (s : State) (ch : Fin 17) (c : Cmd) (x : Round) (k : Recovery) (ws : List W64) (rs : List SeedRecord) (r : Bool × Supply × State),
      (ch ≠ 0 ∧ supplyReserved c.payload = false ∧ s.round? (chanPart ch) (payloadBits c 0 10 0) = some x ∧ x.recovery = some k ∧ x.ending =
      none ∧ takes s ch 0x0303 c ∧ s.ranDry ch 0x0303 c ∧ supplyLength false c.payload ∧ supplyRange (s.own ch) false (s.req ch 0x0303 c) =
      false ∧ (s.inTurn ch 0x0303).supplyWords (chanPart ch) k false c.payload = some ws ∧ readSeeds (ws.length / 5) ws = some rs ∧ batchOld
      k.lastSeeds c.payload = false) ∧ r = (s.modRecovery (chanPart ch) x.tag (fun k =>
      { k with lastSeeds := lastBatch k.lastSeeds c.payload })).takeSeeds (chanPart ch) x.tag ⟨0, x.tag, 0, 0, 0, 0, 0, []⟩ rs) :=
  ⟨⟨inRound, 1, vf0 [w64 (1024 * 2 ^ 32 + 2047), w64 0x100000, w64 (2 ^ 63 + 0x200000), 1, 2, 3, 4], roundA, 2047, 1024, 0x100000,
      0x200000, true, [1, 2, 3, 4], by decide +kernel⟩,
    ⟨withRound roundR, 1, vf0 [w64 (2 ^ 32 + 2047), 0, 0, 0, 3, 5, 6, 7, 8], roundR, recA, [3, 5, 6, 7, 8], ((readSeeds 1 [3, 5, 6, 7,
      8]).getD []), ((withRound roundR).modRecovery (chanPart 1) 2047 (fun k =>
      { k with lastSeeds := lastBatch recA.lastSeeds (vf0 [w64 (2 ^ 32 + 2047), 0, 0, 0, 3, 5, 6, 7, 8]).payload })).takeSeeds (chanPart 1)
      2047 ⟨0, 2047, 0, 0, 0, 0, 0, []⟩ ((readSeeds 1 [3, 5, 6, 7, 8]).getD []), by decide +kernel, rfl⟩⟩

/-- States and operands that meet the hypotheses of RecoveryRuns, for further clauses. -/
theorem test_meets_RecoveryRuns_2 :
    (∃ (s : State) (ch : Fin 17) (c : Cmd) (x : Round) (k : Recovery) (ws : List W64) (bs : List Bundle), ch ≠ 0 ∧ supplyReserved c.payload
      = false ∧ s.round? (chanPart ch) (payloadBits c 0 10 0) = some x ∧ x.recovery = some k ∧ x.ending = none ∧ takes s ch 0x0304 c ∧
      s.ranDry ch 0x0304 c ∧ supplyLength true c.payload ∧ supplyRange (s.own ch) true (s.req ch 0x0304 c) = false ∧ (s.inTurn ch
      0x0304).supplyWords (chanPart ch) k true c.payload = some ws ∧ k.threshold ≠ 0 ∧ (cutBundles ws.length ws).bind (readBundles
      k.threshold) = some bs ∧ batchOld k.lastShares c.payload = false) ∧
    (∃ (s : State) (p : Fin 16) (j : SeedJob) (r : Round) (k : Recovery) (u : State), (firstJob s.parts[p].rnd.seedJobs = some j ∧ s.round?
      p j.tag = some r ∧ r.ending = none ∧ r.recovery = some k) ∧ u = (s.advance j.ends).syncDram p) :=
  ⟨⟨withRound roundR, 1, vf0 [w64 (2 ^ 32 + 2047), 0, 0, 0, w64 (2 ^ 48 + 3), 1, 5, 6, 7, 8], roundR, recA, [w64 (2 ^ 48 + 3), 1, 5, 6,
      7, 8], ((cutBundles 6 [w64 (2 ^ 48 + 3), 1, 5, 6, 7, 8]).bind (readBundles 1)).getD [], by decide +kernel⟩,
    ⟨rnd (fun x => { x with rounds := [{ roundB with recovery := some recA }], seedJobs := [⟨2047, .agree 1 2 1, 0, some 0, 5⟩] }), 0,
      (⟨2047, .agree 1 2 1, 0, some 0, 5⟩ : SeedJob), { roundB with recovery := some recA }, recA, _, by decide +kernel, rfl⟩⟩

/-- States and operands that meet the hypotheses of RecoveryRuns, for further clauses. -/
theorem test_meets_RecoveryRuns_3 :
    ∃ (s : State) (p : Fin 16) (tag i due : Nat) (r : Round) (x : ClosedRange) (cs : List Nat), s.round? p tag = some r ∧ r.range? i = some
    x ∧ x.deadline = some due ∧ r.ending = none ∧ s.supplyPending p tag due = false ∧ cs = (List.range r.chunks).filter (RangeSet.mem x.idx) :=
  ⟨withRound roundDue, 0, 2047, 0, 9, roundDue, rangeDue, (List.range 4).filter (RangeSet.mem rangeDue.idx), by decide +kernel⟩

/-- States and operands that meet the hypotheses of ProgramsLoadAndUnload, one for each of its clauses. -/
theorem test_meets_ProgramsLoadAndUnload :
    (∃ (s : State) (ch : Fin 17) (c : Cmd) (len src addr : Nat) (inl : Bool) (img : List Byte) (u : State), (vfTakes s ch 0x0501 c ∧ 80 ≤
      len ∧ len ≤ 2 ^ 26 ∧ addr < 2 ^ 39 ∧ addr % 4096 = 0) ∧ (inl → ∃ ws, c.payload = 0 :: 0 :: w64 len :: w64 addr :: 0 :: ws ∧ ws.length
      = ceilDiv len 8 ∧ ((wordsToBytes ws).drop len).all (· == 0) ∧ img = (wordsToBytes ws).take len) ∧ u = s.dryTurn ch 0x0501 c ∧ (inl =
      false → c.payload = [w64 (2 ^ 11), w64 src, w64 len, w64 addr, 0] ∧ src < 2 ^ 39 ∧ src % 64 = 0 ∧ src + len ≤ (s.own ch).dramSize ∧
      (s.own ch).sourceOwned none src len = false ∧ s.ranDry ch 0x0501 c ∧ img = u.dramAt (chanPart ch) src len)) ∧
    (∃ (s : State) (ch : Fin 17) (c : Cmd) (id : W64) (x : Program) (u : State), (vfTakes s ch 0x0501 c ∧ c.payload = [w64 (1 * 2 ^ 16), 0,
      0, 0, id] ∧ Table.get? (s.own ch).job.resident id.toNat = some x ∧ (s.own ch).job.uses id = false) ∧ u = s.dryTurn ch 0x0501 c) :=
  ⟨⟨up, 1, vf0 [w64 (2 ^ 11), 0, 80, 0x100000, 0], 80, 0, 0x100000, false, up.dramAt 0 0 80, _, by decide +kernel, (by intro h; cases h),
      rfl, (by intro _; decide +kernel)⟩,
    ⟨job (fun j => { j with resident := [(9, ⟨0, 4096, 4, 0, 1, 1⟩)] }), 1, vf0 [w64 (1 * 2 ^ 16), 0, 0, 0, 9], 9, ⟨0, 4096, 4, 0, 1, 1⟩,
      _, by decide +kernel, rfl⟩⟩

/-- States and operands that meet the hypotheses of TasksAreQueuedAndDispatched, one for each of its clauses. -/
theorem test_meets_TasksAreQueuedAndDispatched :
    (∃ (s : State) (ch : Fin 17) (c : Cmd) (id : W64) (argc limit : Nat) (args : List W64), vfTakes s ch 0x0502 c ∧ argc ≤ 8 ∧ limit < 2 ^
      32 ∧ args.length = argc ∧ c.payload = id :: w64 (argc * 2 ^ 32 + limit) :: args ∧ Table.has (s.own ch).job.resident id.toNat ∧ (s.own
      ch).job.queue.length < 64) ∧
    (∃ (s : State) (ch : Fin 17) (c : Cmd) (id : Nat) (k : Machine.Task), vfTakes s ch 0x0504 c ∧ id < 2 ^ 16 ∧ c.payload = [w64 id] ∧
      ((s.inTurn ch 0x0504).tasks (chanPart ch)).find? (fun t => t.id == id) = some k) :=
  ⟨⟨job (fun j => { j with resident := [(9, ⟨0, 4096, 4, 0, 1, 1⟩)] }), 1, vf0 (9 :: w64 (8 * 2 ^ 32 + (2 ^ 32 - 1)) :: List.replicate 8
      3), 9, 8, 2 ^ 32 - 1, List.replicate 8 3, by decide +kernel⟩,
    ⟨ranTask, 1, vf0 [5], 5, taskA, by decide +kernel⟩⟩

/-- States and operands that meet the hypotheses of TasksAreQueuedAndDispatched, for further clauses. -/
theorem test_meets_TasksAreQueuedAndDispatched_2 :
    ∃ (s : State) (p : Fin 16) (i f : Nat) (k : Machine.Task) (y : Program), s.mayDispatch p ∧ (s.fillCassettes p 5).parts[p].choose s.clock
    = some (i, .tenant k, f) ∧ Table.get? s.parts[p].job.resident k.program.toNat = some y :=
  ⟨(job (fun j => { j with resident := [(9, ⟨0, 4096, 4, 0, 1, 1⟩)], cassettes := [.tenant taskA] })).modPart 0 (fun q =>
    { q with acct := { q.acct with history := [(9, List.replicate 8 (0, 0))] } }), 0, 0, 1, taskA, ⟨0, 4096, 4, 0, 1, 1⟩, by decide +kernel⟩

/-- States and operands that meet the hypotheses of TasksEnd, one for each of its clauses. -/
theorem test_meets_TasksEnd :
    (∃ (s : State) (p : Fin 16) (r : Running) (k : Machine.Task) (n : Nat) (last : Option Finished), s.parts[p].job.running = some r ∧
      r.what = .tenant k ∧ s.naturalEnd p = some (n, last) ∧ r.stopped n = false ∧ (∀ x ∈ r.stop, x.cancel)) ∧
    (∃ (s : State) (p : Fin 16) (r : Running) (k : Machine.Task) (x : Stop), s.parts[p].job.running = some r ∧ r.what = .tenant k ∧ r.stop
      = some x ∧ x.cancel) :=
  ⟨⟨running runA, 0, runA, taskR, 0, none, by decide +kernel⟩,
    ⟨running (runStop true), 0, runStop true, taskR, ⟨64, true, .ok, 0, 0, 0, 0, 0⟩, by decide +kernel⟩⟩

/-- States and operands that meet the hypotheses of TasksEnd, for further clauses. -/
theorem test_meets_TasksEnd_2 :
    (∃ (s : State) (p : Fin 16) (r : Running) (k : Machine.Task) (x : Stop), s.parts[p].job.running = some r ∧ r.what = .tenant k ∧ r.stop
      = some x ∧ x.cancel = false) ∧
    (∃ (s : State) (p : Fin 16) (r : Running) (k : Machine.Task) (n : Nat), s.parts[p].job.running = some r ∧ r.what = .tenant k ∧ r.limit
      = some n ∧ r.stop.any (fun x => x.atCycle ≤ n) = false ∧ (s.naturalEnd p).any (fun e => e.1 < n) = false) :=
  ⟨⟨running (runStop false), 0, runStop false, taskR, ⟨64, false, .ok, 0, 0, 0, 0, 0⟩, by decide +kernel⟩,
    ⟨withCore (coreA 0 (ctlV 7 8) false), 0, runA, taskR, 1000 * 65536, by decide +kernel⟩⟩

/-- States and operands that meet the hypotheses of SiteDefectIsHandled. -/
theorem test_meets_SiteDefectIsHandled :
    ∃ (s : State) (site : Fin 36) (c : Nat) (p : Fin 16), leastBelow 32 (fun c => s.nvm.siteMap.getD c 36 == site.val) = some c ∧ s.ownerOf
    c = some p :=
  ⟨up, 0, 0, 0, by decide +kernel⟩

/-- States and operands that meet the hypotheses of CtlInstructionsExecute, one for each of its clauses. -/
theorem test_meets_CtlInstructionsExecute :
    (∃ (s : State) (i : Issue), Issues s 0 7 0 i) ∧
    (∃ (s : State) (i : Issue), Issues s 0 7 1 i) :=
  ⟨⟨issuing 0 (ctlV 7 0) false, issue (ctlV 7 0) 0, ⟨by decide +kernel, by decide +kernel, by decide +kernel, by decide +kernel,
      by decide +kernel, by decide +kernel, by decide +kernel, by decide +kernel⟩⟩,
    ⟨issuing 0 (ctlV 7 1) false, issue (ctlV 7 1) 0, ⟨by decide +kernel, by decide +kernel, by decide +kernel, by decide +kernel,
      by decide +kernel, by decide +kernel, by decide +kernel, by decide +kernel⟩⟩⟩

/-- States and operands that meet the hypotheses of CtlInstructionsExecute, for further clauses. -/
theorem test_meets_CtlInstructionsExecute_2 :
    (∃ (s : State) (i : Issue), Issues s 0 7 2 i) ∧
    (∃ (s : State) (i : Issue), Issues s 0 7 3 i) :=
  ⟨⟨issuing 0 (ctlV 7 2) false, issue (ctlV 7 2) 0, ⟨by decide +kernel, by decide +kernel, by decide +kernel, by decide +kernel,
      by decide +kernel, by decide +kernel, by decide +kernel, by decide +kernel⟩⟩,
    ⟨issuing 0 (ctlV 7 3) false, issue (ctlV 7 3) 0, ⟨by decide +kernel, by decide +kernel, by decide +kernel, by decide +kernel,
      by decide +kernel, by decide +kernel, by decide +kernel, by decide +kernel⟩⟩⟩

/-- States and operands that meet the hypotheses of CtlInstructionsExecute, for further clauses. -/
theorem test_meets_CtlInstructionsExecute_3 :
    (∃ (s : State) (i : Issue), Issues s 0 7 4 i) ∧
    (∃ (s : State) (i : Issue), Issues s 0 7 5 i) :=
  ⟨⟨issuing 0 (ctlV 7 4) false, issue (ctlV 7 4) 0, ⟨by decide +kernel, by decide +kernel, by decide +kernel, by decide +kernel,
      by decide +kernel, by decide +kernel, by decide +kernel, by decide +kernel⟩⟩,
    ⟨issuing 0 (ctlV 7 5) false, issue (ctlV 7 5) 0, ⟨by decide +kernel, by decide +kernel, by decide +kernel, by decide +kernel,
      by decide +kernel, by decide +kernel, by decide +kernel, by decide +kernel⟩⟩⟩

/-- States and operands that meet the hypotheses of CtlInstructionsExecute, for further clauses. -/
theorem test_meets_CtlInstructionsExecute_4 :
    (∃ (s : State) (i : Issue), Issues s 0 7 6 i) ∧
    (∃ (s : State) (i : Issue), Issues s 0 7 7 i) :=
  ⟨⟨issuing 0 (ctlV 7 6) false, issue (ctlV 7 6) 0, ⟨by decide +kernel, by decide +kernel, by decide +kernel, by decide +kernel,
      by decide +kernel, by decide +kernel, by decide +kernel, by decide +kernel⟩⟩,
    ⟨issuing 0 (ctlV 7 7) false, issue (ctlV 7 7) 0, ⟨by decide +kernel, by decide +kernel, by decide +kernel, by decide +kernel,
      by decide +kernel, by decide +kernel, by decide +kernel, by decide +kernel⟩⟩⟩

/-- States and operands that meet the hypotheses of CtlInstructionsExecute, for further clauses. -/
theorem test_meets_CtlInstructionsExecute_5 :
    (∃ (s : State) (i : Issue), Issues s 0 7 8 i) ∧
    (∃ (s : State) (i : Issue), Issues s 0 7 9 i) :=
  ⟨⟨issuing 0 (ctlV 7 8) false, issue (ctlV 7 8) 0, ⟨by decide +kernel, by decide +kernel, by decide +kernel, by decide +kernel,
      by decide +kernel, by decide +kernel, by decide +kernel, by decide +kernel⟩⟩,
    ⟨issuing 0 (ctlV 7 9) false, issue (ctlV 7 9) 0, ⟨by decide +kernel, by decide +kernel, by decide +kernel, by decide +kernel,
      by decide +kernel, by decide +kernel, by decide +kernel, by decide +kernel⟩⟩⟩

/-- States and operands that meet the hypotheses of MovesRun, one for each of its clauses. -/
theorem test_meets_MovesRun :
    (∃ (s : State) (i : Issue) (op : Nat) (e : Fin 32 → Fin 8 → Instr) (st : Bool) (sp : Space), (op, e, st, sp) ∈ [(1, Instr.mvLd, false,
      Space.core), (2, .mvSt, true, .core), (3, .mvLdsh, false, .shared), (4, .mvStsh, true, .shared)] ∧ Issues s 1 6 op i) ∧
    (∃ (s : State) (c : Fin 32) (k : Fin 8) (p : Fin 16) (r : Running) (m : Move), RunsOn s c p r ∧ (s.core c k).firstDone = some m) :=
  ⟨⟨issuing 1 (mvV 1) false, issue (mvV 1) 0, 1, Instr.mvLd, false, Space.core, (by simp), ⟨by decide +kernel, by decide +kernel,
      by decide +kernel, by decide +kernel, by decide +kernel, by decide +kernel, by decide +kernel, by decide +kernel⟩⟩,
    ⟨moving, 0, 0, 0, runA, moveA, by decide +kernel⟩⟩

/-- States and operands that meet the hypotheses of MovesRun, for further clauses. -/
theorem test_meets_MovesRun_2 :
    ∃ (s : State) (i : Issue) (op : Nat) (e : Fin 32 → Fin 8 → Instr) (src dst : Space), (op, e, src, dst) ∈ [(8, Instr.mvLsh, Space.shared,
    Space.core), (9, .mvSsh, .core, .shared)] ∧ Issues s 1 6 op i :=
  ⟨issuing 1 (mvV 8) false, issue (mvV 8) 0, 8, Instr.mvLsh, Space.shared, Space.core, (by simp), ⟨by decide +kernel, by decide +kernel,
    by decide +kernel, by decide +kernel, by decide +kernel, by decide +kernel, by decide +kernel, by decide +kernel⟩⟩

/-- States and operands that meet the hypotheses of RingVectorsAreComputed, one for each of its clauses. -/
theorem test_meets_RingVectorsAreComputed :
    (∃ (s : State) (i : Issue), ((s.core i.c i.k).eng.tensor = false ∧ badOperands (rangesDA i s) = none) ∧ Issues s 2 1 1 i) ∧
    (∃ (s : State) (i : Issue), ((s.core i.c i.k).eng.tensor = false ∧ badOperands (rangesDA i s) = none) ∧ Issues s 2 1 2 i) :=
  ⟨⟨issuing 2 (compV 1 1 1) false, issue (compV 1 1 1) 0, by decide +kernel, ⟨by decide +kernel, by decide +kernel, by decide +kernel,
      by decide +kernel, by decide +kernel, by decide +kernel, by decide +kernel, by decide +kernel⟩⟩,
    ⟨issuing 2 (compV 1 2 1) false, issue (compV 1 2 1) 0, by decide +kernel, ⟨by decide +kernel, by decide +kernel, by decide +kernel,
      by decide +kernel, by decide +kernel, by decide +kernel, by decide +kernel, by decide +kernel⟩⟩⟩

/-- States and operands that meet the hypotheses of RingVectorsAreComputed, for further clauses. -/
theorem test_meets_RingVectorsAreComputed_2 :
    (∃ (s : State) (i : Issue), ((s.core i.c i.k).eng.tensor = false ∧ badOperands (rangesDAB i s) = none) ∧ Issues s 2 1 3 i) ∧
    (∃ (s : State) (i : Issue), ((s.core i.c i.k).eng.tensor = false ∧ badOperands (rangesDAB i s) = none) ∧ Issues s 2 1 4 i) :=
  ⟨⟨issuing 2 (compV 1 3 1) false, issue (compV 1 3 1) 0, by decide +kernel, ⟨by decide +kernel, by decide +kernel, by decide +kernel,
      by decide +kernel, by decide +kernel, by decide +kernel, by decide +kernel, by decide +kernel⟩⟩,
    ⟨issuing 2 (compV 1 4 1) false, issue (compV 1 4 1) 0, by decide +kernel, ⟨by decide +kernel, by decide +kernel, by decide +kernel,
      by decide +kernel, by decide +kernel, by decide +kernel, by decide +kernel, by decide +kernel⟩⟩⟩

/-- States and operands that meet the hypotheses of RingVectorsAreComputed, for further clauses. -/
theorem test_meets_RingVectorsAreComputed_3 :
    (∃ (s : State) (i : Issue), ((s.core i.c i.k).eng.tensor = false ∧ badOperands (rangesDAB i s) = none) ∧ Issues s 2 1 5 i) ∧
    (∃ (s : State) (i : Issue), ((s.core i.c i.k).eng.tensor = false ∧ badOperands (rangesDAB i s) = none) ∧ Issues s 2 1 6 i) :=
  ⟨⟨issuing 2 (compV 1 5 1) false, issue (compV 1 5 1) 0, by decide +kernel, ⟨by decide +kernel, by decide +kernel, by decide +kernel,
      by decide +kernel, by decide +kernel, by decide +kernel, by decide +kernel, by decide +kernel⟩⟩,
    ⟨issuing 2 (compV 1 6 1) false, issue (compV 1 6 1) 0, by decide +kernel, ⟨by decide +kernel, by decide +kernel, by decide +kernel,
      by decide +kernel, by decide +kernel, by decide +kernel, by decide +kernel, by decide +kernel⟩⟩⟩

/-- States and operands that meet the hypotheses of RingVectorsAreComputed, for further clauses. -/
theorem test_meets_RingVectorsAreComputed_4 :
    (∃ (s : State) (i : Issue), ((s.core i.c i.k).eng.tensor = false ∧ badOperands (rangesDAs i s) = none) ∧ Issues s 2 1 7 i) ∧
    (∃ (s : State) (i : Issue), ((s.core i.c i.k).eng.tensor = false ∧ badOperands (rangesDA i s) = none) ∧ Issues s 2 1 8 i) :=
  ⟨⟨issuing 2 (compV 1 7 1) false, issue (compV 1 7 1) 0, by decide +kernel, ⟨by decide +kernel, by decide +kernel, by decide +kernel,
      by decide +kernel, by decide +kernel, by decide +kernel, by decide +kernel, by decide +kernel⟩⟩,
    ⟨issuing 2 (compV 1 8 1) false, issue (compV 1 8 1) 0, by decide +kernel, ⟨by decide +kernel, by decide +kernel, by decide +kernel,
      by decide +kernel, by decide +kernel, by decide +kernel, by decide +kernel, by decide +kernel⟩⟩⟩

/-- States and operands that meet the hypotheses of RingVectorsAreComputed, for further clauses. -/
theorem test_meets_RingVectorsAreComputed_5 :
    ∃ (s : State) (i : Issue), ((s.core i.c i.k).eng.tensor = false ∧ badOperands (rangesDA i s) = none) ∧ Issues s 2 1 9 i :=
  ⟨issuing 2 (compV 1 9 1) false, issue (compV 1 9 1) 0, by decide +kernel, ⟨by decide +kernel, by decide +kernel, by decide +kernel,
    by decide +kernel, by decide +kernel, by decide +kernel, by decide +kernel, by decide +kernel⟩⟩

/-- States and operands that meet the hypotheses of RingEntriesAreLoadedAndCompared, one for each of its clauses. -/
theorem test_meets_RingEntriesAreLoadedAndCompared :
    (∃ (s : State) (i : Issue), ((i.core s).eng.tensor = false ∧ badOperands (rangesLdb i s) = none) ∧ Issues s 2 1 10 i) ∧
    (∃ (s : State) (i : Issue), ((i.core s).eng.tensor = false ∧ badOperands (rangesKchk i s) = none) ∧ Issues s 2 1 11 i) :=
  ⟨⟨issuing 2 (compV 1 10 1) false, issue (compV 1 10 1) 0, by decide +kernel, ⟨by decide +kernel, by decide +kernel, by decide +kernel,
      by decide +kernel, by decide +kernel, by decide +kernel, by decide +kernel, by decide +kernel⟩⟩,
    ⟨issuing 2 (compV 1 11 1) false, issue (compV 1 11 1) 0, by decide +kernel, ⟨by decide +kernel, by decide +kernel, by decide +kernel,
      by decide +kernel, by decide +kernel, by decide +kernel, by decide +kernel, by decide +kernel⟩⟩⟩

/-- States and operands that meet the hypotheses of TensorInstructionsExecute, one for each of its clauses. -/
theorem test_meets_TensorInstructionsExecute :
    (∃ (s : State) (i : Issue), ((i.core s).eng.tensor ∧ badOperands [(s.regNat i 53 49, 64), (s.regNat i 43 39, 8)] = none) ∧ Issues s 2 2
      1 i) ∧
    (∃ (s : State) (i : Issue) (op : Nat) (e : Fin 32 → Fin 8 → Instr) (comp : Bool), ((i.core s).eng.tensor ∧ badOperands (rangesMma i s)
      = none) ∧ (op, e, comp) ∈ [(2, Instr.tnMma, false), (3, .tnMmac, true)] ∧ Issues s 2 2 op i) :=
  ⟨⟨issuing 2 (tnV 1 1) true, issue (tnV 1 1) 0, by decide +kernel, ⟨by decide +kernel, by decide +kernel, by decide +kernel,
      by decide +kernel, by decide +kernel, by decide +kernel, by decide +kernel, by decide +kernel⟩⟩,
    ⟨issuing 2 (tnV 2 1) true, issue (tnV 2 1) 0, 2, Instr.tnMma, false, by decide +kernel, (by simp), ⟨by decide +kernel,
      by decide +kernel, by decide +kernel, by decide +kernel, by decide +kernel, by decide +kernel, by decide +kernel, by decide +kernel⟩⟩⟩

/-- States and operands that meet the hypotheses of TensorInstructionsExecute, for further clauses. -/
theorem test_meets_TensorInstructionsExecute_2 :
    (∃ (s : State) (i : Issue), ((i.core s).eng.tensor ∧ badOperands [(s.regNat i 53 49, s.preBytes i)] = none) ∧ Issues s 2 2 4 i) ∧
    (∃ (s : State) (i : Issue), (i.core s).eng.tensor ∧ Issues s 2 2 5 i) :=
  ⟨⟨issuing 2 (tnV 4 1) true, issue (tnV 4 1) 0, by decide +kernel, ⟨by decide +kernel, by decide +kernel, by decide +kernel,
      by decide +kernel, by decide +kernel, by decide +kernel, by decide +kernel, by decide +kernel⟩⟩,
    ⟨issuing 2 (tnV 5 1) true, issue (tnV 5 1) 0, by decide +kernel, ⟨by decide +kernel, by decide +kernel, by decide +kernel,
      by decide +kernel, by decide +kernel, by decide +kernel, by decide +kernel, by decide +kernel⟩⟩⟩

/-- States and operands that meet the hypotheses of TensorInstructionsExecute, for further clauses. -/
theorem test_meets_TensorInstructionsExecute_3 :
    ∃ (s : State) (i : Issue), ((i.core s).eng.tensor ∧ badOperands (rangesDrain i s) = none) ∧ Issues s 2 2 6 i :=
  ⟨issuing 2 (tnV 6 1) true, issue (tnV 6 1) 0, by decide +kernel, ⟨by decide +kernel, by decide +kernel, by decide +kernel,
    by decide +kernel, by decide +kernel, by decide +kernel, by decide +kernel, by decide +kernel⟩⟩

/-- States and operands that meet the hypotheses of FoldAndKeystreamExecute, one for each of its clauses. -/
theorem test_meets_FoldAndKeystreamExecute :
    (∃ (s : State) (i : Issue) (op : Nat) (e : Fin 32 → Fin 8 → Instr) (neg : Bool), (op, e, neg) ∈ [(1, Instr.foldAdd, false), (2,
      .foldSub, true)] ∧ Issues s 3 3 op i) ∧
    (∃ (s : State) (i : Issue), badOperand .core 64 (s.regNat i 53 49) 32 = none ∧ Issues s 3 4 1 i) :=
  ⟨⟨issuing 3 (auxV 3 1) false, issue (auxV 3 1) 1772, 1, Instr.foldAdd, false, (by simp), ⟨by decide +kernel, by decide +kernel,
      by decide +kernel, by decide +kernel, by decide +kernel, by decide +kernel, by decide +kernel, by decide +kernel⟩⟩,
    ⟨issuing 3 (auxV 4 1) false, issue (auxV 4 1) 0, by decide +kernel, ⟨by decide +kernel, by decide +kernel, by decide +kernel,
      by decide +kernel, by decide +kernel, by decide +kernel, by decide +kernel, by decide +kernel⟩⟩⟩

/-- States and operands that meet the hypotheses of FoldAndKeystreamExecute, for further clauses. -/
theorem test_meets_FoldAndKeystreamExecute_2 :
    ∃ (s : State) (i : Issue), Issues s 3 4 2 i :=
  ⟨issuing 3 (auxV 4 2) false, issue (auxV 4 2) 0, ⟨by decide +kernel, by decide +kernel, by decide +kernel, by decide +kernel,
    by decide +kernel, by decide +kernel, by decide +kernel, by decide +kernel⟩⟩

/-- States and operands that meet the hypotheses of DerailleurJobsRun, one for each of its clauses. -/
theorem test_meets_DerailleurJobsRun :
    (∃ (s : State) (i : Issue), Issues s 3 5 1 i) ∧
    (∃ (s : State) (c : Fin 32) (p : Fin 16) (r : Running) (j : DrJob) (rest : List DrJob), RunsOn s c p r ∧ s.clusters[c].der.jobs = j ::
      rest ∧ r.stopped j.ends = false ∧ 3 ≤ Desc.kind j.desc) :=
  ⟨⟨issuing 3 (auxV 5 1) false, issue (auxV 5 1) 0, ⟨by decide +kernel, by decide +kernel, by decide +kernel, by decide +kernel,
      by decide +kernel, by decide +kernel, by decide +kernel, by decide +kernel⟩⟩,
    ⟨derailing 3, 0, 0, runA, jobOf 3, [], by decide +kernel⟩⟩

/-- States and operands that meet the hypotheses of DerailleurJobsRun, for further clauses. -/
theorem test_meets_DerailleurJobsRun_2 :
    (∃ (s : State) (c : Fin 32) (p : Fin 16) (r : Running) (j : DrJob) (rest : List DrJob), RunsOn s c p r ∧ s.clusters[c].der.jobs = j ::
      rest ∧ r.stopped j.ends = false ∧ Desc.kind j.desc = 0) ∧
    (∃ (s : State) (c : Fin 32) (p : Fin 16) (r : Running) (j : DrJob) (rest : List DrJob), RunsOn s c p r ∧ s.clusters[c].der.jobs = j ::
      rest ∧ r.stopped j.ends = false ∧ Desc.kind j.desc = 1) :=
  ⟨⟨derailing 0, 0, 0, runA, jobOf 0, [], by decide +kernel⟩,
    ⟨derailing 1, 0, 0, runA, jobOf 1, [], by decide +kernel⟩⟩

/-- States and operands that meet the hypotheses of DerailleurJobsRun, for further clauses. -/
theorem test_meets_DerailleurJobsRun_3 :
    ∃ (s : State) (c : Fin 32) (p : Fin 16) (r : Running) (j : DrJob) (rest : List DrJob), RunsOn s c p r ∧ s.clusters[c].der.jobs = j ::
    rest ∧ r.stopped j.ends = false ∧ Desc.kind j.desc = 2 :=
  ⟨derailing 2, 0, 0, runA, jobOf 2, [], by decide +kernel⟩

/-- States and operands that meet the hypotheses of RefreshTicketsEnd, one for each of its clauses. -/
theorem test_meets_RefreshTicketsEnd :
    (∃ (s : State) (p : Fin 16) (i c tk epoch ctr task : Nat) (q : Qp) (d : Send), s.qp? p i = some q ∧ q.sending = some d ∧ d.kind =
      .refresh c tk epoch ctr task ∧ d.acked = d.length ∧ d.unacked = [] ∧ c < 32) ∧
    (∃ (s : State) (c : Fin 32) (p : Fin 16) (tk : Fin 128), s.ownerOf c.val = some p ∧ (s.clusters[c].der.ticket tk.val).st ≠ .free) :=
  ⟨⟨withQp (sender (sendA (.refresh 0 5 0 0 0))), 0, 0, 0, 5, 0, 0, 0, sender (sendA (.refresh 0 5 0 0 0)), sendA (.refresh 0 5 0 0 0),
      by decide +kernel⟩,
    ⟨ticketed, 0, 0, 5, by decide +kernel⟩⟩

/-- States and operands that meet the hypotheses of CountersSignalAndWait, one for each of its clauses. -/
theorem test_meets_CountersSignalAndWait :
    (∃ (s : State) (i : Issue), Issues s 4 8 1 i) ∧
    (∃ (s : State) (i : Issue), Issues s 4 8 2 i) :=
  ⟨⟨issuing 4 (ctlV 8 1) false, issue (ctlV 8 1) 0, ⟨by decide +kernel, by decide +kernel, by decide +kernel, by decide +kernel,
      by decide +kernel, by decide +kernel, by decide +kernel, by decide +kernel⟩⟩,
    ⟨issuing 4 (ctlV 8 2) false, issue (ctlV 8 2) 0, ⟨by decide +kernel, by decide +kernel, by decide +kernel, by decide +kernel,
      by decide +kernel, by decide +kernel, by decide +kernel, by decide +kernel⟩⟩⟩

/-- States and operands that meet the hypotheses of CountersSignalAndWait, for further clauses. -/
theorem test_meets_CountersSignalAndWait_2 :
    (∃ (s : State) (i : Issue), Issues s 4 8 3 i) ∧
    (∃ (s : State) (i : Issue), Issues s 4 8 4 i) :=
  ⟨⟨issuing 4 (ctlV 8 3) false, issue (ctlV 8 3) 0, ⟨by decide +kernel, by decide +kernel, by decide +kernel, by decide +kernel,
      by decide +kernel, by decide +kernel, by decide +kernel, by decide +kernel⟩⟩,
    ⟨issuing 4 (ctlV 8 4) false, issue (ctlV 8 4) 0, ⟨by decide +kernel, by decide +kernel, by decide +kernel, by decide +kernel,
      by decide +kernel, by decide +kernel, by decide +kernel, by decide +kernel⟩⟩⟩

/-- States and operands that meet the hypotheses of CountersSignalAndWait, for further clauses. -/
theorem test_meets_CountersSignalAndWait_3 :
    ∃ (s : State) (c : Fin 32) (k : Fin 8) (p : Fin 16) (r : Running) (ctr : CtrRef) (n since judged x : Nat) (ext : Bool), RunsOn s c p r ∧
    (s.core c k).wait = some (.counter ctr n since judged) ∧ s.releaseAt p r ctr c k n judged = some (x, ext) ∧ r.stopped x = false :=
  ⟨withCore { coreA 0 0x78000001 false with wait := some (.counter ⟨0, 5⟩ 0 0 0) }, 0, 0, 0, runA, ⟨0, 5⟩, 0, 0, 0, 0, false,
    by decide +kernel⟩

/-- States and operands that meet the hypotheses of BarriersCompleteOnTheDie, one for each of its clauses. -/
theorem test_meets_BarriersCompleteOnTheDie :
    (∃ (s : State) (i : Issue), Issues s 4 8 5 i) ∧
    (∃ (s : State) (p : Fin 16) (r : Running) (x : Nat), s.parts[p].job.running = some r ∧ s.lastEntry p = some x ∧ s.bindsOf p = [] ∧
      r.stopped (x + 40) = false) :=
  ⟨⟨issuing 4 (ctlV 8 5) false, issue (ctlV 8 5) 0, ⟨by decide +kernel, by decide +kernel, by decide +kernel, by decide +kernel,
      by decide +kernel, by decide +kernel, by decide +kernel, by decide +kernel⟩⟩,
    ⟨entering (withCore (coreA 0 0x78000001 false)), 0, runA, 10, by decide +kernel⟩⟩

/-- States and operands that meet the hypotheses of CountersAreInspectedAndMirrored, one for each of its clauses. -/
theorem test_meets_CountersAreInspectedAndMirrored :
    (∃ (s : State) (ch : Fin 17) (c : Cmd) (cl idx n : Nat), vfTakes s ch 0x0A01 c ∧ n ≤ 2048 ∧ (s.own ch).clusterList.contains cl ∧ cl <
      32 ∧ idx + n ≤ 2048 ∧ idx < 2048 ∧ c.payload = [w64 (cl * 2 ^ 11 + idx)]) ∧
    (∃ (s : State) (ch : Fin 17) (c : Cmd) (cl idx n : Nat), vfTakes s ch 0x0A01 c ∧ n ≤ 2048 ∧ (s.own ch).clusterList.contains cl ∧ cl <
      32 ∧ idx + n ≤ 2048 ∧ idx < 2048 ∧ c.payload = [w64 (n * 2 ^ 32 + 1 * 2 ^ 16 + cl * 2 ^ 11 + idx)] ∧ 1 ≤ n) :=
  ⟨⟨up, 1, vf0 [w64 2047], 0, 2047, 1, by decide +kernel⟩,
    ⟨up, 1, vf0 [w64 (2 ^ 32 + 1 * 2 ^ 16 + 2047)], 0, 2047, 1, by decide +kernel⟩⟩

/-- States and operands that meet the hypotheses of CountersAreInspectedAndMirrored, for further clauses. -/
theorem test_meets_CountersAreInspectedAndMirrored_2 :
    (∃ (s : State) (ch : Fin 17) (c : Cmd) (on : Bool), vfTakes s ch 0x0A01 c ∧ c.payload = [w64 ((if on then 2 else 3) * 2 ^ 16)]) ∧
    (∃ (s : State) (w : W64) (p : Fin 16), s.reachable 0 ∧ s.ownerOf (bits w 47 43) = some p ∧ s.parts[p].mirrorOn ∧ 1 ≤ (bits w 16 0) ∧
      (bits w 16 0) ≤ 65536) :=
  ⟨⟨up, 1, vf0 [w64 (2 * 2 ^ 16)], true, by decide +kernel⟩,
    ⟨up.modPart 0 (fun q => { q with mirrorOn := true }), w64 65536, 0, by decide +kernel⟩⟩

/-- States and operands that meet the hypotheses of CountersAreInspectedAndMirrored, for further clauses. -/
theorem test_meets_CountersAreInspectedAndMirrored_3 :
    ∃ (s : State) (w : W64), s.reachable 0 ∧ ((bits w 16 0) = 0 ∨ 65536 < (bits w 16 0) ∨ s.ownerOf (bits w 47 43) = none ∨ (∀ p, s.ownerOf
    (bits w 47 43) = some p → s.parts[p].mirrorOn = false)) :=
  ⟨up, w64 0, by decide +kernel⟩

/-- States and operands that meet the hypotheses of FramesReachTheirQueuePair, one for each of its clauses. -/
theorem test_meets_FramesReachTheirQueuePair :
    (∃ (s : State) (l : Fin 24) (f : Frame), (s.links[l]).st = .up ∧ ((s.links[l]).mode = 1 ∨ (s.links[l]).mode = 2) ∧ (f.fcsOk = false ∨
      9216 < f.len)) ∧
    (∃ (s : State) (l : Fin 24) (f : Frame) (v6 : Bool) (addr i : Nat) (r : Roce) (p : Fin 16) (q : Qp), (s.links[l]).st = .up ∧
      ((s.links[l]).mode = 1 ∨ (s.links[l]).mode = 2) ∧ f.fcsOk ∧ f.len ≤ 9216 ∧ f.body = .udp v6 addr true 4791 false r ∧ s.macsecOk l f ∧
      (s.links[l]).addressed f ∧ (s.links[l]).owns v6 addr ∧ ofQpn r.destQpn = some (p, i) ∧ s.qp? p i = some q ∧ q.link = l.val ∧ (q.st =
      .rtr ∨ q.st = .rts) ∧ s.parts[p].net.cache.contains i) :=
  ⟨⟨up, 0, frameA .other false, by decide +kernel⟩,
    ⟨withQp { qpA with st := .rtr }, 0, frameA (.udp false 7 true 4791 false roceA) true, false, 7, 0, roceA, 0, { qpA with st := .rtr },
      by decide +kernel⟩⟩

/-- States and operands that meet the hypotheses of ContextsAreFetchedAndSendsStart, one for each of its clauses. -/
theorem test_meets_ContextsAreFetchedAndSendsStart :
    (∃ (s : State) (p : Fin 16) (i x : Nat), s.parts[p].net.fetches.find? (fun e => e.1 == i) = some (i, x) ∧ 0 < s.parts[p].cacheSize) ∧
    (∃ (s : State) (p : Fin 16) (i : Nat) (q : Qp) (e : List W64) (rest : List SendReq), State.qp? s p i = some q ∧ q.sending = none ∧
      q.egress = .descriptor e :: rest) :=
  ⟨⟨net (fun n => { n with fetches := [(3, 50)] }), 0, 3, 50, by decide +kernel⟩,
    ⟨withQp { qpA with egress := [.descriptor []] }, 0, 0, { qpA with egress := [.descriptor []] }, [], [], by decide +kernel⟩⟩

/-- States and operands that meet the hypotheses of QueuePairTimersExpire, one for each of its clauses. -/
theorem test_meets_QueuePairTimersExpire :
    (∃ (s : State) (p : Fin 16) (i : Nat) (q : Qp) (d : Send), State.qp? s p i = some q ∧ q.sending = some d ∧ q.st ≠ .error ∧ d.unacked ≠
      [] ∧ d.rnrUntil = none) ∧
    (∃ (s : State) (p : Fin 16) (i : Nat) (q : Qp) (d : Send) (x : Nat), State.qp? s p i = some q ∧ q.sending = some d ∧ q.st ≠ .error ∧
      d.rnrUntil = some x) :=
  ⟨⟨withQp (sender { sendA (.egress 0) with unacked := [packetA] }), 0, 0, sender { sendA (.egress 0) with unacked := [packetA] },
      { sendA (.egress 0) with unacked := [packetA] }, by decide +kernel⟩,
    ⟨withQp (sender { sendA (.egress 0) with unacked := [packetA], rnrUntil := some 9 }), 0, 0, sender
      { sendA (.egress 0) with unacked := [packetA], rnrUntil := some 9 },
      { sendA (.egress 0) with unacked := [packetA], rnrUntil := some 9 }, 9, by decide +kernel⟩⟩

/-- States and operands that meet the hypotheses of QueuePairTimersExpire, for further clauses. -/
theorem test_meets_QueuePairTimersExpire_2 :
    (∃ (s : State) (p : Fin 16) (i : Nat) (q : Qp), State.qp? s p i = some q) ∧
    (∃ (s : State) (p : Fin 16) (i : Nat) (q : Qp), State.qp? s p i = some q ∧ (s.ccOf p).byteCounter * 65536 ≤ q.rate.bytes) :=
  ⟨⟨withQp qpA, 0, 0, qpA, by decide +kernel⟩,
    ⟨withQp { qpA with rate := { qpA.rate with bytes := 160 * 65536 } }, 0, 0,
      { qpA with rate := { qpA.rate with bytes := 160 * 65536 } }, by decide +kernel⟩⟩

/-- States and operands that meet the hypotheses of LinksTrainAndSecure, one for each of its clauses. -/
theorem test_meets_LinksTrainAndSecure :
    (∃ (s : State) (l : Fin 24), ((s.links[l]).st = .up ∨ (s.links[l]).st = .securing)) ∧
    (∃ (s : State) (l : Fin 24), (s.links[l]).signal = false ∧ (s.links[l]).mode ≠ 0 ∧ ((s.links[l]).st = .training ∨ (s.links[l]).st =
      .failed)) :=
  ⟨⟨up, 0, by decide +kernel⟩,
    ⟨withLink { linkE with signal := false, st := .training }, 3, by decide +kernel⟩⟩

/-- States and operands that meet the hypotheses of LinksTrainAndSecure, for further clauses. -/
theorem test_meets_LinksTrainAndSecure_2 :
    (∃ (s : State) (l : Fin 24), (s.links[l]).st = .training ∧ (s.links[l]).signal ∧ (s.links[l]).bin.eph = 0) ∧
    (∃ (s : State) (l : Fin 24) (mismatch : Bool), s.mkaRuns l ∧ (mismatch ∨ (s.links[l]).secured)) :=
  ⟨⟨withLink { linkE with st := .training }, 3, by decide +kernel⟩,
    ⟨{ withLink { linkE with macsec := true, secured := true } with pannier := [(11, keyOf 3)] }, 3, true, by decide +kernel⟩⟩

/-- States and operands that meet the hypotheses of LinksTrainAndSecure, for further clauses. -/
theorem test_meets_LinksTrainAndSecure_3 :
    (∃ (s : State) (l : Fin 24), (2 ^ 62 ≤ (s.links[l]).pnTx ∨ 2 ^ 62 ≤ (s.links[l]).pnRx) ∧ (s.links[l]).secured ∧ (s.links[l]).st = .up) ∧
    (∃ (s : State) (l : Fin 24) (f : Frame) (prio sci : Nat) (wrapped key : List Byte), s.mkaRuns l ∧ (s.links[l]).st = .securing ∧
      (s.links[l]).secured = false ∧ f.fcsOk ∧ f.len ≤ 9216 ∧ f.body = .mkaSak prio sci (some wrapped) ∧ prio < 16 ∧ aesUnwrap (s.kekOf l)
      wrapped = some key) :=
  ⟨⟨withLink { linkE with macsec := true, secured := true, pnTx := 2 ^ 62 }, 3, by decide +kernel⟩,
    ⟨securing, 3, frameA (.mkaSak 0 7 (some (List.replicate 8 0xA6))) true, 0, 7, List.replicate 8 0xA6, [], by decide +kernel⟩⟩

/-- States and operands that meet the hypotheses of LinksTrainAndSecure, for further clauses. -/
theorem test_meets_LinksTrainAndSecure_4 :
    (∃ (s : State) (l : Fin 24) (f : Frame) (prio sci : Nat) (wrapped : List Byte), s.mkaRuns l ∧ f.fcsOk ∧ f.len ≤ 9216 ∧ f.body = .mkaSak
      prio sci (some wrapped) ∧ prio < 16 ∧ aesUnwrap (s.kekOf l) wrapped = none) ∧
    (∃ (s : State) (l : Fin 24) (prio : Fin 8) (x : Nat), (s.links[l]).paused.find? (fun e => e.1 == prio.val) = some (prio.val, x)) :=
  ⟨⟨securing, 3, frameA (.mkaSak 0 7 (some [])) true, 0, 7, [], by decide +kernel⟩,
    ⟨withLink { linkE with paused := [(7, 50)] }, 3, 7, 50, by decide +kernel⟩⟩

/-- States and operands that meet the hypotheses of BinigalLinksAreReliable, one for each of its clauses. -/
theorem test_meets_BinigalLinksAreReliable :
    (∃ (s : State) (l : Fin 24), (s.links[l]).binOpen) ∧
    (∃ (s : State) (l : Fin 24), (s.links[l]).binOpen ∧ ((s.links[l]).bin).replay ≠ []) :=
  ⟨⟨withLink linkT, 3, by decide +kernel⟩,
    ⟨withLink linkT, 3, by decide +kernel⟩⟩

/-- States and operands that meet the hypotheses of BinigalLinksAreReliable, for further clauses. -/
theorem test_meets_BinigalLinksAreReliable_2 :
    ∃ (s : State) (l : Fin 24), (s.links[l]).binOpen ∧ 2 ^ 40 ≤ ((s.links[l]).bin).txc :=
  ⟨withLink { linkT with bin := { linkT.bin with txc := 2 ^ 40 } }, 3, by decide +kernel⟩

/-- States and operands that meet the hypotheses of TandemKeepsTimeKeysAndPorts, one for each of its clauses. -/
theorem test_meets_TandemKeepsTimeKeysAndPorts :
    (∃ (s : State) (l : Fin 24) (f : BFrame) (g : GroupDesc) (me y : Nat), (f.arg1 = 0 ∧ g.farEnd me l = some y) ∧ Arrives s l f g me) ∧
    (∃ (s : State) (l : Fin 24) (f : BFrame) (g : GroupDesc) (me : Nat), f.arg1 = 1 ∧ Arrives s l f g me) :=
  ⟨⟨tandem true, 2, frameT 6 1 0 0 0, groupT deviceFp true, 0, 1, by decide +kernel, ⟨by decide +kernel, by decide +kernel, member_of
      true _ rfl rfl⟩⟩,
    ⟨tandem true, 2, frameT 6 1 0 0 1, groupT deviceFp true, 0, by decide +kernel, ⟨by decide +kernel, by decide +kernel, member_of true _
      rfl rfl⟩⟩⟩

/-- States and operands that meet the hypotheses of TandemKeepsTimeKeysAndPorts, for further clauses. -/
theorem test_meets_TandemKeepsTimeKeysAndPorts_2 :
    (∃ (s : State) (l : Fin 24) (f : BFrame) (g : GroupDesc) (me : Nat), f.dst = me ∧ Arrives s l f g me) ∧
    (∃ (s : State) (g : GroupDesc) (me : Nat), s.boot.phase = .ready ∧ s.member = some (g, me)) :=
  ⟨⟨tandem true, 2, frameT 7 1 0 0 0, groupT deviceFp true, 0, by decide +kernel, ⟨by decide +kernel, by decide +kernel, member_of true _
      rfl rfl⟩⟩,
    ⟨tandem true, groupT deviceFp true, 0, by decide +kernel, member_of true _ rfl rfl⟩⟩

/-- States and operands that meet the hypotheses of TandemKeepsTimeKeysAndPorts, for further clauses. -/
theorem test_meets_TandemKeepsTimeKeysAndPorts_3 :
    (∃ (s : State) (l : Fin 24) (g : GroupDesc) (me : Nat), (s.links[l].mode = 3 ∧ s.links[l].signal ∧ s.links[l].st = .training ∧
      s.links[l].bin.eph ≠ 0) ∧ s.member = some (g, me)) ∧
    (∃ (s : State) (bid p : Fin 16) (port : Fin 32) (g : GroupDesc) (me : Nat) (b : BindDesc) (x : PortDesc) (ctr : CtrRef), (s.bound g me
      bid.val = some (b, p) ∧ b.ports[port.val]? = some x ∧ x.src = me ∧ s.parts[p].counterRef (x.trigger / 2048) (x.trigger % 2048) = some
      ctr ∧ ((Table.get? s.tandem.sent (b.id * 32 + port.val)).getD 0) < (((s.toTick p).syncDram p).counter ctr).value) ∧ s.member = some
      (g, me)) :=
  ⟨⟨{ tandem true with links := up.links.set 2 { linkT with st := .training } }, 2, groupT deviceFp true, 0, by decide +kernel, member_of
      true _ rfl rfl⟩,
    ⟨(tandem true).modCluster 0 (fun x => { x with counters := [(3, { Counter.zero with value := 1 })] }), 5, 0, 1, groupT deviceFp true,
      0, bindT, ⟨0, 1, 1, 3, 4, 1, 0x300000, 0⟩, ⟨0, 3⟩, by decide +kernel, member_of true _ rfl rfl⟩⟩

/-- States and operands that meet the hypotheses of SensorsThrottleAndTrip, one for each of its clauses. -/
theorem test_meets_SensorsThrottleAndTrip :
    (∃ (s : State), s.powered) ∧
    (∃ (s : State) (reading : Nat), s.railsOn ∧ 440 ≤ reading) :=
  ⟨⟨up, by decide +kernel⟩,
    ⟨up, 440, by decide +kernel⟩⟩

/-- States and operands that meet the hypotheses of SupplyHoldsAndBrownouts, one for each of its clauses. -/
theorem test_meets_SupplyHoldsAndBrownouts :
    (∃ (s : State), s.railsOn) ∧
    (∃ (s : State) (h : SupplyHold), s.power.hold = some h ∧ s.bootStopped = false) :=
  ⟨⟨up, by decide +kernel⟩,
    ⟨{ up with power := { up.power with hold := some ⟨0, 9000, none⟩ } }, ⟨0, 9000, none⟩, by decide +kernel⟩⟩

/-- States and operands that meet the hypotheses of SupplyHoldsAndBrownouts, for further clauses. -/
theorem test_meets_SupplyHoldsAndBrownouts_2 :
    (∃ (s : State) (hold : Bool), (if hold then s.power.resHold else s.power.resThrottle).deferred) ∧
    (∃ (s : State) (x : Nat), s.powered ∧ s.power.resumeAfter = some x ∧ s.power.hold = none) :=
  ⟨⟨{ up with power := { up.power with resHold := ⟨none, true, false⟩ } }, true, by decide +kernel⟩,
    ⟨{ up with power := { up.power with resumeAfter := some 5 } }, 5, by decide +kernel⟩⟩

/-- States and operands that meet the hypotheses of EntropyIsTestedAndDelivered, one for each of its clauses. -/
theorem test_meets_EntropyIsTestedAndDelivered :
    (∃ (s : State) (b : Fin 18) (i : Bool), s.noiseOn ∧ (s.banks[b].src i).st ≠ .retired ∧ (s.banks[b].src i).settleUntil = none) ∧
    (∃ (s : State) (b : Fin 18) (i : Bool) (x : Nat), (s.banks[b].src i).settleUntil = some x) :=
  ⟨⟨up, 0, false, by decide +kernel⟩,
    ⟨{ up with banks := up.banks.set 0 { bankA with src0 := { bankA.src0 with settleUntil := some 5 } } }, 0, false, 5, by decide +kernel⟩⟩

/-- States and operands that meet the hypotheses of EntropyIsTestedAndDelivered, for further clauses. -/
theorem test_meets_EntropyIsTestedAndDelivered_2 :
    (∃ (s : State) (b : Fin 18) (p : Nat) (c : Fin 32), 0 < s.banks[b].level ∧ s.banks[b].stateCode ≠ 4 ∧ s.banks[b].role = .owned p ∧
      (s.banks[b].delivered + 1) % 64 ≠ 0 ∧ s.needsWord s.parts[pid p].clusterList = some c) ∧
    (∃ (s : State) (b : Fin 18) (p : Nat), 0 < s.banks[b].level ∧ s.banks[b].stateCode ≠ 4 ∧ s.banks[b].role = .owned p ∧
      (s.banks[b].delivered + 1) % 64 ≠ 0 ∧ s.needsWord s.parts[pid p].clusterList = none) :=
  ⟨⟨up, 0, 0, 0, by decide +kernel⟩,
    ⟨{ up with clusters := Vector.replicate 32 { Cluster.reset with reseedBuf := List.replicate 6 7 } }, 0, 0, by decide +kernel⟩⟩

/-- States and operands that meet the hypotheses of EntropyIsTestedAndDelivered, for further clauses. -/
theorem test_meets_EntropyIsTestedAndDelivered_3 :
    (∃ (s : State) (b : Fin 18), (0 < s.banks[b].level ∧ s.banks[b].stateCode ≠ 4) ∧ (s.banks[b].role = .unallocated ∨ s.banks[b].role =
      .spare ∨ (∃ p, s.banks[b].role = .owned p ∧ (s.banks[b].delivered + 1) % 64 = 0))) ∧
    (∃ (s : State) (ch : Fin 17) (h y : Held), s.chans[ch].held = some h ∧ h.why = .entropy ∧ (((s.advance (h.req.since + 50 *
      ms)).inService ch).resume ch).chans[ch].held = some y ∧ y.why = .entropy) :=
  ⟨⟨{ up with banks := up.banks.set 0 { bankA with delivered := 63 } }, 0, by decide +kernel, Or.inr (Or.inr ⟨0, by decide +kernel,
      by decide +kernel⟩)⟩,
    ⟨{ holding up 1 0x0403 [0] .entropy with banks := up.banks.set 0 { bankA with buf := [] } }, 1, (⟨reqA 0x0403 [0], .entropy⟩ : Held),
      (⟨reqA 0x0403 [0], .entropy⟩ : Held), by decide +kernel⟩⟩

/-- States and operands that meet the hypotheses of EntropyIsTestedAndDelivered, for further clauses. -/
theorem test_meets_EntropyIsTestedAndDelivered_4 :
    (∃ (s : State) (ch : Fin 17) (h : Held), s.chans[ch].held = some h ∧ h.why = .entropy ∧ (∀ y, (((s.advance (h.req.since + 50 *
      ms)).inService ch).resume ch).chans[ch].held = some y → y.why ≠ .entropy)) ∧
    (∃ (s : State) (b : Fin 18) (i : Bool) (raw : List Bool) (p : Fin 16) (r : Req), s.noiseOn ∧ (s.banks[b].src i).st ≠ .retired ∧
      (s.banks[b].src i).settleUntil = none ∧ ((repTest (s.banks[b].src i).lastBit (s.banks[b].src i).run (xorStage raw)).2.2 ∨ propFails
      (xorStage raw)) ∧ 4 ≤ ((s.banks[b].src i).fails.filter (fun n => n + 2 ^ 20 > (s.banks[b].src i).blocks + 1)).length + 1 ∧
      (s.banks[b].src (!i)).st = .retired ∧ s.banks[b].role = .owned p.val ∧ s.standbyBanks = [] ∧ s.parts[p].st = .creating ∧ s.pf.held =
      some ⟨r, .creation p.val⟩) :=
  ⟨⟨holding up 1 0x0401 [] .entropy, 1, ⟨reqA 0x0401 [], .entropy⟩, by decide +kernel⟩,
    ⟨{ holding (up.modPart 0 (fun q => { q with st := .creating })) 0 0x0201 [] (.creation 0) with banks := Vector.replicate 18 { bankA with role := .none, src1 := { Source.reset with st := .retired } } |>.set 0 { bankA with src0 := { Source.reset with st := .running, fails := [0, 1, 2] }, src1 := { Source.reset with st := .retired } } },
      0, false, List.replicate 1536 true, 0, reqA 0x0201 [], by decide +kernel⟩⟩

/-- States and operands that meet the hypotheses of PartStartsAndStops, one for each of its clauses. -/
theorem test_meets_PartStartsAndStops :
    (∃ (s : State), s.boot.phase = .off ∧ s.boot.resetLow = false) ∧
    (∃ (s : State), s.boot.phase = .inReset ∧ s.boot.resetLow) :=
  ⟨⟨State.reset, by decide +kernel⟩,
    ⟨{ up with boot := { up.boot with phase := .inReset, resetLow := true } }, by decide +kernel⟩⟩

/-- States and operands that meet the hypotheses of PartStartsAndStops, for further clauses. -/
theorem test_meets_PartStartsAndStops_2 :
    (∃ (s : State) (width : Nat), 1000 ≤ width ∧ s.boot.resetLow = false ∧ s.powered) ∧
    (∃ (s : State) (e : BootEvents), s.boot.phase = .booting ∧ s.boot.failStep = 0 ∧ s.boot.step < 6 ∧ s.boot.timeouts.length = 2 ∧
      s.boot.fwSlot < 2 ∧ s.boot.bootSlot < 2 ∧ e.reaches < 2 ∧ e.fails = false) :=
  ⟨⟨{ up with boot := { up.boot with resetLow := false } }, 1000, by decide +kernel⟩,
    ⟨{ up with boot := { up.boot with phase := .booting, step := 1, timeouts := [2, 0] } }, { BootEvents.clean with reaches := 1 },
      by decide +kernel⟩⟩

/-- States and operands that meet the hypotheses of PartStartsAndStops, for further clauses. -/
theorem test_meets_PartStartsAndStops_3 :
    (∃ (s : State), 0 < s.boot.step) ∧
    (∃ (s : State), (s.boot.phase = .ready ∨ s.boot.phase = .deviceFault)) :=
  ⟨⟨up, by decide +kernel⟩,
    ⟨up, by decide +kernel⟩⟩

/-- States and operands that meet the hypotheses of DeviceResets, one for each of its clauses. -/
theorem test_meets_DeviceResets :
    (∃ (s : State) (c : Cmd) (w : W64), takes s 0 0x0103 c ∧ c.payload = [w] ∧ nonZero w 63 28 = false ∧ nonZero w 23 21 = false ∧ nonZero
      w 15 9 = false ∧ nonZero w 7 3 = false ∧ bits w 2 0 ≤ 1 ∧ nonZero w 27 24 = false ∧ nonZero w 20 16 = false ∧ (bitAt w 8 ∨
      s.noPartition) ∧ s.pf.asyncs = [] ∧ bits w 2 0 = 0) ∧
    (∃ (s : State) (c : Cmd) (w : W64), takes s 0 0x0103 c ∧ c.payload = [w] ∧ nonZero w 63 28 = false ∧ nonZero w 23 21 = false ∧ nonZero
      w 15 9 = false ∧ nonZero w 7 3 = false ∧ bits w 2 0 ≤ 1 ∧ nonZero w 27 24 = false ∧ nonZero w 20 16 = false ∧ (bitAt w 8 ∨
      s.noPartition) ∧ s.pf.asyncs = [] ∧ bits w 2 0 = 1 ∧ s.boot.resetLow = false) :=
  ⟨⟨up, pf [w64 (2 ^ 8)], w64 (2 ^ 8), by decide +kernel⟩,
    ⟨up, pf [w64 (2 ^ 8 + 1)], w64 (2 ^ 8 + 1), by decide +kernel⟩⟩

/-- States and operands that meet the hypotheses of DeviceResets, for further clauses. -/
theorem test_meets_DeviceResets_2 :
    (∃ (s : State) (c : Cmd) (w : W64) (l : Fin 24), takes s 0 0x0103 c ∧ c.payload = [w] ∧ nonZero w 63 28 = false ∧ nonZero w 23 21 =
      false ∧ nonZero w 15 9 = false ∧ nonZero w 7 3 = false ∧ bits w 2 0 = 2 ∧ nonZero w 27 24 = false ∧ bits w 20 16 = l.val ∧ (bitAt w 8
      ∨ s.linkNamed l = false)) ∧
    (∃ (s : State) (c : Cmd) (w : W64) (p : Fin 16), takes s 0 0x0103 c ∧ c.payload = [w] ∧ nonZero w 63 28 = false ∧ nonZero w 23 21 =
      false ∧ nonZero w 15 9 = false ∧ nonZero w 7 3 = false ∧ bits w 2 0 = 3 ∧ nonZero w 20 16 = false ∧ bitAt w 8 = false ∧ bits w 27 24 =
      p.val ∧ s.parts[p].st = .active ∧ s.parts[p].job.running = none) :=
  ⟨⟨up, pf [w64 (23 * 2 ^ 16 + 2)], w64 (23 * 2 ^ 16 + 2), 23, by decide +kernel⟩,
    ⟨up, pf [w64 3], w64 3, 0, by decide +kernel⟩⟩

/-- States and operands that meet the hypotheses of DeviceResets, for further clauses. -/
theorem test_meets_DeviceResets_3 :
    (∃ (s : State) (c : Cmd) (w : W64) (p : Fin 16) (r : Running), takes s 0 0x0103 c ∧ c.payload = [w] ∧ nonZero w 63 28 = false ∧ nonZero
      w 23 21 = false ∧ nonZero w 15 9 = false ∧ nonZero w 7 3 = false ∧ bits w 2 0 = 3 ∧ nonZero w 20 16 = false ∧ bitAt w 8 = false ∧ bits
      w 27 24 = p.val ∧ s.parts[p].st = .active ∧ s.parts[p].job.running = some r) ∧
    (∃ (s : State) (c : Cmd) (w : W64), s.boot.phase = .fatal ∧ takes { s with boot := { s.boot with phase := .ready } } 0 0x0103 c ∧
      c.payload = [w] ∧ bits w 2 0 = 1 ∧ nonZero w 63 9 = false ∧ nonZero w 7 3 = false ∧ (bitAt w 8 ∨ s.noPartition) ∧ s.pf.asyncs = [] ∧
      s.boot.resetLow = false) :=
  ⟨⟨running runA, pf [w64 3], w64 3, 0, runA, by decide +kernel⟩,
    ⟨{ up with boot := { up.boot with phase := .fatal } }, pf [w64 (2 ^ 8 + 1)], w64 (2 ^ 8 + 1), by decide +kernel⟩⟩

/-- States and operands that meet the hypotheses of RecordsAndImagesAreWritten, one for each of its clauses. -/
theorem test_meets_RecordsAndImagesAreWritten :
    (∃ (s : State) (c : Cmd) (body : List Byte) (ws : List W64), takes s 0 0x0801 c ∧ c.payload = w64 body.length :: 0 :: ws ∧ body.length
      ≤ 1048576 ∧ ws.length = ceilDiv body.length 8 ∧ (wordsToBytes ws).take body.length = body ∧ ((wordsToBytes ws).drop body.length).any
      (· != 0) = false ∧ bodyOk tandemOk body ∧ s.boot.cfgSlot < 2 ∧ s.nvm.cfg.length = 2 ∧ s.nvm.cfgWorn.contains (1 - s.boot.cfgSlot) =
      false ∧ ((s.activeRecord.map ConfigRec.seq).getD 0 + 1) < 2 ^ 64) ∧
    (∃ (s : State) (c : Cmd) (body : List Byte) (ws : List W64), takes s 0 0x0801 c ∧ c.payload = w64 body.length :: 0 :: ws ∧ body.length
      ≤ 1048576 ∧ ws.length = ceilDiv body.length 8 ∧ (wordsToBytes ws).take body.length = body ∧ ((wordsToBytes ws).drop body.length).any
      (· != 0) = false ∧ bodyOk tandemOk body ∧ s.boot.cfgSlot < 2 ∧ s.nvm.cfg.length = 2 ∧ s.nvm.cfgWorn.contains (1 - s.boot.cfgSlot)) :=
  ⟨⟨bare, pf (w64 104 :: 0 :: bodyWords), bodyA, bodyWords, by decide +kernel⟩,
    ⟨{ bare with nvm := { bare.nvm with cfgWorn := [1] } }, pf (w64 104 :: 0 :: bodyWords), bodyA, bodyWords, by decide +kernel⟩⟩

/-- States and operands that meet the hypotheses of RecordsAndImagesAreWritten, for further clauses. -/
theorem test_meets_RecordsAndImagesAreWritten_2 :
    (∃ (s : State) (c : Cmd) (body : List Byte) (ws : List W64), takes s 0 0x0801 c ∧ c.payload = w64 body.length :: 0 :: ws ∧ body.length
      ≤ 1048576 ∧ ws.length = ceilDiv body.length 8 ∧ (wordsToBytes ws).take body.length = body ∧ ((wordsToBytes ws).drop body.length).any
      (· != 0) = false ∧ bodyOk tandemOk body = false) ∧
    (∃ (s : State) (c : Cmd) (b : List Byte) (ws : List W64), takes s 0 0x0803 c ∧ c.payload = w64 b.length :: 0 :: ws ∧ b.length ≤
      33554432 + 4096 ∧ ws.length = ceilDiv b.length 8 ∧ (wordsToBytes ws).take b.length = b ∧ ((wordsToBytes ws).drop b.length).any (· !=
      0) = false ∧ s.boot.fwSlot < 2 ∧ s.nvm.fw.length = 2 ∧ s.nvm.committed = (1 - s.boot.fwSlot)) :=
  ⟨⟨bare, pf [w64 8, 0, 0], zeros 8, [0], by decide +kernel⟩,
    ⟨{ bare with nvm := { bare.nvm with bootCtl := ⟨⟨1, true, 1⟩, ⟨2, true, 1⟩⟩ } }, pf [w64 8, 0, 0], zeros 8, [0], by decide +kernel⟩⟩

/-- States and operands that meet the hypotheses of RecordsAndImagesAreWritten, for further clauses. -/
theorem test_meets_RecordsAndImagesAreWritten_3 :
    (∃ (s : State) (c : Cmd) (b : List Byte) (ws : List W64), takes s 0 0x0803 c ∧ c.payload = w64 b.length :: 0 :: ws ∧ b.length ≤
      33554432 + 4096 ∧ ws.length = ceilDiv b.length 8 ∧ (wordsToBytes ws).take b.length = b ∧ ((wordsToBytes ws).drop b.length).any (· !=
      0) = false ∧ s.boot.fwSlot < 2 ∧ s.nvm.fw.length = 2 ∧ s.nvm.committed ≠ (1 - s.boot.fwSlot)) ∧
    (∃ (s : State) (c : Cmd) (slot : Nat) (i : FwImage), takes s 0 0x0804 c ∧ slot < 2 ∧ c.payload = [w64 slot] ∧ s.nvm.acceptable slot ∧
      s.nvm.fw.getD slot none = some i) :=
  ⟨⟨bare, pf [w64 8, 0, 0], zeros 8, [0], by decide +kernel⟩,
    ⟨{ bare with nvm := { bare.nvm with fw := [some ⟨0, 0, 0, 0, zeros 48⟩, none], antiRollback := 0 } }, pf [0], 0, ⟨0, 0, 0, 0, zeros
      48⟩, by decide +kernel⟩⟩

/-- States and operands that meet the hypotheses of RecordsAndImagesAreWritten, for further clauses. -/
theorem test_meets_RecordsAndImagesAreWritten_4 :
    ∃ (s : State) (c : Cmd) (slot : Nat), takes s 0 0x0804 c ∧ slot < 2 ∧ c.payload = [w64 slot] ∧ s.nvm.acceptable slot = false :=
  ⟨bare, pf [1], 1, by decide +kernel⟩

/-- States and operands that meet the hypotheses of SpdmAnswers, one for each of its clauses. -/
theorem test_meets_SpdmAnswers :
    (∃ (s : State) (ep : Fin 18) (req : List Byte), s.spdmReachable ep ∧ (s.keyAt 0).isSome ∧ 4 ≤ req.length ∧ req.length ≤ 4096 ∧
      req.headD 0 = 0x10) ∧
    (∃ (s : State) (ep : Fin 18) (req : List Byte), s.spdmReachable ep ∧ (s.keyAt 0).isSome ∧ 4 ≤ req.length ∧ req.length ≤ 4096 ∧
      req.headD 0 = 0x13 ∧ (s.spdm[ep]).version ∧ (s.spdm[ep]).caps = false) :=
  ⟨⟨up, 0, [0x10, 0x84, 0, 0], by decide +kernel⟩,
    ⟨spdmAt ⟨true, false, false, [], [], []⟩, 0, [0x13, 0xE1, 0, 0], by decide +kernel⟩⟩

/-- States and operands that meet the hypotheses of SpdmAnswers, for further clauses. -/
theorem test_meets_SpdmAnswers_2 :
    (∃ (s : State) (ep : Fin 18) (req : List Byte), s.spdmReachable ep ∧ (s.keyAt 0).isSome ∧ 4 ≤ req.length ∧ req.length ≤ 4096 ∧
      req.headD 0 = 0x13 ∧ ((s.spdm[ep]).version = false ∨ (s.spdm[ep]).caps)) ∧
    (∃ (s : State) (ep : Fin 18) (req : List Byte), s.spdmReachable ep ∧ (s.keyAt 0).isSome ∧ 4 ≤ req.length ∧ req.length ≤ 4096 ∧
      req.headD 0 = 0x13 ∧ (s.spdm[ep]).caps ∧ (s.spdm[ep]).algos = false ∧ spdmOffers (((fun (code : Nat) => [req.headD 0, byte code] ++
      req.drop 2)) 0xE3)) :=
  ⟨⟨up, 0, [0x13, 0xE1, 0, 0], by decide +kernel⟩,
    ⟨spdmAt ⟨true, true, false, [], [], []⟩, 0, [0x13, 0xE3, 0, 0, 0, 0, 1, 0, 0x80, 0, 0, 0, 2, 0, 0, 0], by decide +kernel⟩⟩

/-- States and operands that meet the hypotheses of SpdmAnswers, for further clauses. -/
theorem test_meets_SpdmAnswers_3 :
    (∃ (s : State) (ep : Fin 18) (req : List Byte), s.spdmReachable ep ∧ (s.keyAt 0).isSome ∧ 4 ≤ req.length ∧ req.length ≤ 4096 ∧
      req.headD 0 = 0x13 ∧ (s.spdm[ep]).algos) ∧
    (∃ (s : State) (ep : Fin 18) (req : List Byte), s.spdmReachable ep ∧ (s.keyAt 0).isSome ∧ 4 ≤ req.length ∧ req.length ≤ 4096 ∧
      req.headD 0 = 0x13 ∧ (s.spdm[ep]).algos ∧ (req.getD 2 0).toNat % 16 = 0 ∧ leNat ((req.drop 4).take 2) < spdmChain.length) :=
  ⟨⟨spdmAt ⟨true, true, true, [], [], []⟩, 0, [0x13, 0x81, 0, 0], by decide +kernel⟩,
    ⟨spdmAt ⟨true, true, true, [], [], []⟩, 0, [0x13, 0x82, 0, 0], by decide +kernel⟩⟩

/-- States and operands that meet the hypotheses of SpdmAnswers, for further clauses. -/
theorem test_meets_SpdmAnswers_4 :
    (∃ (s : State) (ep : Fin 18) (req h : List Byte), s.spdmReachable ep ∧ (s.keyAt 0).isSome ∧ 4 ≤ req.length ∧ req.length ≤ 4096 ∧
      req.headD 0 = 0x13 ∧ (s.spdm[ep]).algos ∧ 44 ≤ req.length ∧ req.getD 2 0 = 0 ∧ s.summary ep (req.getD 3 0).toNat = some h) ∧
    (∃ (s : State) (ep : Fin 18) (req : List Byte), s.spdmReachable ep ∧ (s.keyAt 0).isSome ∧ 4 ≤ req.length ∧ req.length ≤ 4096 ∧
      req.headD 0 = 0x13 ∧ (s.spdm[ep]).algos ∧ ((req.getD 3 0).toNat = 0 ∨ s.measBlocks ep (if (req.getD 3 0).toNat = 0xFF then
      allMeasurements else [(req.getD 3 0).toNat]) ≠ []) ∧ (req.getD 2 0).toNat % 2 = 0) :=
  ⟨⟨spdmAt ⟨true, true, true, [], [], []⟩, 0, 0x13 :: zeros 43, [], by decide +kernel⟩,
    ⟨spdmAt ⟨true, true, true, [], [], []⟩, 0, [0x13, 0xE0, 0, 0], by decide +kernel⟩⟩

/-- States and operands that meet the hypotheses of SpdmAnswers, for further clauses. -/
theorem test_meets_SpdmAnswers_5 :
    (∃ (s : State) (ep : Fin 18) (req : List Byte), s.spdmReachable ep ∧ (s.keyAt 0).isSome ∧ 4 ≤ req.length ∧ req.length ≤ 4096 ∧
      req.headD 0 = 0x13 ∧ (s.spdm[ep]).algos ∧ ((req.getD 3 0).toNat = 0 ∨ s.measBlocks ep (if (req.getD 3 0).toNat = 0xFF then
      allMeasurements else [(req.getD 3 0).toNat]) ≠ []) ∧ (req.getD 2 0).toNat % 2 = 1 ∧ 45 ≤ req.length ∧ (req.getD 36 0).toNat % 16 = 0) ∧
    (∃ (s : State) (ep : Fin 18) (req : List Byte), s.spdmReachable ep ∧ (s.keyAt 0).isSome ∧ 4 ≤ req.length ∧ req.length ≤ 4096 ∧
      req.headD 0 ≠ 0x13) :=
  ⟨⟨spdmAt ⟨true, true, true, [], [], []⟩, 0, [0x13, 0xE0, 1, 0] ++ zeros 41, by decide +kernel⟩,
    ⟨up, 0, [0x12, 0, 0, 0], by decide +kernel⟩⟩

/-- States and operands that meet the hypotheses of SpdmAnswers, for further clauses. -/
theorem test_meets_SpdmAnswers_6 :
    ∃ (s : State) (ep : Fin 18) (req : List Byte), s.spdmReachable ep ∧ (s.keyAt 0).isSome ∧ 4 ≤ req.length ∧ req.length ≤ 4096 :=
  ⟨up, 0, [0x12, 0, 0, 0], by decide +kernel⟩

/-- States and operands that meet the hypotheses of ManagementPortAnswers, one for each of its clauses. -/
theorem test_meets_ManagementPortAnswers :
    (∃ (s : State) (a : Nat), s.i3c.up ∧ s.i3c.dynAddr = some a) ∧
    (∃ (s : State) (a : Nat), s.i3c.up ∧ s.i3c.dynAddr = some a) :=
  ⟨⟨up, 9, by decide +kernel⟩,
    ⟨up, 9, by decide +kernel⟩⟩

/-- States and operands that meet the hypotheses of ManagementPortAnswers, for further clauses. -/
theorem test_meets_ManagementPortAnswers_2 :
    (∃ (s : State), s.i3c.up ∧ s.i3c.dynAddr = none) ∧
    (∃ (s : State) (a : Nat), s.i3c.up ∧ s.i3c.dynAddr = none ∧ a < 128) :=
  ⟨⟨{ up with i3c := { up.i3c with dynAddr := none } }, by decide +kernel⟩,
    ⟨{ up with i3c := { up.i3c with dynAddr := none } }, 127, by decide +kernel⟩⟩

/-- States and operands that meet the hypotheses of ManagementPortAnswers, for further clauses. -/
theorem test_meets_ManagementPortAnswers_3 :
    (∃ (s : State) (a static : Nat), s.i3c.up ∧ s.i3c.dynAddr = none ∧ a < 128 ∧ static ≠ 0x2C) ∧
    (∃ (s : State) (b : Nat), s.i3c.up ∧ s.i3c.dynAddr = some b) :=
  ⟨⟨{ up with i3c := { up.i3c with dynAddr := none } }, 127, 0x2D, by decide +kernel⟩,
    ⟨up, 9, by decide +kernel⟩⟩

/-- States and operands that meet the hypotheses of ManagementPortAnswers, for further clauses. -/
theorem test_meets_ManagementPortAnswers_4 :
    (∃ (s : State), s.i3c.up) ∧
    (∃ (s : State) (a : Nat), s.i3c.up ∧ s.i3c.dynAddr = some a) :=
  ⟨⟨up, by decide +kernel⟩,
    ⟨up, 9, by decide +kernel⟩⟩

/-- States and operands that meet the hypotheses of ManagementPortAnswers, for further clauses. -/
theorem test_meets_ManagementPortAnswers_5 :
    (∃ (s : State) (a x : Nat), s.i3c.up ∧ s.i3c.dynAddr = some a ∧ x ≠ a) ∧
    (∃ (s : State) (a mask : Nat), s.i3c.up ∧ (a = 0x7E ∨ s.i3c.dynAddr = some a) ∧ mask < 256) :=
  ⟨⟨up, 9, 8, by decide +kernel⟩,
    ⟨up, 0x7E, 255, by decide +kernel⟩⟩

/-- States and operands that meet the hypotheses of JtagShifts, one for each of its clauses. -/
theorem test_meets_JtagShifts :
    (∃ (s : State), s.boot.phase ≠ .off ∧ s.boot.phase ≠ .tripped) ∧
    (∃ (s : State) (e : List Bool → List Bool → Instr) (j : JtagInstr), (s.boot.phase ≠ .off ∧ s.boot.phase ≠ .tripped ∧
      s.debugAccess.unlocked) ∧ (e, j) ∈ [(Instr.extest, JtagInstr.extest), (.samplePreload, .samplePreload), (.extestPulse, .extestPulse),
      (.extestTrain, .extestTrain)]) :=
  ⟨⟨up, by decide +kernel⟩,
    ⟨{ up with debugAccess := { up.debugAccess with unlocked := true } }, Instr.extest, JtagInstr.extest, by decide +kernel, (by simp)⟩⟩

/-- States and operands that meet the hypotheses of JtagShifts, for further clauses. -/
theorem test_meets_JtagShifts_2 :
    ∃ (s : State) (e : List Bool → List Bool → Instr) (j : JtagInstr), (s.boot.phase ≠ .off ∧ s.boot.phase ≠ .tripped ∧
    s.debugAccess.unlocked = false) ∧ (e, j) ∈ [(Instr.extest, JtagInstr.extest), (.samplePreload, .samplePreload), (.extestPulse,
    .extestPulse), (.extestTrain, .extestTrain)] :=
  ⟨up, Instr.extest, JtagInstr.extest, by decide +kernel, (by simp)⟩

/-- States and operands that meet the hypotheses of TurnsServeTheirChannels, one for each of its clauses. -/
theorem test_meets_TurnsServeTheirChannels :
    (∃ (s : State) (ch : Fin 17) (h : Held), (s.mailboxReady ∧ s.boot.readyAt ≤ s.clock ∧ s.chans[ch].held = some h ∧ h.why.retried =
      false) ∧ (∀ e, h.why ≠ .resetAsync e ∧ h.why ≠ .resetReply e)) ∧
    (∃ (s : State) (ch : Fin 17) (c : Cmd), passes s ch 0x0102 c ∧ onlyWaits s ch 0x0102 c) :=
  ⟨⟨holding up 1 0x0406 [] .zeroise, 1, ⟨reqA 0x0406 [], .zeroise⟩, by decide +kernel, (by intro e; constructor <;> (intro h; cases h))⟩,
    ⟨waits up 1 0x0102 (vf0 []), 1, vf0 [], by decide +kernel, ⟨by decide +kernel, by decide +kernel, by decide +kernel,
      by decide +kernel, by decide +kernel, by decide +kernel, by decide +kernel⟩⟩⟩

/-- States and operands that meet the hypotheses of TurnsServeTheirChannels, for further clauses. -/
theorem test_meets_TurnsServeTheirChannels_2 :
    (∃ (s : State), s.mailboxReady ∧ s.boot.readyAt ≤ s.clock) ∧
    (∃ (s : State) (op : Nat), s.mailboxReady ∧ s.boot.readyAt ≤ s.clock ∧ op < 0x0204) :=
  ⟨⟨up, by decide +kernel⟩,
    ⟨up, 0x0203, by decide +kernel⟩⟩

/-- States and operands that meet the hypotheses of TurnsServeTheirChannels, for further clauses. -/
theorem test_meets_TurnsServeTheirChannels_3 :
    (∃ (s : State), s.mailboxReady ∧ (s.pannier.map Prod.fst).Nodup) ∧
    (∃ (s : State) (n : Fin 16) (r : Req) (loc : Nat) (k : KeySlot) (ch : Fin 17) (p : Fin 16), s.mailboxReady ∧ ch = vf n ∧ p = chanPart
      ch ∧ s.chans[ch].held = some ⟨r, .slotUse loc⟩ ∧ s.parts[p].st = .active ∧ r.op = 0x0404 ∧ r.payload = [w64 loc] ∧ r.discard = false ∧
      s.chans[ch].unplaced = [] ∧ s.chans[ch].rplLevel ≤ 8192 ∧ 16 ≤ loc ∧ loc ≤ 239 ∧ s.keySlot (partSlot p loc) = some k ∧ s.slotInUse p
      loc = false) :=
  ⟨⟨holding up 1 0x0404 [w64 16] (.slotUse 16), by decide +kernel⟩,
    ⟨holding up 1 0x0404 [w64 16] (.slotUse 16), 0, reqA 0x0404 [w64 16], 16, keyOf 4, 1, 0, by decide +kernel⟩⟩

/-- States and operands that meet the hypotheses of RepliesAndFunctionResets, one for each of its clauses. -/
theorem test_meets_RepliesAndFunctionResets :
    (∃ (s : State) (ch : Fin 17) (pkt : List W64) (rest : List (List W64)), (s.chans[ch].unplaced = pkt :: rest ∧ (s.chans[ch].replies.map
      List.length).sum + pkt.length ≤ 16384) ∧ (∀ h, s.chans[ch].held = some h → ∀ e, h.why ≠ .resetAsync e ∧ h.why ≠ .resetReply e)) ∧
    (∃ (s : State) (ch : Fin 17) (pkt : List W64) (rest : List (List W64)), (s.chans[ch].unplaced = pkt :: rest ∧ 16384 <
      (s.chans[ch].replies.map List.length).sum + pkt.length) ∧ (∀ h, s.chans[ch].held = some h → ∀ e, h.why ≠ .resetAsync e ∧ h.why ≠
      .resetReply e)) :=
  ⟨⟨up.modChan 1 (fun c => { c with unplaced := [[1]] }), 1, [1], [], by decide +kernel,
      (by intro h q; cases (show none = some h from q))⟩,
    ⟨up.modChan 1 (fun c => { c with unplaced := [[1]], replies := [List.replicate 16384 0] }), 1, [1], [], by decide +kernel,
      (by intro h q; cases (show none = some h from q))⟩⟩

/-- States and operands that meet the hypotheses of RepliesAndFunctionResets, for further clauses. -/
theorem test_meets_RepliesAndFunctionResets_2 :
    (∃ (s : State) (ch : Fin 17) (pkt : List W64) (rest : List (List W64)) (r : Req) (e : BootEvents), s.chans[ch].unplaced = pkt :: rest ∧
      ch = 0 ∧ s.pf.held = some ⟨r, .resetReply e⟩ ∧ rest = [] ∧ bits (word r.payload 0) 2 0 = 0 ∧ (s.pf.replies.map List.length).sum +
      pkt.length ≤ 16384) ∧
    (∃ (s : State) (r : Req) (rest : List Held) (body : List Byte) (ws : List W64), s.pf.asyncs = ⟨r, .retry⟩ :: rest ∧ s.pf.held = none ∧
      s.pf.unplaced = [] ∧ s.pf.rplLevel ≤ 8192 ∧ r.op = 0x0801 ∧ r.async ∧ r.last ∧ r.chain = none ∧ r.discard = false ∧ r.payload = w64
      body.length :: 0 :: ws ∧ body.length ≤ 1048576 ∧ ws.length = ceilDiv body.length 8 ∧ (wordsToBytes ws).take body.length = body ∧
      ((wordsToBytes ws).drop body.length).any (· != 0) = false ∧ bodyOk tandemOk body ∧ s.boot.cfgSlot < 2 ∧ s.nvm.cfg.length = 2 ∧
      s.nvm.cfgWorn.contains (1 - s.boot.cfgSlot) = false ∧ ((s.activeRecord.map ConfigRec.seq).getD 0 + 1) < 2 ^ 64) :=
  ⟨⟨(holding up 0 0x0103 [0] (.resetReply .clean)).modChan 0 (fun c => { c with unplaced := [[1]] }), 0, [1], [], reqA 0x0103 [0],
      .clean, by decide +kernel⟩,
    ⟨bare.modChan 0 (fun c => { c with asyncs := [⟨asyncA 104 bodyWords, .retry⟩] }), asyncA 104 bodyWords, [], bodyA, bodyWords,
      by decide +kernel⟩⟩

/-- States and operands that meet the hypotheses of RepliesAndFunctionResets, for further clauses. -/
theorem test_meets_RepliesAndFunctionResets_3 :
    (∃ (s : State) (r : Req) (rest : List Held) (body : List Byte) (ws : List W64), s.pf.asyncs = ⟨r, .retry⟩ :: rest ∧ s.pf.held = none ∧
      s.pf.unplaced = [] ∧ s.pf.rplLevel ≤ 8192 ∧ r.op = 0x0801 ∧ r.async ∧ r.last ∧ r.chain = none ∧ r.discard = false ∧ r.payload = w64
      body.length :: 0 :: ws ∧ body.length ≤ 1048576 ∧ ws.length = ceilDiv body.length 8 ∧ (wordsToBytes ws).take body.length = body ∧
      ((wordsToBytes ws).drop body.length).any (· != 0) = false ∧ bodyOk tandemOk body = false) ∧
    (∃ (s : State) (ch : Fin 17), State.reachable s ch) :=
  ⟨⟨bare.modChan 0 (fun c => { c with asyncs := [⟨asyncA 8 [0], .retry⟩] }), asyncA 8 [0], [], zeros 8, [0], by decide +kernel⟩,
    ⟨up, 1, by decide +kernel⟩⟩

/-- States and operands that meet the hypotheses of TandemBarriersRun, one for each of its clauses. -/
theorem test_meets_TandemBarriersRun :
    (∃ (s : State) (l : Fin 24) (f : BFrame) (g : GroupDesc) (me : Nat) (b : BindDesc) (p : Fin 16) (r : BarRound), (f.dst = me ∧
      s.ofBinding g me f.binding = some (b, p) ∧ b.id = f.binding ∧ me = b.root ∧ b.members.contains f.src ∧ s.barRound b.id f.arg0 = r) ∧
      Arrives s l f g me) ∧
    (∃ (s : State) (l : Fin 24) (f : BFrame) (g : GroupDesc) (me : Nat) (b : BindDesc) (p : Fin 16) (r : BarRound), (f.dst = me ∧
      s.ofBinding g me f.binding = some (b, p) ∧ b.id = f.binding ∧ s.bindState f.binding ≠ .down ∧ f.src = b.root ∧ Table.get?
      s.tandem.rounds b.id = some r ∧ r.has r.gen me) ∧ Arrives s l f g me) :=
  ⟨⟨tandem true, 2, frameT 3 1 0 0 0, groupT deviceFp true, 0, bindT, 0, roundT [] none, by decide +kernel, ⟨by decide +kernel,
      by decide +kernel, member_of true _ rfl rfl⟩⟩,
    ⟨tandemIn false (roundT [(1, [])] none), 2, frameT 4 0 1 0 0, groupT deviceFp false, 1, bindT, 0, roundT [(1, [])] none,
      by decide +kernel, ⟨by decide +kernel, by decide +kernel, member_of false _ rfl rfl⟩⟩⟩

/-- States and operands that meet the hypotheses of TandemBarriersRun, for further clauses. -/
theorem test_meets_TandemBarriersRun_2 :
    (∃ (s : State) (l : Fin 24) (f : BFrame) (g : GroupDesc) (me : Nat) (b : BindDesc) (p : Fin 16), (f.dst = me ∧ s.ofBinding g me
      f.binding = some (b, p) ∧ b.id = f.binding ∧ s.bindState f.binding ≠ .down ∧ f.src = b.root) ∧ Arrives s l f g me) ∧
    (∃ (s : State) (bid p : Fin 16) (g : GroupDesc) (me x : Nat) (b : BindDesc) (r : BarRound) (n y : Nat), (s.bound g me bid.val = some
      (b, p) ∧ b.id = bid.val ∧ Table.get? s.tandem.rounds bid.val = some r ∧ r.release = some x ∧ (s.advance (s.clockOfGroup x)).taskCycle
      p = some n ∧ s.lastEntry p = some y) ∧ s.member = some (g, me)) :=
  ⟨⟨tandem false, 2, frameT 5 0 1 0 0, groupT deviceFp false, 1, bindT, 0, by decide +kernel, ⟨by decide +kernel, by decide +kernel,
      member_of false _ rfl rfl⟩⟩,
    ⟨tandemIn true (roundT [] (some 1500)), 5, 0, groupT deviceFp true, 0, 1500, bindT, roundT [] (some 1500), 1875, 10,
      by decide +kernel, member_of true _ rfl rfl⟩⟩

/-- States and operands that meet the hypotheses of TandemBarriersRun, for further clauses. -/
theorem test_meets_TandemBarriersRun_3 :
    (∃ (s : State) (bid p : Fin 16) (g : GroupDesc) (me : Nat) (b : BindDesc) (r : BarRound), (s.bound g me bid.val = some (b, p) ∧ b.id =
      bid.val ∧ Table.get? s.tandem.rounds bid.val = some r ∧ me = b.root ∧ r.release = none ∧ r.heldReported = false) ∧ s.member = some (g,
      me)) ∧
    (∃ (s : State) (p : Fin 16) (r : Running) (x : Nat) (g : GroupDesc) (me : Nat) (b : BindDesc), (s.parts[p].job.running = some r ∧
      s.lastEntry p = some x ∧ r.stopped x = false ∧ s.bindState b.id = .active ∧ me ≠ b.root ∧ Table.get? s.tandem.rounds b.id = none) ∧
      s.bindsOf p = [b] ∧ s.member = some (g, me)) :=
  ⟨⟨tandemIn true (roundT [] none), 5, 0, groupT deviceFp true, 0, bindT, roundT [] none, by decide +kernel, member_of true _ rfl rfl⟩,
    ⟨entering (tandem false), 0, runA, 10, groupT deviceFp false, 1, bindT, by decide +kernel, binds_of false _ rfl rfl, member_of false _
      rfl rfl⟩⟩

/-- States and operands that meet the hypotheses of TandemFramesAct, one for each of its clauses. -/
theorem test_meets_TandemFramesAct :
    (∃ (s : State) (l : Fin 24) (f : BFrame) (g : GroupDesc) (me : Nat) (b : BindDesc) (p : Fin 16) (ctr : CtrRef), (f.dst = me ∧ s.bound g
      me f.binding = some (b, p) ∧ s.parts[p].counterRef (f.arg0 / 2 ^ 43 % 32) (f.arg0 / 2 ^ 32 % 2048) = some ctr ∧ 1 ≤ f.arg1 ∧ f.arg1 ≤
      65536) ∧ Arrives s l f g me) ∧
    (∃ (s : State) (l : Fin 24) (f : BFrame) (g : GroupDesc) (me : Nat) (b : BindDesc) (p : Fin 16) (ctr : CtrRef) (m : Fin 24), (f.dst =
      me ∧ s.bound g me f.binding = some (b, p) ∧ s.parts[p].counterRef (f.arg0 / 2 ^ 43 % 32) (f.arg0 / 2 ^ 32 % 2048) = some ctr ∧
      (s.acked l f).linkFor g me me f.src f.binding = some m) ∧ Arrives s l f g me) :=
  ⟨⟨tandem true, 2, frameT 2 1 0 (2047 * 2 ^ 32) 65536, groupT deviceFp true, 0, bindT, 0, ⟨0, 2047⟩, by decide +kernel,
      ⟨by decide +kernel, by decide +kernel, member_of true _ rfl rfl⟩⟩,
    ⟨tandem true, 2, frameT 10 1 0 (2047 * 2 ^ 32) 0, groupT deviceFp true, 0, bindT, 0, ⟨0, 2047⟩, 2, by decide +kernel,
      ⟨by decide +kernel, by decide +kernel, member_of true _ rfl rfl⟩⟩⟩

/-- States and operands that meet the hypotheses of TandemFramesAct, for further clauses. -/
theorem test_meets_TandemFramesAct_2 :
    (∃ (s : State) (l : Fin 24) (f : BFrame) (g : GroupDesc) (me : Nat) (b : BindDesc) (p : Fin 16) (x : PortDesc) (ctr : CtrRef), (f.dst =
      me ∧ s.bound g me f.binding = some (b, p) ∧ b.ports[f.arg1]? = some x ∧ s.parts[p].counterRef (x.arrive / 2048) (x.arrive % 2048) =
      some ctr ∧ x.dst = me ∧ x.src = f.src ∧ x.dstAddr ≤ f.arg0 ∧ f.arg0 + 4096 ≤ x.dstAddr + x.blocks * x.pages * 4096 ∧ f.arg0 % 4096 = 0
      ∧ f.arg0 + 4096 ≤ s.parts[p].dramSize) ∧ Arrives s l f g me) ∧
    (∃ (s : State) (l : Fin 24) (f : BFrame) (g : GroupDesc) (me : Nat) (m : Fin 24), (f.dst = me ∧ s.bound g me f.binding = none ∧
      (s.acked l f).linkFor g me me f.src f.binding = some m) ∧ Arrives s l f g me) :=
  ⟨⟨tandem true, 2, frameT 1 1 0 0x300000 0, groupT deviceFp true, 0, bindT, 0, ⟨1, 0, 1, 3, 4, 1, 0, 0x300000⟩, ⟨0, 4⟩,
      by decide +kernel, ⟨by decide +kernel, by decide +kernel, member_of true _ rfl rfl⟩⟩,
    ⟨{ tandem true with tandem := Tandem.reset }, 2, frameT 2 1 0 0 1, groupT deviceFp true, 0, 2, by decide +kernel, ⟨by decide +kernel,
      by decide +kernel, member_of true _ rfl rfl⟩⟩⟩

/-- States and operands that meet the hypotheses of TandemFramesAct, for further clauses. -/
theorem test_meets_TandemFramesAct_3 :
    (∃ (s : State) (l : Fin 24) (f : BFrame) (g : GroupDesc) (me : Nat) (p : Fin 16), (f.dst = me ∧ (g.binds.find? (fun b => b.id ==
      f.binding)).bind (fun b => b.local? me) = some p) ∧ Arrives s l f g me) ∧
    (∃ (s : State) (l : Fin 24) (f : BFrame) (g : GroupDesc) (me : Nat), f.dst = me ∧ Arrives s l f g me) :=
  ⟨⟨tandem true, 2, frameT 9 1 0 5 2, groupT deviceFp true, 0, 0, by decide +kernel, ⟨by decide +kernel, by decide +kernel, member_of
      true _ rfl rfl⟩⟩,
    ⟨tandem true, 2, frameT 11 1 0 5 0, groupT deviceFp true, 0, by decide +kernel, ⟨by decide +kernel, by decide +kernel, member_of true
      _ rfl rfl⟩⟩⟩

/-- States and operands that meet the hypotheses of TandemFramesAct, for further clauses. -/
theorem test_meets_TandemFramesAct_4 :
    ∃ (s : State) (l : Fin 24) (f : BFrame) (g : GroupDesc) (me : Nat) (m : Fin 24), (f.dst ≠ me ∧ f.hops < 15 ∧ (s.acked l f).linkFor g me
    f.src f.dst f.binding = some m) ∧ Arrives s l f g me :=
  ⟨tandem true, 2, frameT 2 1 1 5 1, groupT deviceFp true, 0, 2, by decide +kernel, ⟨by decide +kernel, by decide +kernel, member_of true
    _ rfl rfl⟩⟩

/-- States and operands that meet the hypotheses of FormsThatStandApart, one for each of its clauses. -/
theorem test_meets_FormsThatStandApart :
    (∃ (s : State) (ch : Fin 17) (c : Cmd) (tag : Nat) (e : EndedRound), takes s ch 0x0307 c ∧ tag < 2 ^ 11 ∧ c.payload = [w64 tag, 0] ∧
      s.round? (chanPart ch) tag = none ∧ (s.own ch).rnd.ended.find? (fun e => e.tag == tag) = some e ∧ e.summary.length ≤ 9) ∧
    (∃ (s : State) (ch : Fin 17) (width : Nat), State.reachable s ch ∧ (width ≠ 8 ∨ s.chans[ch].cmdLost ∨ s.credits ch = 0)) :=
  ⟨⟨up.modPart 0 (fun q => { q with rnd := { q.rnd with ended := [⟨3, [1, 2]⟩] } }), 1, vf0 [3, 0], 3, ⟨3, [1, 2]⟩, by decide +kernel⟩,
    ⟨up, 1, 4, by decide +kernel⟩⟩

/-- States and operands that meet the hypotheses of FormsThatStandApart, for further clauses. -/
theorem test_meets_FormsThatStandApart_2 :
    (∃ (s : State) (ch : Fin 17) (width : Nat), State.reachable s ch ∧ width ≠ 8) ∧
    (∃ (s : State) (ch : Fin 17) (i : Nat), State.reachable s ch ∧ i < 5 ∧ s.chans[ch].msix.length = 5) :=
  ⟨⟨up, 1, 4, by decide +kernel⟩,
    ⟨up, 1, 4, by decide +kernel⟩⟩

/-- States and operands that meet the hypotheses of FormsThatStandApart, for further clauses. -/
theorem test_meets_FormsThatStandApart_3 :
    (∃ (s : State) (p : Fin 16) (tag i due : Nat) (r : Round) (x : ClosedRange), s.round? p tag = some r ∧ r.range? i = some x ∧ x.deadline
      = some due ∧ r.ending = none ∧ s.supplyPending p tag due) ∧
    (∃ (s : State) (p : Fin 16), s.mayDispatch p = false) :=
  ⟨⟨holding (withRound roundDue) 1 0x0304 [w64 2047] .retry, 0, 2047, 0, 9, roundDue, rangeDue, by decide +kernel⟩,
    ⟨up, 1, by decide +kernel⟩⟩

/-- States and operands that meet the hypotheses of FormsThatStandApart, for further clauses. -/
theorem test_meets_FormsThatStandApart_4 :
    (∃ (s : State) (i : Issue), (i.core s).eng.tensor ∧ Issues s 2 1 3 i) ∧
    (∃ (s : State) (i : Issue), (i.core s).eng.tensor = false ∧ Issues s 2 2 5 i) :=
  ⟨⟨issuing 2 (compV 1 3 1) true, issue (compV 1 3 1) 0, by decide +kernel, ⟨by decide +kernel, by decide +kernel, by decide +kernel,
      by decide +kernel, by decide +kernel, by decide +kernel, by decide +kernel, by decide +kernel⟩⟩,
    ⟨issuing 2 (tnV 5 0) false, issue (tnV 5 0) 0, by decide +kernel, ⟨by decide +kernel, by decide +kernel, by decide +kernel,
      by decide +kernel, by decide +kernel, by decide +kernel, by decide +kernel, by decide +kernel⟩⟩⟩

/-- States and operands that meet the hypotheses of FormsThatStandApart, for further clauses. -/
theorem test_meets_FormsThatStandApart_5 :
    (∃ (s : State) (i : Issue) (kind a : Nat), ((i.core s).eng.tensor = false ∧ badOperands (rangesDAB i s) = some (kind, a)) ∧ Issues s 2
      1 3 i) ∧
    (∃ (w : List W64) (q psi l mu pi : Nat) (ns : List Nat), entrySlot w = .valid q psi l mu pi ns) :=
  ⟨⟨withCore { coreA 2 (compV 1 3 1) false with a := List.replicate 32 0xFFFFFFFF }, issue (compV 1 3 1) 0, 1, 0xFFFFFFFF,
      by decide +kernel, ⟨by decide +kernel, by decide +kernel, by decide +kernel, by decide +kernel, by decide +kernel, by decide +kernel,
      by decide +kernel, by decide +kernel⟩⟩,
    ⟨basisWords, basisQ, basisPsi, 16, basisMu, basisPi, basisNs, by decide +kernel⟩⟩

/-- States and operands that meet the hypotheses of FormsThatStandApart, for further clauses. -/
theorem test_meets_FormsThatStandApart_6 :
    (∃ (w : List W64) (q psi l mu pi : Nat) (ns : List Nat) (n : Nat), entrySlot w = .valid q psi l mu pi ns ∧ 11 ≤ n ∧ n ≤ l) ∧
    (∃ (width : Nat), width < 1000) :=
  ⟨⟨basisWords, basisQ, basisPsi, 16, basisMu, basisPi, basisNs, 11, by decide +kernel⟩,
    ⟨5, by decide +kernel⟩⟩

/-- States and operands that meet the hypotheses of FormsThatStandApart, for further clauses. -/
theorem test_meets_FormsThatStandApart_7 :
    (∃ (s : State) (site : Fin 36), leastBelow 32 (fun c => s.nvm.siteMap.getD c 36 == site.val) = none) ∧
    (∃ (s : State) (site : Fin 36) (c : Nat), leastBelow 32 (fun c => s.nvm.siteMap.getD c 36 == site.val) = some c ∧ s.ownerOf c = none) :=
  ⟨⟨up, 35, by decide +kernel⟩,
    ⟨up, 20, 20, by decide +kernel⟩⟩

/-- States and operands that meet the hypotheses of EnvelopeDecidesInOrder, one for each of its clauses. -/
theorem test_meets_EnvelopeDecidesInOrder :
    (∃ (s : State) (ch : Fin 17) (op : Nat) (c : Cmd) (i : Nat) (st : Status), ((envelope s ch op c)[i]? = some (true, st) ∧ (∀ j < i,
      ((envelope s ch op c)[j]?.map Prod.fst) = some false) ∧ ¬ (i = 7 ∧ op = 0x0204 ∧ (s.own ch).st = .creating)) ∧ onlyWaits s ch op c) ∧
    (∃ (s : State) (ch : Fin 17) (c : Cmd), (ch ≠ 0 ∧ (s.own ch).st = .creating ∧ (∀ j < 7, ((envelope s ch 0x0204 c)[j]?.map Prod.fst) =
      some false)) ∧ onlyWaits s ch 0x0204 c) :=
  ⟨⟨waits up 1 0x0102 { vf0 [] with seq := 9 }, 1, 0x0102, { vf0 [] with seq := 9 }, 0, .badState, by decide +kernel, ⟨by decide +kernel,
      by decide +kernel, by decide +kernel, by decide +kernel, by decide +kernel, by decide +kernel, by decide +kernel⟩⟩,
    ⟨waits creating 1 0x0204 openCmd, 1, openCmd, by decide +kernel, ⟨by decide +kernel, by decide +kernel, by decide +kernel,
      by decide +kernel, by decide +kernel, by decide +kernel, by decide +kernel⟩⟩⟩

/-- States and operands that meet the hypotheses of EnvelopeDecidesInOrder, for further clauses. -/
theorem test_meets_EnvelopeDecidesInOrder_2 :
    (∃ (s : State) (ch : Fin 17) (r : Req), s.mailboxReady ∧ ch ≠ 0 ∧ s.chans[ch].held = some ⟨r, .retry⟩ ∧ s.chans[ch].asyncs = [] ∧ r.op
      = 0x0204 ∧ (s.own ch).st = .creating) ∧
    (∃ (s : State) (ch : Fin 17) (r : Req), s.mailboxReady ∧ ch ≠ 0 ∧ s.chans[ch].held = some ⟨r, .retry⟩ ∧ s.chans[ch].waiting = [] ∧
      s.chans[ch].unplaced = [] ∧ s.chans[ch].rplLevel ≤ 8192 ∧ r.op = 0x0204 ∧ (s.own ch).st = .active ∧ r.payload.length ≠ 29 ∧ r.discard
      = false) :=
  ⟨⟨holding creating 1 0x0204 [] .retry, 1, reqA 0x0204 [], by decide +kernel⟩,
    ⟨holding up 1 0x0204 [] .retry, 1, reqA 0x0204 [], by decide +kernel⟩⟩

/-- States and operands that meet the hypotheses of IdleAndReset. -/
theorem test_meets_IdleAndReset :
    ∃ (s : State), s.pending = [] :=
  ⟨up, by decide +kernel⟩

/-- States and operands that meet the hypotheses of IssueLandsOnlyDueResults, one for each of its clauses. -/
theorem test_meets_IssueLandsOnlyDueResults :
    (∃ (s : State) (slot cls op : Nat) (i : Issue), Issues s slot cls op i) ∧
    (∃ (s : State) (slot cls op : Nat) (i : Issue) (c : Fin 32) (k : Fin 8), ¬(c = i.c ∧ k = i.k) ∧ Issues s slot cls op i) :=
  ⟨⟨issuing 0 (ctlV 7 8) false, 0, 7, 8, issue (ctlV 7 8) 0, ⟨by decide +kernel, by decide +kernel, by decide +kernel, by decide +kernel,
      by decide +kernel, by decide +kernel, by decide +kernel, by decide +kernel⟩⟩,
    ⟨issuing 0 (ctlV 7 8) false, 0, 7, 8, issue (ctlV 7 8) 0, 1, 0, by decide +kernel, ⟨by decide +kernel, by decide +kernel,
      by decide +kernel, by decide +kernel, by decide +kernel, by decide +kernel, by decide +kernel, by decide +kernel⟩⟩⟩

/-- States and operands that meet the hypotheses of IssueLandsOnlyDueResults, for further clauses. -/
theorem test_meets_IssueLandsOnlyDueResults_2 :
    (∃ (s : State) (slot cls op : Nat) (i : Issue) (c : Fin 32) (k : Fin 8), (¬(c = i.c ∧ k = i.k) ∧ (∀ m ∈ (s.core c k).moves, m.store =
      false) ∧ (∀ j ∈ s.clusters[c].der.jobs, j.load.isSome)) ∧ Issues s slot cls op i) ∧
    (∃ (s : State) (slot cls op : Nat) (i : Issue) (c : Fin 32), (c ≠ i.c ∧ (∀ k : Fin 8, ∀ m ∈ (s.core c k).moves, m.store = false) ∧ (∀ j
      ∈ s.clusters[c].der.jobs, j.load.isSome)) ∧ Issues s slot cls op i) :=
  ⟨⟨issuing 0 (ctlV 7 8) false, 0, 7, 8, issue (ctlV 7 8) 0, 1, 0, by decide +kernel, ⟨by decide +kernel, by decide +kernel,
      by decide +kernel, by decide +kernel, by decide +kernel, by decide +kernel, by decide +kernel, by decide +kernel⟩⟩,
    ⟨issuing 0 (ctlV 7 8) false, 0, 7, 8, issue (ctlV 7 8) 0, 1, by decide +kernel, ⟨by decide +kernel, by decide +kernel,
      by decide +kernel, by decide +kernel, by decide +kernel, by decide +kernel, by decide +kernel, by decide +kernel⟩⟩⟩

/-- States and operands that meet the hypotheses of IssueLandsOnlyDueResults, for further clauses. -/
theorem test_meets_IssueLandsOnlyDueResults_3 :
    ∃ (s : State) (slot cls op : Nat) (i : Issue) (c : Fin 32), (∀ j ∈ s.clusters[c].der.jobs, j.load.isSome) ∧ Issues s slot cls op i :=
  ⟨issuing 0 (ctlV 7 8) false, 0, 7, 8, issue (ctlV 7 8) 0, 1, by decide +kernel, ⟨by decide +kernel, by decide +kernel,
    by decide +kernel, by decide +kernel, by decide +kernel, by decide +kernel, by decide +kernel, by decide +kernel⟩⟩

/-- States and operands that meet the hypotheses of FusesNeverReturn, one for each of its clauses. -/
theorem test_meets_FusesNeverReturn :
    (∃ (s t : State), step s = .next t) ∧
    (∃ (s t : State) (k : Nat), s.nvm.revoked.testBit k ∧ step s = .next t) :=
  ⟨⟨up, { up with clock := up.clock + 960 }, rfl⟩,
    ⟨{ up with nvm := { up.nvm with revoked := 1 } }, { up with nvm := { up.nvm with revoked := 1 }, clock := up.clock + 960 }, 0,
      by decide +kernel, rfl⟩⟩

/-- States and operands that meet the hypotheses of BuffersNeverOverflow. -/
theorem test_meets_BuffersNeverOverflow :
    ∃ (s t : State), (∀ ch : Fin 17, (s.chans[ch].replies.map List.length).sum ≤ 16384 ∧ (s.chans[ch].events.map List.length).sum ≤ 4096) ∧
    step s = .next t :=
  ⟨up, { up with clock := up.clock + 960 }, by decide +kernel, rfl⟩

end Sys2Proof.Tests
end

section
/-! O56: the envelope of R426 decides a command by the first of its rows that holds (R347, R425, R427). -/

namespace Sys2Proof.Machine

/-! ## The rows in order -/

/-- The decision of a list of rows of R426: the first row that holds refuses, and `k` decides where none does. Every row but the list's first
lets the sequence advance; the first does as `adv` says. -/
def Gate.ofRows (k : Gate) : Bool → List (Bool × Status) → Gate
  | _, [] => k
  | adv, (holds, st) :: rest => if holds then .refuse st adv else Gate.ofRows k true rest

/-- No row that holds: the decision is left to what follows the rows. -/
theorem Gate.ofRows_none (k : Gate) (adv : Bool) (l : List (Bool × Status))
    (h : ∀ j < l.length, l[j]?.map Prod.fst = some false) : Gate.ofRows k adv l = k := by
  induction l generalizing adv with
  | nil => rfl
  | cons row rest ih =>
    obtain ⟨holds, st⟩ := row
    have h0 : holds = false := by simpa using h 0 (by simp)
    have hrest : ∀ j < rest.length, rest[j]?.map Prod.fst = some false := fun j hj => by
      simpa using h (j + 1) (by simpa using hj)
    simp [Gate.ofRows, h0, ih true hrest]

/-- The first row that holds refuses with its own status. -/
theorem Gate.ofRows_first (k : Gate) (adv : Bool) (l : List (Bool × Status)) (i : Nat) (st : Status)
    (hi : l[i]? = some (true, st)) (h : ∀ j < i, l[j]?.map Prod.fst = some false) :
    Gate.ofRows k adv l = .refuse st (adv || decide (i ≠ 0)) := by
  induction l generalizing adv i with
  | nil => simp at hi
  | cons row rest ih =>
    obtain ⟨holds, st'⟩ := row
    cases i with
    | zero =>
      obtain ⟨rfl, rfl⟩ : holds = true ∧ st' = st := by simpa using hi
      simp [Gate.ofRows]
    | succ i =>
      have h0 : holds = false := by simpa using h 0 (by simp)
      have hrest : ∀ j < i, rest[j]?.map Prod.fst = some false := fun j hj => by
        simpa using h (j + 1) (by omega)
      simp [Gate.ofRows, h0, ih true i (by simpa using hi) hrest]

/-- The envelope decides by its rows in order, but for an OPEN_SESSION on a partition in CREATING, which waits before the row of R426 that
asks for an ACTIVE partition (R347, R426). -/
theorem gate_eq_ofRows (s : State) (ch : Fin 17) (op : Nat) (c : Cmd) :
    gate s ch op c false = Gate.ofRows
      (if ch ≠ 0 ∧ (s.own ch).st = .creating ∧ op = 0x0204 then .wait else Gate.ofRows .go true ((envelope s ch op c).drop 7))
      false ((envelope s ch op c).take 7) := by
  cases ho : opInfo op with
  | none => simp [gate, envelope, rowOf, ho, Gate.ofRows]
  | some info =>
    cases hx : (if ch = 0 then info.pf else info.vf) with
    | none => simp [gate, envelope, rowOf, ho, hx, Gate.ofRows]
    | some x => simp [gate, envelope, rowOf, ho, hx, Gate.ofRows, State.own, and_assoc]

/-- The row for a partition that is not ACTIVE holds of one in CREATING. -/
theorem envelope_inactive {s : State} {ch : Fin 17} (h0 : ch ≠ 0) (hc : (s.own ch).st = .creating) (op : Nat) (c : Cmd) :
    (envelope s ch op c)[7]?.map Prod.fst = some true := by
  have hc' : s.parts[(chanPart ch).val].st = .creating := hc
  simp [envelope, h0, hc']

/-- The first row that holds refuses the command with its status; the sequence stands still under row 1 alone (R425). -/
theorem gate_refuses {s : State} {ch : Fin 17} {op : Nat} {c : Cmd} {i : Nat} {st : Status}
    (hi : (envelope s ch op c)[i]? = some (true, st))
    (hlow : ∀ j < i, (envelope s ch op c)[j]?.map Prod.fst = some false)
    (hopen : ¬ (i = 7 ∧ op = 0x0204 ∧ (s.own ch).st = .creating)) :
    gate s ch op c false = .refuse st (decide (i ≠ 0)) := by
  rw [gate_eq_ofRows]
  by_cases h7 : i < 7
  · rw [Gate.ofRows_first _ _ _ i st (by rw [List.getElem?_take_of_lt h7, hi])
      fun j hj => by rw [List.getElem?_take_of_lt (by omega), hlow j hj]]
    simp
  · have hlate : ¬ (ch ≠ 0 ∧ (s.own ch).st = .creating ∧ op = 0x0204) := by
      rintro ⟨h0, hc, rfl⟩
      have hrow := envelope_inactive h0 hc 0x0204 c
      rcases Nat.lt_or_ge 7 i with h | h
      · simp [hlow 7 h] at hrow
      · exact hopen ⟨by omega, rfl, hc⟩
    rw [Gate.ofRows_none _ _ _ fun j hj => ?_, if_neg hlate, Gate.ofRows_first _ _ _ (i - 7) st ?_ fun j hj => ?_]
    · simp [show i ≠ 0 by omega]
    · rw [List.getElem?_drop, show 7 + (i - 7) = i by omega, hi]
    · rw [List.getElem?_drop, hlow _ (by omega)]
    · have hj' : j < 7 := Nat.lt_of_lt_of_le hj (List.length_take_le _ _)
      rw [List.getElem?_take_of_lt hj', hlow j (by omega)]

/-- An OPEN_SESSION that no earlier row refuses waits while its partition is in CREATING (R347). -/
theorem gate_waits {s : State} {ch : Fin 17} {c : Cmd} (h0 : ch ≠ 0) (hc : (s.own ch).st = .creating)
    (hlow : ∀ j < 7, (envelope s ch 0x0204 c)[j]?.map Prod.fst = some false) : gate s ch 0x0204 c false = .wait := by
  rw [gate_eq_ofRows, Gate.ofRows_none _ _ _ fun j hj => ?_, if_pos ⟨h0, hc, rfl⟩]
  have hj' : j < 7 := Nat.lt_of_lt_of_le hj (List.length_take_le _ _)
  rw [List.getElem?_take_of_lt hj', hlow j hj']

/-- No command that passes row 2 is an ASYNC OPEN_SESSION (R431). -/
theorem openSession_not_async {s : State} {ch : Fin 17} {c : Cmd}
    (h : (envelope s ch 0x0204 c)[1]?.map Prod.fst = some false) : c.async = false := by
  simp only [envelope, List.getElem?_cons_succ, List.getElem?_cons_zero, Option.map_some, Option.some.injEq,
    Bool.or_eq_false_iff] at h
  obtain ⟨⟨-, hasync⟩, -⟩ := h
  simpa [asyncOk] using hasync

/-! ## The command in its turn -/

/-- A channel in its turn, its one waiting command taken out and its credits returned: nothing else is under way there, and its replies and its
sequence stand as they stood. -/
structure TakenInTurn (s u : State) (ch : Fin 17) : Prop where
  only : OnlyChannel { s with clock := u.clock } u ch
  later : s.clock ≤ u.clock
  waiting : u.chans[ch].waiting = []
  held : u.chans[ch].held = none
  unplaced : u.chans[ch].unplaced = []
  chain : u.chans[ch].chain = none
  replies : u.chans[ch].replies = s.chans[ch].replies
  sequence : u.chans[ch].seqExpect = s.chans[ch].seqExpect

theorem OnlyChannel.refl (s : State) (ch : Fin 17) : OnlyChannel s s ch :=
  ⟨rfl, fun _ _ => rfl, rfl, rfl, rfl, rfl, rfl⟩

theorem OnlyChannel.clock_eq {s t : State} {ch : Fin 17} (h : OnlyChannel s t ch) : t.clock = s.clock := by rw [h.rest]

/-- Where only a channel has changed from some clock on, that clock is the one the new state shows. -/
theorem OnlyChannel.at_clock {s t : State} {ch : Fin 17} {n : Nat} (h : OnlyChannel { s with clock := n } t ch) :
    OnlyChannel { s with clock := t.clock } t ch := by
  rw [h.clock_eq]; exact h

theorem OnlyChannel.at_turn {s t : State} {ch : Fin 17} {op : Nat} (h : OnlyChannel (s.inTurn ch op) t ch) :
    OnlyChannel { s with clock := t.clock } t ch := by
  rw [State.inTurn_eq] at h
  exact h.at_clock

theorem State.inService_later (s : State) (ch : Fin 17) : s.clock ≤ (s.inService ch).clock := by
  unfold State.inService
  split
  · exact Nat.le_max_left _ _
  · exact Nat.le_refl _

@[simp] theorem State.inService_chans (s : State) (ch : Fin 17) : (s.inService ch).chans = s.chans := by
  rw [State.inService_eq]

/-- The waiting commands taken out of a channel. -/
def State.withdrawn (s : State) (ch : Fin 17) : State := s.modChan ch (fun k => { k with waiting := [] })

theorem State.withdrawn_only (s : State) (ch : Fin 17) : OnlyChannel s (s.withdrawn ch) ch :=
  OnlyChannel.modChan s ch _ (by simp)

@[simp] theorem State.withdrawn_chan (s : State) (ch : Fin 17) :
    (s.withdrawn ch).chans[ch.val] = { s.chans[ch.val] with waiting := [] } := State.modChan_same s ch _

/-- The turns of a channel do not depend on what waits there. -/
theorem State.withdrawn_inService (s : State) (ch : Fin 17) : (s.withdrawn ch).inService ch = (s.inService ch).withdrawn ch := by
  unfold State.inService
  rw [show (s.withdrawn ch).mailboxReady = s.mailboxReady from rfl]
  split <;> rfl

/-- Nothing held, nothing to resume. -/
theorem State.resume_none {s : State} {ch : Fin 17} (h : s.chans[ch].held = none) : s.resume ch = s := by
  simp only [State.resume, h]

theorem State.resumeReset_none {s : State} (h : s.chans[(0 : Fin 17)].held = none) : s.resumeReset = s := by
  simp only [State.resumeReset, h]

/-- A service turn resumes the held command and then takes the waiting ones; a reset that the PF holds stands apart. -/
theorem exec_serviceTurn {s : State} {ch : Fin 17} (hm : s.mailboxReady = true) (hz : ch = 0 → s.chans[ch].held = none) :
    exec (.serviceTurn ch) s = .next (((s.inService ch).resume ch).takeWaiting ch
      (((s.inService ch).resume ch).chans[ch]).waiting.length) := by
  show execServiceTurn ch s = _
  unfold execServiceTurn
  by_cases h0 : ch = 0
  · have hh : (s.inService ch).chans[ch].held = none := by simpa using hz h0
    rw [State.resume_none hh]
    subst h0
    simp [hm, State.resumeReset_none hh]
  · simp [hm, h0]

/-- A free channel takes the one command that waits, its credits returned, in a turn of the channel. -/
theorem State.takeWaiting_one {s : State} {ch : Fin 17} {op : Nat} {c : Cmd} (hw : s.chans[ch].waiting = [.typed op c])
    (hf : s.chans[ch].free c.async = true) :
    s.takeWaiting ch 1 = (State.noteCredit (s.credits ch) ((s.withdrawn ch).inService ch) ch).takeCmd (handlerOf op) ch op c
      false := by
  simp only [State.takeWaiting, hw, hf]
  rfl

/-- What the return of the credits keeps of a channel whose waiting commands are taken out. -/
theorem noteCredit_withdrawn {β : Type} (f : Channel → β) (old : Nat) (s : State) (ch : Fin 17)
    (hf : ∀ (t : State) (i : Nat), f (t.raise ch i).chans[ch.val] = f t.chans[ch.val]) :
    f (State.noteCredit old (s.withdrawn ch) ch).chans[ch.val] = f { s.chans[ch.val] with waiting := [] } := by
  rw [noteCredit_keeps f old _ ch hf, State.withdrawn_chan]

/-- A channel that is idle but for what waits is, with that taken out and at a later clock, a channel in its turn. -/
theorem takenInTurn_withdrawn {s : State} {ch : Fin 17} (old n : Nat) (hn : s.clock ≤ n) (hh : s.chans[ch].held = none)
    (hu : s.chans[ch].unplaced = []) (hc : s.chans[ch].chain = none) :
    TakenInTurn s (State.noteCredit old (({ s with clock := n } : State).withdrawn ch) ch) ch where
  only := ((State.withdrawn_only { s with clock := n } ch).trans (OnlyChannel.noteCredit old _ ch)).at_clock
  later := by rw [(OnlyChannel.noteCredit old _ ch).clock_eq]; exact hn
  waiting := noteCredit_withdrawn Channel.waiting _ _ ch (by simp)
  held := (noteCredit_withdrawn Channel.held _ _ ch (by simp)).trans hh
  unplaced := (noteCredit_withdrawn Channel.unplaced _ _ ch (by simp)).trans hu
  chain := (noteCredit_withdrawn Channel.chain _ _ ch (by simp)).trans hc
  replies := noteCredit_withdrawn Channel.replies _ _ ch (by simp)
  sequence := noteCredit_withdrawn Channel.seqExpect _ _ ch (by simp)

/-- In the service turn of a channel that is idle but for one command, the command is taken. -/
theorem serviceTurn_takes {s : State} {ch : Fin 17} {op : Nat} {c : Cmd} (h : onlyWaits s ch op c) :
    ∃ u, TakenInTurn s u ch ∧ exec (.serviceTurn ch) s = .next (u.takeCmd (handlerOf op) ch op c false) := by
  obtain ⟨hm, hw, hh, hu, ha, hc, -⟩ := h
  have hfree : (s.inService ch).chans[ch].free c.async = true := by
    simp only [State.inService_chans, Channel.free, hh, hu, ha]; simp
  have hexec : exec (.serviceTurn ch) s = .next ((s.inService ch).takeWaiting ch 1) := by
    rw [exec_serviceTurn hm (fun _ => hh), State.resume_none (by simpa using hh), State.inService_chans, hw]
    rfl
  have hturn : (s.inService ch).inService ch = { s with clock := ((s.inService ch).inService ch).clock } :=
    (State.inService_eq _ ch).trans (by rw [State.inService_eq s])
  rw [State.takeWaiting_one (by simpa using hw) hfree, State.withdrawn_inService, hturn] at hexec
  exact ⟨_, takenInTurn_withdrawn _ _ (Nat.le_trans (State.inService_later s ch) (State.inService_later _ ch)) hh hu hc, hexec⟩

/-- The envelope looks at nothing that the turn has changed. -/
theorem TakenInTurn.gate_eq {s u : State} {ch : Fin 17} (h : TakenInTurn s u ch) (op : Nat) (c : Cmd) :
    gate u ch op c false = gate s ch op c false := by
  have hseq := h.sequence
  unfold gate
  rw [h.only.rest] at hseq ⊢
  simp only [hseq]
  rfl

/-- Nor does the request of a command that is not ASYNC, but for the clock. -/
theorem TakenInTurn.mkReq_eq {s u : State} {ch : Fin 17} (h : TakenInTurn s u ch) (op : Nat) {c : Cmd} (ha : c.async = false) :
    mkReq u ch op c = mkReq { s with clock := u.clock } ch op c := by
  have hseq := h.sequence
  unfold mkReq
  rw [h.only.rest] at hseq ⊢
  simp only [hseq, ha]
  rfl

/-! ## The refusal's reply -/

/-- An answer changes its channel alone. -/
theorem OnlyChannel.reply (s : State) (ch : Fin 17) (r : Req) (st : Status) (ws : List W64) :
    OnlyChannel s (s.reply ch r st ws) ch := by
  unfold State.reply State.appendPacket
  split
  · exact OnlyChannel.refl s ch
  · dsimp only
    split
    · exact (OnlyChannel.modChan s ch _ (by simp)).trans (OnlyChannel.raise _ ch _)
    · exact OnlyChannel.modChan s ch _ (by simp)

/-- What a refusal does to its channel: its reply is the newest, REPLY is raised, and the sequence and what is held or waits there stay. -/
structure Refused (s t : State) (ch : Fin 17) (pkt : List W64) : Prop where
  only : OnlyChannel s t ch
  replies : t.chans[ch].replies = s.chans[ch].replies ++ [pkt]
  raised : t.chans[ch].irqCause.testBit irqReply = true
  sequence : t.chans[ch].seqExpect = s.chans[ch].seqExpect
  waiting : t.chans[ch].waiting = s.chans[ch].waiting
  held : t.chans[ch].held = s.chans[ch].held

/-- A refusal is counted and answered, where the reply buffer has room for the largest reply (R420, R422, R444). -/
theorem State.refuse_refused {s : State} {ch : Fin 17} {r : Req} (st : Status) (hd : r.discard = false)
    (hu : s.chans[ch].unplaced = []) (hr : s.chans[ch].rplLevel ≤ 8192) :
    Refused s ((s.count ch .cmdRefused 1).reply ch r st []) ch (replyPacket ch.val r st []) := by
  have hu' : (s.chans[ch.val]).unplaced = [] := hu
  have hroom : ((s.count ch .cmdRefused 1).chans[ch.val]).rplLevel + (replyPacket ch.val r st []).length ≤ 16384 := by
    have hlen := replyPacket_length ch.val r st []
    have hlevel : ((s.count ch .cmdRefused 1).chans[ch.val]).rplLevel = s.chans[ch].rplLevel := by
      simp [Channel.rplLevel]
    simp only [List.length_nil] at hlen
    omega
  have hreply : (s.count ch .cmdRefused 1).reply ch r st [] = ((s.count ch .cmdRefused 1).modChan ch (fun k =>
      { k with replies := k.replies ++ [replyPacket ch.val r st []] })).raise ch irqReply := by
    unfold State.reply State.appendPacket
    rw [if_neg (by simp [hd]), if_pos ⟨by simpa using hu', hroom⟩]
  refine ⟨(OnlyChannel.modChan s ch _ (by simp)).trans (OnlyChannel.reply _ ch r st []), ?_, ?_, by simp, by simp, by simp⟩
  · simp [hreply]
  · rw [hreply, Fin.getElem_fin, State.raise_cause]
    exact testBit_or_raise _ _

/-! ## What becomes of the command -/

/-- A command counted as taken, and the sequence advanced where its row lets it (R425, R444). -/
def State.counted (s : State) (ch : Fin 17) (adv : Bool) : State :=
  let t := s.count ch .cmdTaken 1
  if adv then t.modChan ch (fun k => { k with seqExpect := (k.seqExpect + 1) % 2 ^ 64 }) else t

/-- Of the fields of its channel the taking changes the counts and the sequence. -/
theorem State.counted_chan (s : State) (ch : Fin 17) (adv : Bool) : (s.counted ch adv).chans[ch.val] = { s.chans[ch.val] with
    counts := ((s.count ch .cmdTaken 1).chans[ch.val]).counts
    seqExpect := if adv then (s.chans[ch.val].seqExpect + 1) % 2 ^ 64 else s.chans[ch.val].seqExpect } := by
  cases adv <;> simp [State.counted, State.count]

theorem State.counted_only (s : State) (ch : Fin 17) (adv : Bool) : OnlyChannel s (s.counted ch adv) ch := by
  have hcount : OnlyChannel s (s.count ch .cmdTaken 1) ch := OnlyChannel.modChan s ch _ (by simp)
  cases adv
  · exact hcount
  · exact hcount.trans (OnlyChannel.modChan _ ch (fun k => { k with seqExpect := (k.seqExpect + 1) % 2 ^ 64 }) (by simp))

/-- A command that the envelope refuses is answered in the clear. -/
theorem State.takeCmd_refuse {s : State} {h : Handler} {ch : Fin 17} {op : Nat} {c : Cmd} {short adv : Bool} {st : Status}
    (hg : gate s ch op c short = .refuse st adv) (hc : s.chans[ch].chain = none) :
    s.takeCmd h ch op c short =
      ((s.counted ch adv).count ch .cmdRefused 1).reply ch { mkReq s ch op c with replyKey := none } st [] := by
  have hchain : (s.counted ch adv).abandonChain ch op = s.counted ch adv := by
    have : (s.counted ch adv).chans[ch].chain = none := by rw [Fin.getElem_fin, State.counted_chan]; exact hc
    simp only [State.abandonChain, this]
  unfold State.takeCmd
  simp only [hg]
  cases adv
  · rfl
  · exact congrArg (fun t : State => (t.count ch .cmdRefused 1).reply ch _ st []) hchain

/-- An OPEN_SESSION that the envelope lets wait is held. -/
theorem State.takeCmd_wait {s : State} {h : Handler} {ch : Fin 17} {op : Nat} {c : Cmd} {short : Bool}
    (hg : gate s ch op c short = .wait) :
    s.takeCmd h ch op c short = (s.counted ch true).modChan ch (fun k => { k with held := some ⟨mkReq s ch op c, .retry⟩ }) := by
  unfold State.takeCmd
  simp only [hg]
  rfl

/-- What the taking of a command keeps of a channel in its turn. -/
theorem TakenInTurn.counted {s u : State} {ch : Fin 17} (h : TakenInTurn s u ch) (adv : Bool) :
    OnlyChannel { s with clock := u.clock } (u.counted ch adv) ch ∧
    (u.counted ch adv).chans[ch].waiting = [] ∧ (u.counted ch adv).chans[ch].held = none ∧
    (u.counted ch adv).chans[ch].unplaced = [] ∧ (u.counted ch adv).chans[ch].replies = s.chans[ch].replies ∧
    (u.counted ch adv).chans[ch].seqExpect =
      if adv then (s.chans[ch].seqExpect + 1) % 2 ^ 64 else s.chans[ch].seqExpect := by
  refine ⟨h.only.trans (u.counted_only ch adv), ?_⟩
  simp only [Fin.getElem_fin, State.counted_chan]
  refine ⟨h.waiting, h.held, h.unplaced, h.replies, ?_⟩
  rw [show u.chans[ch.val].seqExpect = s.chans[ch].seqExpect from h.sequence]
  rfl

/-- In the clear a refusal is two words: the header with the status, and the partition of the command (R422). -/
theorem replyPacket_clear (ch : Nat) (r : Req) (st : Status) :
    replyPacket ch { r with replyKey := none } st [] = [w64 (r.seq * 2 ^ 48 + r.op * 2 ^ 16 + st.code), w64 r.partition] := by
  simp [replyPacket]

/-- The first row of R426 that holds refuses the one command that waits, with no effect but on its channel. -/
theorem serviceTurn_refuses {s : State} {ch : Fin 17} {op : Nat} {c : Cmd} {st : Status} {adv : Bool} (h : onlyWaits s ch op c)
    (hg : gate s ch op c false = .refuse st adv) :
    Runs (.serviceTurn ch) s fun t => OnlyChannel { s with clock := t.clock } t ch ∧ s.clock ≤ t.clock ∧
      t.chans[ch].replies = s.chans[ch].replies ++ [[w64 (c.seq * 2 ^ 48 + op * 2 ^ 16 + st.code), w64 c.partition]] ∧
      t.chans[ch].seqExpect = (if adv then (s.chans[ch].seqExpect + 1) % 2 ^ 64 else s.chans[ch].seqExpect) ∧
      t.chans[ch].waiting = [] ∧ t.chans[ch].held = none ∧ t.chans[ch].irqCause.testBit irqReply := by
  obtain ⟨u, hu, hexec⟩ := serviceTurn_takes h
  obtain ⟨-, -, -, -, -, -, hlevel⟩ := h
  obtain ⟨honly, hwait, hheld, hunpl, hrepl, hseq⟩ := hu.counted adv
  have href := State.refuse_refused (r := { mkReq u ch op c with replyKey := none }) st rfl hunpl
    (by simpa only [Channel.rplLevel, hrepl] using hlevel)
  rw [State.takeCmd_refuse (by rw [hu.gate_eq, hg]) hu.chain] at hexec
  have honly' := honly.trans href.only
  refine ⟨_, hexec, honly'.at_clock, ?_, ?_, href.sequence.trans hseq, href.waiting.trans hwait, href.held.trans hheld, href.raised⟩
  · rw [honly'.clock_eq]; exact hu.later
  · rw [href.replies, hrepl, replyPacket_clear]; rfl

/-- The one command that waits is held, where the envelope lets it wait. -/
theorem serviceTurn_holds {s : State} {ch : Fin 17} {op : Nat} {c : Cmd} (h : onlyWaits s ch op c)
    (hg : gate s ch op c false = .wait) (ha : c.async = false) :
    Runs (.serviceTurn ch) s fun t => OnlyChannel { s with clock := t.clock } t ch ∧ t.chans[ch].replies = s.chans[ch].replies ∧
      t.chans[ch].waiting = [] ∧ t.chans[ch].held = some ⟨mkReq { s with clock := t.clock } ch op c, .retry⟩ ∧
      t.chans[ch].seqExpect = (s.chans[ch].seqExpect + 1) % 2 ^ 64 := by
  obtain ⟨u, hu, hexec⟩ := serviceTurn_takes h
  obtain ⟨honly, hwait, -, -, hrepl, hseq⟩ := hu.counted true
  rw [State.takeCmd_wait (by rw [hu.gate_eq, hg]), hu.mkReq_eq op ha] at hexec
  have honly' := honly.trans (OnlyChannel.modChan _ ch
    (fun k => { k with held := some ⟨mkReq { s with clock := u.clock } ch op c, .retry⟩ }) (by simp))
  have hchan := State.modChan_same (u.counted ch true) ch
    (fun k => { k with held := some ⟨mkReq { s with clock := u.clock } ch op c, .retry⟩ })
  exact ⟨_, hexec, honly'.at_clock, (congrArg Channel.replies hchan).trans hrepl, (congrArg Channel.waiting hchan).trans hwait,
    (congrArg Channel.held hchan).trans (by rw [honly'.clock_eq]), (congrArg Channel.seqExpect hchan).trans hseq⟩

/-! ## The retried OPEN_SESSION -/

/-- A channel that holds a command takes none of those that wait (R427). -/
theorem State.takeWaiting_held {s : State} {ch : Fin 17} (h : s.chans[ch].held.isSome) (n : Nat) : s.takeWaiting ch n = s := by
  cases n with
  | zero => rfl
  | succ n =>
    have hbusy : ∀ b, s.chans[ch].free b = false := fun b => by
      simp only [Channel.free, Option.isNone_eq_false_iff.mpr h, Bool.false_and]
    unfold State.takeWaiting
    split
    · rfl
    · simp only [hbusy]; rfl

/-- A VF's held command stays held while its partition is in CREATING (R347). -/
theorem State.resume_creating {s : State} {ch : Fin 17} (h0 : ch ≠ 0) (hc : (s.own ch).st = .creating) : s.resume ch = s := by
  have hc' : s.parts[(chanPart ch).val].st = .creating := hc
  unfold State.resume
  split
  · rw [if_pos (by simp [h0, hc'])]
  · rfl

/-- A channel's held command set free. -/
def State.released (s : State) (ch : Fin 17) : State := s.modChan ch (fun k => { k with held := none })

theorem State.released_only (s : State) (ch : Fin 17) : OnlyChannel s (s.released ch) ch :=
  OnlyChannel.modChan s ch _ (by simp)

theorem State.released_chan (s : State) (ch : Fin 17) : (s.released ch).chans[ch] = { s.chans[ch] with held := none } :=
  State.modChan_same s ch _

/-- On an ACTIVE partition, an OPEN_SESSION of another length than 29 words meets the row of R426 for its length: it is refused as it stands when
the RTP's turn has passed (R344, R426). -/
theorem State.resume_badLength {s : State} {ch : Fin 17} {r : Req} (hh : s.chans[ch].held = some ⟨r, .retry⟩)
    (hst : (s.own ch).st = .active) (hop : r.op = 0x0204) (hlen : r.payload.length ≠ 29) :
    s.resume ch = (((s.inRtp ch 0x0204).released ch).count ch .cmdRefused 1).reply ch r .badLength [] := by
  have hst' : s.parts[(chanPart ch).val].st = .active := hst
  have hgo : (!Hold.retry.retried || (ch != 0 && (s.parts[chanPart ch]).st = .creating)) = false := by
    simp [Hold.retried, hst']
  simp only [State.resume, hh, hgo, hop]
  rw [if_neg (by simp), if_pos (by simpa using hlen)]
  rfl

/-- The OPEN_SESSION that a VF holds stays held in every turn while its partition is in CREATING (R347). -/
theorem serviceTurn_keeps_open {s : State} {ch : Fin 17} {r : Req} (hm : s.mailboxReady = true) (h0 : ch ≠ 0)
    (hh : s.chans[ch].held = some ⟨r, .retry⟩) (hc : (s.own ch).st = .creating) :
    Runs (.serviceTurn ch) s fun t => t = { s with clock := t.clock } := by
  have hc' : ((s.inService ch).own ch).st = .creating := by rw [State.inService_eq]; exact hc
  refine ⟨s.inService ch, ?_, State.inService_eq s ch⟩
  rw [exec_serviceTurn hm (fun e => absurd e h0), State.resume_creating h0 hc', State.takeWaiting_held (by
    rw [State.inService_chans, hh]; rfl)]

/-- Once its partition is ACTIVE, an OPEN_SESSION of a wrong length is refused in the channel's turn. -/
theorem serviceTurn_refuses_open {s : State} {ch : Fin 17} {r : Req} (hm : s.mailboxReady = true) (h0 : ch ≠ 0)
    (hh : s.chans[ch].held = some ⟨r, .retry⟩) (hw : s.chans[ch].waiting = []) (hu : s.chans[ch].unplaced = [])
    (hr : s.chans[ch].rplLevel ≤ 8192) (hop : r.op = 0x0204) (hst : (s.own ch).st = .active) (hlen : r.payload.length ≠ 29)
    (hd : r.discard = false) :
    Runs (.serviceTurn ch) s fun t => OnlyChannel { s with clock := t.clock } t ch ∧ t.chans[ch].held = none ∧
      t.chans[ch].replies = s.chans[ch].replies ++ [replyPacket ch.val r .badLength []] := by
  have hst' : ((s.inService ch).own ch).st = .active := by rw [State.inService_eq]; exact hst
  have hchan : ((s.inTurn ch 0x0204).released ch).chans[ch] = { s.chans[ch] with held := none } := by
    rw [State.released_chan, State.inTurn_chans]
  have href := State.refuse_refused (s := (s.inTurn ch 0x0204).released ch) .badLength hd (by rw [hchan]; exact hu)
    (by rw [hchan]; exact hr)
  have hexec := exec_serviceTurn hm (fun e => absurd e h0)
  rw [State.resume_badLength (by simpa using hh) hst' hop hlen] at hexec
  have hempty := href.waiting.trans ((congrArg Channel.waiting hchan).trans hw)
  exact ⟨_, hexec.trans (by rw [← State.inTurn, hempty]; rfl), ((State.released_only _ ch).trans href.only).at_turn,
    href.held.trans (by rw [hchan]), href.replies.trans (by rw [hchan])⟩

/-- Settles O56: the envelope decides by its rows in order (`gate_eq_ofRows`), in the turn in which the channel takes the command
(`serviceTurn_takes`); an OPEN_SESSION that it lets wait is retried until its partition is ACTIVE. What FATAL still serves and that the
OPEN_SESSION is retried are the model's reading (logs 17 and 18). -/
theorem envelopeDecidesInOrder : Obligations.EnvelopeDecidesInOrder := by
  unfold Obligations.EnvelopeDecidesInOrder
  refine ⟨?refused, ?waits, ?kept, ?met⟩
  case refused =>
    intro s ch op c i st h hi hlow hopen
    simpa using serviceTurn_refuses h (gate_refuses hi hlow hopen)
  case waits =>
    intro s ch c h h0 hc hlow
    exact serviceTurn_holds h (gate_waits h0 hc hlow) (openSession_not_async (hlow 1 (by omega)))
  case kept =>
    intro s ch r hm h0 hh _ _ hc
    exact serviceTurn_keeps_open hm h0 hh hc
  case met =>
    intro s ch r hm h0 hh hw hu hr hop hst hlen hd
    exact serviceTurn_refuses_open hm h0 hh hw hu hr hop hst hlen hd

end Sys2Proof.Machine
end

section
/-! O2, O3: GET_INFO and GET_STATUS are answered with the words of R432 and R433 and change nothing (R432, R433). Both are reads
(`read_row`): what is left to show is that the words which the handler reads, after the credits have returned and the command has been
counted in the turn of its channel, are those of the state before. -/

namespace Sys2Proof.Machine

/-! ## The words of GET_INFO -/

/-- GET_INFO has ten words (R432). -/
@[simp] theorem State.infoWords_length (s : State) (ch : Fin 17) : (s.infoWords ch).length = 10 := by
  simp [State.infoWords]

/-- What GET_INFO shows does not depend on a channel or on what the part shows outside. -/
theorem OnlyChannel.infoWords_eq {s t : State} {ch : Fin 17} (h : OnlyChannel s t ch) (j : Fin 17) : t.infoWords j = s.infoWords j := by
  rw [h.rest]; rfl

/-- Nor does it depend on wall time. -/
@[simp] theorem State.inTurn_infoWords (s : State) (ch : Fin 17) (op : Nat) (j : Fin 17) : (s.inTurn ch op).infoWords j = s.infoWords j := by
  rw [State.inTurn_eq]; rfl

/-- The handler of a command finds the words of GET_INFO as they stood before the command. -/
theorem State.atHand_infoWords (s : State) (ch : Fin 17) (op : Nat) (c : Cmd) (j : Fin 17) : (s.atHand ch op c).infoWords j = s.infoWords j := by
  rw [(State.atHand_only s ch op c).infoWords_eq, State.inTurn_infoWords]

/-- The handler of GET_INFO answers OK with the words of the state before the command and leaves the state as it found it. -/
theorem handleGetInfo_done (s : State) (ch : Fin 17) (op : Nat) (c : Cmd) (r : Req) :
    handleGetInfo ch r (s.atHand ch op c) = .done .ok (s.infoWords ch) (s.atHand ch op c) := by
  rw [handleGetInfo, State.atHand_infoWords]

/-! ## The words of GET_STATUS -/

/-- GET_STATUS has four words (R433). -/
@[simp] theorem State.statusWords_length (s : State) (ch : Fin 17) : (s.statusWords ch).length = 4 := by
  simp [State.statusWords]

/-- What GET_STATUS shows does not depend on a channel or on what the part shows outside. -/
theorem OnlyChannel.statusWords_eq {s t : State} {ch : Fin 17} (h : OnlyChannel s t ch) (j : Fin 17) : t.statusWords j = s.statusWords j := by
  rw [h.rest]; rfl

/-- Wall time is in the last word alone, the boot's progress, which the PF reads (R411, R433). -/
theorem State.inTurn_statusWords (s : State) (ch : Fin 17) (op : Nat) (j : Fin 17) : (s.inTurn ch op).statusWords j =
    (s.statusWords j).dropLast ++ [if j = 0 then (s.inTurn ch op).bootProgress else 0] := by
  rw [State.inTurn_eq]; rfl

/-- The handler of GET_STATUS answers OK with the words of the state in the turn and leaves the state as it found it. -/
theorem handleGetStatus_done (s : State) (ch : Fin 17) (op : Nat) (c : Cmd) (r : Req) :
    handleGetStatus ch r (s.atHand ch op c) = .done .ok ((s.inTurn ch op).statusWords ch) (s.atHand ch op c) := by
  rw [handleGetStatus, (State.atHand_only s ch op c).statusWords_eq]

/-! ## The answers -/

/-- GET_INFO is answered with its words, and nothing but its channel and wall time changes. -/
theorem getInfo_answers {s : State} {ch : Fin 17} {c : Cmd} (ht : takes s ch 0x0101 c = true) :
    Answers (.getInfo ch c) s ch 0x0101 c .ok (s.infoWords ch) :=
  read_row (h := handleGetInfo) rfl rfl ht (by simp) (handleGetInfo_done s ch 0x0101 c _)

/-- GET_STATUS is answered with its words, and nothing but its channel and wall time changes. -/
theorem getStatus_answers {s : State} {ch : Fin 17} {c : Cmd} (ht : takes s ch 0x0102 c = true) :
    Answers (.getStatus ch c) s ch 0x0102 c .ok ((s.inTurn ch 0x0102).statusWords ch) :=
  read_row (h := handleGetStatus) rfl rfl ht (by simp) (handleGetStatus_done s ch 0x0102 c _)

/-- Settles O2: the words that `getInfo_answers` gives are laid out as in R432. -/
theorem getInfoAnswers : Obligations.GetInfoAnswers := by
  unfold Obligations.GetInfoAnswers
  intro s ch c ht
  simpa only [State.infoWords, State.runningFw, Nat.one_mul] using getInfo_answers ht

/-- Settles O3: the words that `getStatus_answers` gives are laid out as in R433; wall time moves to the channel's turn, and only the boot's
progress, which the PF alone reads, is taken there. -/
theorem getStatusAnswers : Obligations.GetStatusAnswers := by
  unfold Obligations.GetStatusAnswers
  intro s ch c ht
  have h := getStatus_answers ht
  rw [State.inTurn_statusWords] at h
  exact h

end Sys2Proof.Machine
end
